-- ==== Sys2Proof/Word.lean ====
section
/-!
DEFINITION. The word types and the sparse maps of the model.
-/
namespace Sys2Proof

/-- A byte. -/
abbrev Byte := BitVec 8

/-- A string of bytes, first byte first (R5 [00]). -/
abbrev Bytes := List Byte

/-- A 16-bit word (a register of the SV16, a row register of the supervisor digest unit). -/
abbrev Word16 := BitVec 16

/-- A 32-bit register or index word. -/
abbrev Word32 := BitVec 32

/-- A 64-bit register. -/
abbrev Word64 := BitVec 64

/-- A sparse map from Nat keys: pairs with rising keys; a key that is not listed has the default value
its reader supplies. -/
abbrev TMap (α : Type) := List (Nat × α)

/-- The value at key `k`, `d` where the map lists none. -/
def tget {α : Type} (d : α) : TMap α → Nat → α
  | [], _ => d
  | (j, v) :: m, k => if k = j then v else if k < j then d else tget d m k

/-- The map with key `k` at value `v`. -/
def tset {α : Type} : TMap α → Nat → α → TMap α
  | [], k, v => [(k, v)]
  | (j, u) :: m, k, v =>
    if k = j then (k, v) :: m else if k < j then (k, v) :: (j, u) :: m else (j, u) :: tset m k v

/-- The map with key `k` no longer listed. -/
def tdel {α : Type} (m : TMap α) (k : Nat) : TMap α := m.filter (fun e => e.1 != k)

/-- The value at key `k`, if the map lists it. -/
def tfind {α : Type} (m : TMap α) (k : Nat) : Option α :=
  tget none (m.map (fun e => (e.1, some e.2))) k

end Sys2Proof
end

