-- ==== Sys2Proof/Syntax.lean ====
section
/-!
DEFINITION. The commands the block takes, as syntax: one constructor of Instr per row of
spec/opcode_table.json, with what the row's step is given from outside.
-/
namespace Sys2Proof

/-- The two transports of SPDM (R86 [02]). -/
inductive SpdmPath where
  | doe | mctp
deriving DecidableEq, Repr

/-- Instructions of the test access port that R366 [13] and R494 [18] tell apart. -/
inductive TapInstr where
  | idcode | bypass | samplePreload | extest | debug | dcode
deriving DecidableEq, Repr

/-- SPDM requests to the responder (R86, R87 [02]): versions, the algorithms, a certificate chain, a measurement,
the key exchange of a session, its end; any other request. -/
inductive SpdmReq where
  | getVersion
  | negotiate (version : Nat)
  | certificate (slot : Nat)
  | measurement (index : Nat)
  | keyExchange (pub : Bytes)
  | finish (macOk : Bool)
  | endSession
  | other (code : Nat)
deriving DecidableEq, Repr

/-- The three base address registers of R53 [02]. -/
inductive Bar where
  | pf0 | pf1 | bar2
deriving DecidableEq, Repr

/-- Configuration requests (R49, R53 [02]): a read of a doubleword of configuration space, or a write of the payload
and read request sizes. -/
inductive CfgAccess where
  | read (off : Nat)
  | sizes (payload : Nat) (readReq : Nat)
deriving DecidableEq, Repr

/-- Kinds of TLP that R88 [02] tells apart, with what they carry. -/
inductive TlpKind where
  | config (fn : Fin 2) (a : CfgAccess)
  | doe (req : SpdmReq)
  | write (bar : Bar) (off : Nat) (width : Nat) (value : Nat)
  | read (bar : Bar) (off : Nat) (width : Nat)
  | other
deriving DecidableEq, Repr

/-- What a read of a ring slot in host memory returned (R114 [03]): its bytes, or a failure, which is a
translation failure or another one. -/
inductive RingRead where
  | data (b : Bytes)
  | failed (translation : Bool)
deriving DecidableEq, Repr

/-- What a fetch unit's read of an entry brought (R95, R98 [03]): granule 0, and the granules that continue it. -/
structure EntryRead where
  g0 : RingRead
  conts : List RingRead
deriving DecidableEq, Repr

/-- The five engine classes of R17 [01], in the order of R72 [02]. -/
inductive EngClass where
  | lattice | hash | code | classical | cipher
deriving DecidableEq, Repr

/-- The unit classes of R415 [14]: the engine classes, and the payment units. -/
inductive UnitClass where
  | lattice | hash | code | classical | cipher | payment
deriving DecidableEq, Repr

/-- How the writes of a step went (R50, R118, R468): made; or a translation failed, while reads were still to
be requested (bus) or after (late); or the merge read of on-package memory failed its tag. -/
inductive WriteResult where
  | ok | busError | lateError | tagFail
deriving DecidableEq, Repr

/-- The header of a flit (R352 [12]) and whether its authentication tag was right. -/
structure FlitHdr where
  typ : Nat
  src : Nat
  dst : Nat
  hops : Nat
  used : Nat
  linkSeq : Nat
  tagOk : Bool
deriving DecidableEq, Repr

/-- What a bind flit carries (steps 2 to 4 of R353 [12]). -/
inductive BindMsg where
  /-- Step 2: ephemeral public keys, the sender's identity public key and its two signatures. -/
  | publicKeys (kem : Bytes) (x448 : Bytes) (idKey : Bytes) (sig : Bytes)
  /-- Step 3: the encapsulation and the wrapped board domain key, signed. -/
  | wrappedKey (ct : Bytes) (x448 : Bytes) (wrapped : Bytes) (idKey : Bytes) (sig : Bytes)
  /-- Step 4: the confirmation with the key check value. -/
  | confirm (kcv : Bytes)
deriving DecidableEq, Repr

/-- A mirror record as prepares and replays carry it (R358, R359 [12]). -/
structure MirrorRec where
  remove : Bool
  keepLocal : Bool
  slice : Nat
  mkId : Bytes
  mid : Nat
  sealedRec : Bytes
deriving DecidableEq, Repr

/-- What a board entry flit carries (R346, R349 [12]). -/
inductive BoardEntryMsg where
  | place (number : Nat) (block : Bytes) (config : Bytes) (adder : Nat)
  | placed (number : Nat) (ok : Bool)
  | cancel (number : Nat)
deriving DecidableEq, Repr

/-- What a position reports of itself (R506 [12]). -/
structure RingReport where
  pos : Nat
  member : Nat
  link0 : Nat
  link1 : Nat
  lock : Nat
  msn : Nat
deriving DecidableEq, Repr

/-- A spill request (R362 [12]): the command as the origin resolved it. -/
structure SpillReq where
  id : Nat
  opcode : Nat
  param : Byte
  handles : List Word32
  slice : Nat
  maskOrder : Nat
  inputs : List (Nat × Bytes)
  outLens : List (Nat × Nat)
deriving DecidableEq, Repr

/-- A spill response (R362 [12]): the outcome of a command that ran, or one returned unrun. -/
inductive SpillResp where
  | ran (status : Nat) (outs : List (Nat × Bytes)) (result : Bytes)
  | unrun
deriving DecidableEq, Repr

/-- What resync traffic brings to a device in RESYNC (R355 [12]). -/
inductive ReplayMsg where
  /-- A mirror record of the log, under its MSN. -/
  | record (msn : Nat) (m : MirrorRec)
  /-- A board entry. -/
  | entry (number : Nat) (block : Bytes) (config : Bytes) (adder : Nat)
  /-- The whole mirror set, complete up to an MSN. -/
  | set (upTo : Nat) (recs : List MirrorRec)
  /-- The replay has ended. -/
  | done
deriving DecidableEq, Repr

/-- What a DMA read returned (R468 [17]): bytes; a failed translation; an error completion; or a failed tag of
on-package memory. `after` says that the error came after every read had been requested. -/
inductive DmaRead where
  | data (b : Bytes)
  | translation (addr : Nat)
  | error (addr : Nat) (after : Bool)
  | tagFail (addr : Nat) (after : Bool)
deriving DecidableEq, Repr

/-- Whose read a DMA read completion belongs to: a command's input descriptor, or the source (or, of a
compare, the other range) of a manager channel. -/
inductive DmaTarget where
  | cmd (id : Nat) (desc : Nat)
  | chan (c : Fin 64) (other : Bool)
deriving DecidableEq, Repr

/-- The moduli of the Damask primitives (R210 [06]). -/
inductive Modulus where
  | q3329 | q8380417 | q12289
deriving DecidableEq, Repr

/-- Effective addresses of the SV16 (R444 [16]). -/
inductive SvEa where
  | ind (x : Fin 16)
  | postInc (x : Fin 16)
  | preDec (x : Fin 16)
  | disp (x : Fin 16) (d : Word16)
  | abs (a : Word16)
deriving DecidableEq, Repr

/-- The second operand of an SV16 arithmetic or shift instruction. -/
inductive SvSrc where
  | reg (r : Fin 16)
  | imm (v : Word16)
deriving DecidableEq, Repr

/-- A port operand of the SV16: its number, or the index register that holds it. -/
inductive SvPort where
  | imm (p : Fin 4096)
  | ind (x : Fin 16)
deriving DecidableEq, Repr

/-- A target of JMP and CALL. -/
inductive SvTarget where
  | abs (a : Word16)
  | ind (x : Fin 16)
deriving DecidableEq, Repr

/-- The commands of the block: one constructor per row of the table of operations and events, in its order. -/
inductive Instr where
  /-- STARTUP, R451 [16]: Release of the later of PORST_N and PERST_N, or the end of an internal supply reset, runs the start-up sequence up to the lifting of DEVICE_STARTING. -/
  | startup (straps : BitVec 3) (badUnits : List (Nat × Nat)) (badEntropy : List Nat)
  /-- PORST_N_ASSERT, R487 [18]: PORST_N going low resets the device with the effects of power loss and makes every slice FREE. -/
  | porstNAssert
  /-- PERST_N_ASSERT, R487 [18]: PERST_N going low resets the device with the effects of power loss and makes every slice FREE. -/
  | perstNAssert
  /-- SUPPLY_RESET, R402 [14]: A main supply below its reset level resets the device as PORST_N does and holds it in reset until all supplies have been valid for 1 ms. -/
  | supplyReset (supply : Fin 8)
  /-- LINK_LOSS, R52 [02]: The PCIe link going down other than through PERST_N aborts all commands, stops DMA, raises the link-loss fault and waits for PERST_N. -/
  | linkLoss
  /-- FLR_PF0, R90 [02]: A function level reset of PF0 aborts slice 0 commands, disables its queues, resets the MSI-X table, stops manager channels and frees banks 32 to 47. -/
  | flrPf0
  /-- FLR_PF1, R90 [02]: A function level reset of PF1 aborts every command of slices 1 to 255, disables their queues and clears their INT_PENDING. -/
  | flrPf1
  /-- MAIN_POWER_LOSS, R486 [18]: Main power leaving switches the battery domain to VBAT within 1 µs without interruption, leaving only battery tamper sources live. -/
  | mainPowerLoss
  /-- BATTERY_ALARM, R407 [14]: On battery alone, an alarm of a source at T1 to T4 erases the vault in hardware within 5 µs, sets LATCHED and logs the event. -/
  | batteryAlarm (source : Fin 32)
  /-- THERM_TRIP, R396 [14]: Tj reaching 120 °C drives THERM_TRIP_N low until Tj falls below 110 °C. -/
  | thermTrip (tj : BitVec 16)
  /-- SPDM_REQUEST, R86 [02]: An SPDM request over DOE or MCTP is answered by the device as responder, including measurement reports. -/
  | spdmRequest (path : SpdmPath) (req : SpdmReq)
  /-- IDE_KM, R88 [02]: An IDE_KM message inside a secured SPDM session programs IDE stream keys. `session`: the secured session that carried it, if one did. -/
  | ideKm (stream : Fin 5) (session : Option SpdmPath) (keys : Bytes)
  /-- ATS_INVALIDATE, R49 [02]: An ATS invalidation request removes translations from the 4,096-entry cache and completes within 2 µs. -/
  | atsInvalidate (pasid : BitVec 20) (pages : List Nat)
  /-- TAP_INSTRUCTION, R366 [13]: Selecting a test access port instruction takes effect as life-cycle allows, with EXTEST in CUSTOMER_INIT or OPERATIONAL first erasing working keys as T3. -/
  | tapInstruction (ti : TapInstr)
  /-- TLP_OUTSIDE_IDE, R88 [02]: A TLP received outside an established IDE stream while IDE_REQUIRED is 1 is discarded unless it is a configuration request or DOE. -/
  | tlpOutsideIde (kind : TlpKind)
  /-- REGISTER_WRITE, R6 [00]: A write to a register field that has no row of its own acts as its access type defines, with discards for reserved fields, wrong widths and locked fields. -/
  | registerWrite (bar : Bar) (off : Nat) (width : Nat) (value : Nat)
  /-- SQ_DOORBELL, R100 [03]: A write to SQ_DOORBELL gives the producer position, starts fetching, is recorded in QERR or is discarded with DB_DROP. -/
  | sqDoorbell (sl : Fin 256) (q : Fin 16) (v : BitVec 32)
  /-- CQ_DOORBELL, R105 [03]: A write to CQ_DOORBELL returns completion records, leaves STALLED when room is made, or is discarded with DB_DROP. -/
  | cqDoorbell (sl : Fin 256) (r : Fin 16) (v : BitVec 32)
  /-- SQ_RESTART, R116 [03]: A write with GO while the queue is in QERR sets the consumer position, clears SQ_ERR and returns the queue to RUNNING. -/
  | sqRestart (sl : Fin 256) (q : Fin 16) (v : BitVec 32)
  /-- SQ_ENABLE, R111 [03]: Writing SQ_CFG.ENABLE 1 checks the configuration and enables the queue at position (0, 0), or refuses with a CFG_FAULT code. -/
  | sqEnable (sl : Fin 256) (q : Fin 16) (v : BitVec 32)
  /-- SQ_DISABLE, R112 [03]: Writing SQ_CFG.ENABLE 0 stops fetching and moves the queue to DRAINING. -/
  | sqDisable (sl : Fin 256) (q : Fin 16)
  /-- CQ_ENABLE, R111 [03]: Writing CQ_CFG.ENABLE 1 checks the configuration and enables the ring at head and read position (0, 0), or refuses with a CFG_FAULT code. -/
  | cqEnable (sl : Fin 256) (r : Fin 16) (v : BitVec 32)
  /-- CQ_DISABLE, R112 [03]: Writing CQ_CFG.ENABLE 0 disables the ring at once, unless a queue that is not DISABLED still feeds it. -/
  | cqDisable (sl : Fin 256) (r : Fin 16)
  /-- SQ_DRAIN_DONE, R112 [03]: A DRAINING queue becomes DISABLED once it holds no reorder slot. -/
  | sqDrainDone (sl : Fin 256) (q : Fin 16)
  /-- SQ_POLL, R101 [03]: Expiry of the POLL interval makes the fetch unit read granule 0 at the consumer position. -/
  | sqPoll (sl : Fin 256) (q : Fin 16)
  /-- ENTRY_FETCH, R20 [01]: A ring read that returns a new granule 0 frames the entry and copies it into admission, or latches a framing fault. -/
  | entryFetch (sl : Fin 256) (q : Fin 16) (rd : EntryRead) (aux : List (Nat × Bytes)) (ciOk : Bool)
  /-- CONTINUATION_REREAD, R98 [03]: 1 µs after a continuation granule was not new, the fetch unit re-reads it once and reports framing fault 0x04 if it is still not new. -/
  | continuationReread (sl : Fin 256) (q : Fin 16) (conts : List RingRead) (aux : List (Nat × Bytes)) (ciOk : Bool)
  /-- GRANULE0_REREAD, R102 [03]: Every 1 µs the fetch unit re-reads a doorbell-covered granule 0 that was not new. -/
  | granule0Reread (sl : Fin 256) (q : Fin 16) (rd : EntryRead) (aux : List (Nat × Bytes)) (ciOk : Bool)
  /-- GRANULE0_TIMEOUT, R102 [03]: A covered granule 0 still not new 1 ms after it was first found so puts the queue into QERR with reason 0x07. -/
  | granule0Timeout (sl : Fin 256) (q : Fin 16)
  /-- PUSH_SLOT_POST, R42 [01]: Writing the last byte of granule 0 of a push slot posts the slot and clears its PUSH_FREE bit. -/
  | pushSlotPost (sl : Fin 256) (slot : Fin 16) (off : Fin 256) (data : Bytes)
  /-- PUSH_ENTRY_ADMIT, R43 [01]: A posted push slot is admitted ahead of ring entries when queue 0, its window and the slice allow, and its slot is freed. -/
  | pushEntryAdmit (sl : Fin 256) (slot : Fin 16) (aux : List (Nat × Bytes))
  /-- HOLD_EXPIRY, R25 [01]: A held command reaches its not-before tick and moves on to key resolution at the first scheduling decision at or after it. -/
  | holdExpiry (id : Nat)
  /-- SCHEDULING_ROUND, R30 [01]: Every 1 µs the scheduler refills each slice's deficit per class, caps carried deficit and admits returned cores' credits. -/
  | schedulingRound
  /-- COMMAND_DISPATCH, R31 [01]: When credits of all needed classes are free, the scheduler picks a ready command, charges its deficit and gives it to a sequencer and engine. -/
  | commandDispatch (k : EngClass)
  /-- ENGINE_JOB_END, R17 [01]: An engine job reaching the end of its service time wipes its engine, returns its credits and starts the result writes. -/
  | engineJobEnd (id : Nat)
  /-- RESULTS_WRITTEN, R20 [01]: The DMA writes of a command's outputs finish and its completion record enters the reorder pool. -/
  | resultsWritten (id : Nat) (w : WriteResult)
  /-- COMPLETION_RELEASE, R37 [01]: Records are released in admission order to their ring, up to 64 per batch, followed by the head-index write. -/
  | completionRelease (sl : Fin 256) (r : Fin 16) (failed : Option Nat)
  /-- CQ_COALESCE_TIMEOUT, R107 [03]: Expiry of COAL_TIME since the first unsignalled release raises vector 0 of the slice. -/
  | cqCoalesceTimeout (sl : Fin 256) (r : Fin 16)
  /-- STREAM_IDLE_TIMEOUT, R133 [04]: A stream with no segment in flight for 1 s is discarded and its STREAM_ID freed. -/
  | streamIdleTimeout (sl : Fin 256) (sid : Fin 256)
  /-- CONFIG_APPLY, R71 [02]: A slice configuration is applied as a whole at the next scheduling round after its command completes. -/
  | configApply (sl : Fin 256)
  /-- PASID_UNBIND_DONE, R76 [02]: When no admitted command still names the slot, PASID_UNBIND completes and the slot becomes empty after ATS invalidation. -/
  | pasidUnbindDone (sl : Fin 256) (slot : Fin 4)
  /-- XW_OWNER_WRITE, R80 [02]: A write to XW_PAGE.OWNER hands an exchange page to the device or back, holding a reclaim while BUSY is 1. -/
  | xwOwnerWrite (sl : Fin 256) (page : Fin 16) (v : BitVec 32)
  /-- XW_RECLAIM_APPLY, R80 [02]: A held reclaim of an exchange page takes effect when BUSY falls to 0. -/
  | xwReclaimApply (sl : Fin 256) (page : Fin 16)
  /-- XW_BAR2_ACCESS, R80 [02]: A BAR2 access to an exchange page reads or writes it when tenant-owned and returns all ones or is discarded when device-owned. -/
  | xwBar2Access (sl : Fin 256) (off : Nat) (width : Nat) (wr : Option Nat)
  /-- T2M_POST, R78 [02]: Writing MBX_CTRL.T2M_POST posts the tenant message, sets T2M_FULL and raises the slice's mailbox event on PF0. -/
  | t2mPost (sl : Fin 256)
  /-- M2T_ACK, R78 [02]: Writing MBX_CTRL.M2T_ACK acknowledges the manager message and clears M2T_FULL. -/
  | m2tAck (sl : Fin 256)
  /-- M2T_POST, R78 [02]: Writing MGR_MBX_CTRL.M2T_POST posts the manager message, sets M2T_FULL and raises vector 1 of the slice. -/
  | m2tPost (sl : Fin 256)
  /-- T2M_ACK, R78 [02]: Writing MGR_MBX_CTRL.T2M_ACK acknowledges the tenant message, clears T2M_FULL and raises vector 1 of the slice. -/
  | t2mAck (sl : Fin 256)
  /-- INT_MASK_WRITE, R85 [02]: A write to INT_MASK that unmasks a pending vector sends its message. -/
  | intMaskWrite (sl : Fin 256) (v : BitVec 32)
  /-- INT_PENDING_CLEAR, R85 [02]: Clearing an INT_PENDING bit allows the next event of that vector to send a message. -/
  | intPendingClear (sl : Fin 256) (v : BitVec 32)
  /-- IDE_CTRL_WRITE, R89 [02]: A write to IDE_CTRL sets IDE_REQUIRED or LOCK, and setting IDE_REQUIRED without a stream stops DMA at the next burst boundary. -/
  | ideCtrlWrite (v : BitVec 32)
  /-- SLICE_CREATE, R66 [02]: Creates a FREE slice with a clamped configuration and re-attaches or generates its master key. -/
  | sliceCreate (id : Nat)
  /-- SLICE_CONFIGURE, R70 [02]: Checks and clamps a slice configuration and writes the clamp report. -/
  | sliceConfigure (id : Nat)
  /-- SLICE_DESTROY, R67 [02]: Destroys a slice: aborts its commands, wipes its keys, regions and vault records, and sets it FREE. -/
  | sliceDestroy (id : Nat)
  /-- PASID_BIND, R73 [02]: Writes a PASID into an empty slot of a slice, refusing one already bound. -/
  | pasidBind (id : Nat)
  /-- PASID_UNBIND, R76 [02]: Closes a PASID slot to new admissions, completing when earlier commands naming it are done. -/
  | pasidUnbind (id : Nat)
  /-- SLICE_PAUSE, R59 [02]: Moves an ACTIVE slice to PAUSED, stopping fetch and push admission. -/
  | slicePause (id : Nat)
  /-- SLICE_RESUME, R59 [02]: Moves a PAUSED slice to ACTIVE, resuming fetch at the next round. -/
  | sliceResume (id : Nat)
  /-- ENGINE_SERVICE, R415 [14]: Queries a unit, or takes it out of or returns it to service, and reports its state. -/
  | engineService (id : Nat)
  /-- UNIT_DRAIN_DONE, R415 [14]: A DRAINING unit becomes OUT once its running command completes, completing the waiting OUT. -/
  | unitDrainDone (k : UnitClass) (u : Nat)
  /-- ENGINE_TEST_END, R19 [01]: A unit's isolated self-test and known-answer tests end, returning it to service or leaving it OUT by fault. -/
  | engineTestEnd (k : UnitClass) (u : Nat) (pass : Bool)
  /-- TAMPER_POLICY_SET, R405 [14]: PARAM SET writes the response level of each tamper source, refusing a lowering in OPERATIONAL. -/
  | tamperPolicySet (id : Nat)
  /-- TAMPER_RESUME, R405 [14]: PARAM RESUME ends HOLD or ERASED when no source is in alarm. -/
  | tamperResume (id : Nat)
  /-- CLEAR_LATCH, R400 [14]: Ends LATCHED when no source is in alarm, clears the battery log and passes through ERASED to NORMAL. -/
  | clearLatch (id : Nat)
  /-- FUSE, R406 [14]: ORs a bitmap of fusable sources into the OTP tamper fuse word in CUSTOMER_INIT. -/
  | fuse (id : Nat)
  /-- PATCH_LOAD, R426 [15]: Checks and loads a signed microcode patch into the free bank, optionally raising the anti-rollback floor. -/
  | patchLoad (id : Nat)
  /-- BANK_SWITCH, R421 [15]: A newly written control-store bank takes force at a scheduling round boundary and OLD_BANK_DRAINING is set. -/
  | bankSwitch (extension : Bool)
  /-- OLD_BANK_DRAIN_DONE, R427 [15]: OLD_BANK_DRAINING clears when the last command tagged with the previous bank completes. -/
  | oldBankDrainDone
  /-- MODULE_LOAD, R433 [15]: Checks and loads a signed custom function module set into the free extension bank. -/
  | moduleLoad (id : Nat)
  /-- POLICY_LOAD, R452 [16]: Checks and loads, or removes, a signed SV16 policy module. -/
  | policyLoad (id : Nat)
  /-- KEY_GENERATE, R158 [05]: Generates a symmetric, HMAC or payment key into the ledger after verification. -/
  | keyGenerate (id : Nat)
  /-- KEY_IMPORT_BLOB, R169 [05]: Opens a slice blob or clear public record, checks it in order and creates a ledger entry. -/
  | keyImportBlob (id : Nat)
  /-- KEY_EXPORT_BLOB, R167 [05]: Seals a key into a slice blob of the size class given. -/
  | keyExportBlob (id : Nat)
  /-- KEY_DESTROY, R164 [05]: Sets the entry DRAINING and increments its generation. -/
  | keyDestroy (id : Nat)
  /-- KEY_REPLACE, R162 [05]: Verifies new material in a shadow entry and swaps it in at once, or waits for an epoch switch when DEFERRED. -/
  | keyReplace (id : Nat)
  /-- KEY_REVOKE, R164 [05]: Sets the entry DRAINING with a new generation and, with CASCADE, every descendant as well. -/
  | keyRevoke (id : Nat)
  /-- KEY_DERIVE, R160 [05]: Derives a child symmetric or HMAC key from a parent by KMAC256 or counter-mode KDF. -/
  | keyDerive (id : Nat)
  /-- KEY_ATTR_GET, R145 [05]: Returns the 64-byte attribute record of a key. -/
  | keyAttrGet (id : Nat)
  /-- KEY_RESTRICT, R161 [05]: Narrows a key's usage, use limit or expiry. -/
  | keyRestrict (id : Nat)
  /-- KEY_WRAP, R168 [05]: Seals a key into a transport blob under an AES-256 wrapping key. -/
  | keyWrap (id : Nat)
  /-- KEY_UNWRAP, R169 [05]: Opens a transport blob and creates a child ledger key of the wrapping key. -/
  | keyUnwrap (id : Nat)
  /-- KEY_PUBLIC_GET, R158 [05]: Writes the clear public record of an asymmetric key. -/
  | keyPublicGet (id : Nat)
  /-- MLKEM_KEYGEN, R191 [06]: Generates an ML-KEM key pair into the ledger. -/
  | mlkemKeygen (id : Nat)
  /-- MLKEM_ENCAPS, R192 [06]: Encapsulates to an ML-KEM key and places the shared secret as CLEAR_SS selects. -/
  | mlkemEncaps (id : Nat)
  /-- MLKEM_DECAPS, R193 [06]: Decapsulates a ciphertext with implicit rejection and places the shared secret. -/
  | mlkemDecaps (id : Nat)
  /-- MLDSA_KEYGEN, R196 [06]: Generates an ML-DSA key pair into the ledger. -/
  | mldsaKeygen (id : Nat)
  /-- MLDSA_SIGN, R197 [06]: Signs with ML-DSA, verifying the signature before release and reporting attempts. -/
  | mldsaSign (id : Nat)
  /-- MLDSA_VERIFY, R198 [06]: Verifies an ML-DSA signature with OK or VERIFY_FAIL at full service time. -/
  | mldsaVerify (id : Nat)
  /-- FNDSA_KEYGEN, R199 [06]: Generates an FN-DSA key pair and reports attempts and revision. -/
  | fndsaKeygen (id : Nat)
  /-- FNDSA_SIGN, R200 [06]: Signs with FN-DSA, verifying before release. -/
  | fndsaSign (id : Nat)
  /-- FNDSA_VERIFY, R200 [06]: Verifies an FN-DSA signature. -/
  | fndsaVerify (id : Nat)
  /-- HYBRID_KEM_ENCAPS, R203 [06]: Encapsulates to a hybrid ML-KEM plus classical key and combines the secrets. -/
  | hybridKemEncaps (id : Nat)
  /-- HYBRID_KEM_DECAPS, R203 [06]: Decapsulates a hybrid ciphertext and combines the secrets. -/
  | hybridKemDecaps (id : Nat)
  /-- COMPOSITE_SIGN, R207 [06]: Signs with both a lattice and a classical key, checking both halves before release. -/
  | compositeSign (id : Nat)
  /-- COMPOSITE_VERIFY, R207 [06]: Verifies both halves of a composite signature at full service time. -/
  | compositeVerify (id : Nat)
  /-- HASH, R216 [07]: Computes a digest of a message. -/
  | hash (id : Nat)
  /-- XOF, R216 [07]: Computes SHAKE or cSHAKE output of a requested length. -/
  | xof (id : Nat)
  /-- HMAC_GEN, R216 [07]: Computes an HMAC tag under a ledger key. -/
  | hmacGen (id : Nat)
  /-- HMAC_VERIFY, R217 [07]: Verifies an HMAC tag with no early exit. -/
  | hmacVerify (id : Nat)
  /-- KMAC_GEN, R216 [07]: Computes a KMAC tag under a ledger key. -/
  | kmacGen (id : Nat)
  /-- KMAC_VERIFY, R217 [07]: Verifies a KMAC tag with no early exit. -/
  | kmacVerify (id : Nat)
  /-- SLHDSA_KEYGEN, R225 [07]: Generates an SLH-DSA key pair on gathered lanes. -/
  | slhdsaKeygen (id : Nat)
  /-- SLHDSA_SIGN, R227 [07]: Signs with SLH-DSA over 16 or 32 lanes, checking the root before release. -/
  | slhdsaSign (id : Nat)
  /-- SLHDSA_VERIFY, R227 [07]: Verifies an SLH-DSA signature on 4 lanes. -/
  | slhdsaVerify (id : Nat)
  /-- LMS_KEYGEN, R231 [07]: Generates an LMS or HSS key and builds its trees. -/
  | lmsKeygen (id : Nat)
  /-- LMS_SIGN, R232 [07]: Signs with an LMS key at the one-time index taken at resolution. -/
  | lmsSign (id : Nat)
  /-- LMS_VERIFY, R231 [07]: Verifies an LMS or HSS signature. -/
  | lmsVerify (id : Nat)
  /-- LMS_RESERVE, R234 [07]: Reserves a range of one-time indices and writes its blob, or commits a stored reservation. -/
  | lmsReserve (id : Nat)
  /-- XMSS_KEYGEN, R231 [07]: Generates an XMSS or XMSS^MT key and builds its trees. -/
  | xmssKeygen (id : Nat)
  /-- XMSS_SIGN, R232 [07]: Signs with an XMSS key at the one-time index taken at resolution. -/
  | xmssSign (id : Nat)
  /-- XMSS_VERIFY, R231 [07]: Verifies an XMSS or XMSS^MT signature. -/
  | xmssVerify (id : Nat)
  /-- XMSS_RESERVE, R234 [07]: Reserves or commits a range of XMSS one-time indices. -/
  | xmssReserve (id : Nat)
  /-- HQC_KEYGEN, R250 [08]: Generates an HQC key pair into the ledger. -/
  | hqcKeygen (id : Nat)
  /-- HQC_ENCAPS, R255 [08]: Encapsulates to an HQC key and places the shared secret. -/
  | hqcEncaps (id : Nat)
  /-- HQC_DECAPS, R256 [08]: Decapsulates an HQC ciphertext with implicit rejection. -/
  | hqcDecaps (id : Nat)
  /-- MCE_KEYGEN, R252 [08]: Generates a Classic McEliece key pair over repeated attempts. -/
  | mceKeygen (id : Nat)
  /-- MCE_ENCAPS, R255 [08]: Encapsulates to a Classic McEliece key. -/
  | mceEncaps (id : Nat)
  /-- MCE_DECAPS, R256 [08]: Decapsulates a Classic McEliece ciphertext with implicit rejection. -/
  | mceDecaps (id : Nat)
  /-- RSA_KEYGEN, R272 [09]: Generates an RSA key pair from DRBG prime candidates and reports the candidate count. -/
  | rsaKeygen (id : Nat)
  /-- RSA_SIGN, R269 [09]: Signs a digest with PSS or PKCS #1 v1.5 under blinding and checks the result. -/
  | rsaSign (id : Nat)
  /-- RSA_VERIFY, R270 [09]: Verifies an RSA signature. -/
  | rsaVerify (id : Nat)
  /-- RSA_ENCRYPT, R269 [09]: Encrypts a message with OAEP or PKCS #1 v1.5. -/
  | rsaEncrypt (id : Nat)
  /-- RSA_DECRYPT, R271 [09]: Decrypts a ciphertext, returning a synthetic message on v1.5 padding failure. -/
  | rsaDecrypt (id : Nat)
  /-- EC_KEYGEN, R275 [09]: Generates an elliptic-curve key pair into the ledger. -/
  | ecKeygen (id : Nat)
  /-- ECDSA_SIGN, R275 [09]: Signs a digest with ECDSA. -/
  | ecdsaSign (id : Nat)
  /-- ECDSA_VERIFY, R275 [09]: Verifies an ECDSA signature. -/
  | ecdsaVerify (id : Nat)
  /-- ECDH, R276 [09]: Computes an ECDH shared value, writing it or deriving a ledger key. -/
  | ecdh (id : Nat)
  /-- EDDSA_SIGN, R275 [09]: Signs a message with Ed25519 or Ed448. -/
  | eddsaSign (id : Nat)
  /-- EDDSA_VERIFY, R275 [09]: Verifies an EdDSA signature. -/
  | eddsaVerify (id : Nat)
  /-- XDH, R276 [09]: Computes an X25519 or X448 shared value, writing it or deriving a ledger key. -/
  | xdh (id : Nat)
  /-- ENCRYPT, R291 [10]: Encrypts data in ECB, CBC, CTR, XTS, KW or KWP mode. -/
  | encrypt (id : Nat)
  /-- DECRYPT, R291 [10]: Decrypts data, checking authenticity first for KW and KWP. -/
  | decrypt (id : Nat)
  /-- AEAD_ENCRYPT, R294 [10]: Encrypts and authenticates with GCM, CCM, SIV or GCM-C. -/
  | aeadEncrypt (id : Nat)
  /-- AEAD_DECRYPT, R289 [10]: Decrypts after checking the tag, writing zeros and AUTH_FAIL on failure. -/
  | aeadDecrypt (id : Nat)
  /-- MAC_GEN, R297 [10]: Computes a CMAC, GMAC or ISO 9797-1 MAC. -/
  | macGen (id : Nat)
  /-- MAC_VERIFY, R297 [10]: Verifies a MAC with no early exit. -/
  | macVerify (id : Nat)
  /-- RANDOM, R298 [10]: Generates random bytes from the slice's CTR_DRBG instance, reseeding on request. -/
  | random (id : Nat)
  /-- PIN_TRANSLATE, R314 [11]: Translates a PIN block between zone PIN keys and formats. -/
  | pinTranslate (id : Nat)
  /-- PVV_GENERATE, R318 [11]: Computes a PIN verification value or offset from a PIN block. -/
  | pvvGenerate (id : Nat)
  /-- PVV_VERIFY, R318 [11]: Verifies a PIN against a PIN verification value or offset. -/
  | pvvVerify (id : Nat)
  /-- CVC_GENERATE, R319 [11]: Computes a card verification code. -/
  | cvcGenerate (id : Nat)
  /-- CVC_VERIFY, R319 [11]: Verifies a card verification code. -/
  | cvcVerify (id : Nat)
  /-- DUKPT_AES_TRANSLATE, R323 [11]: Derives an AES DUKPT working key and translates a PIN block under it. -/
  | dukptAesTranslate (id : Nat)
  /-- DUKPT_TDES_TRANSLATE, R323 [11]: Derives a TDES DUKPT working key and translates a PIN block under it. -/
  | dukptTdesTranslate (id : Nat)
  /-- DUKPT_MAC_VERIFY, R323 [11]: Verifies a MAC under a DUKPT-derived key. -/
  | dukptMacVerify (id : Nat)
  /-- IPEK_DERIVE, R324 [11]: Derives an IPEK from a BDK into the ledger. -/
  | ipekDerive (id : Nat)
  /-- ARQC_VERIFY, R327 [11]: Verifies an EMV ARQC and optionally generates an ARPC. -/
  | arqcVerify (id : Nat)
  /-- ARPC_GENERATE, R327 [11]: Generates an EMV ARPC without checking the ARQC. -/
  | arpcGenerate (id : Nat)
  /-- RETAIL_MAC_GEN, R328 [11]: Computes a retail MAC. -/
  | retailMacGen (id : Nat)
  /-- RETAIL_MAC_VERIFY, R328 [11]: Verifies a retail MAC. -/
  | retailMacVerify (id : Nat)
  /-- KEYBLOCK_IMPORT, R332 [11]: Imports an X9.143 or ISO 20038 key block under a KBPK. -/
  | keyblockImport (id : Nat)
  /-- KEYBLOCK_EXPORT, R333 [11]: Exports a key as a key block under a KBPK. -/
  | keyblockExport (id : Nat)
  /-- TIME_READ, R342 [12]: Returns device time and TIME_STATUS. -/
  | timeRead (id : Nat)
  /-- SCHED_ADD, R346 [12]: Places a scheduled action entry on this device or every serving device. -/
  | schedAdd (id : Nat)
  /-- SCHED_CANCEL, R349 [12]: Removes a scheduled action entry, or reports that it has already fired. -/
  | schedCancel (id : Nat)
  /-- SCHED_LIST, R350 [12]: Writes the 256 scheduled action records visible to the slice. -/
  | schedList (id : Nat)
  /-- SCHED_ACTION_FIRE, R347 [12]: A scheduled action entry's tick arrives on a locked device and its action is applied and its outcome recorded. -/
  | schedActionFire (idx : Fin 256)
  /-- BOARD_BIND, R353 [12]: Checks the manifest and runs the board key exchange that stores a shared board domain key. -/
  | boardBind (id : Nat)
  /-- BIND_FLIT, R353 [12]: A bind flit carrying ephemeral keys, a wrapped board key or a confirmation advances the board bind. -/
  | bindFlit (port : Fin 2) (h : FlitHdr) (b : BindMsg)
  /-- BIND_TIMEOUT, R353 [12]: A bind not finished within 10 s completes with RING_NOT_BOUND on every participant and stores nothing. -/
  | bindTimeout
  /-- RING_STATUS, R506 [12]: Writes each position's membership, links, lock and last MSN as last heard. -/
  | ringStatus (id : Nat)
  /-- SPILL_CONFIG, R363 [12]: Sets the classes that may spill out, the spill wait and the incoming shares. -/
  | spillConfig (id : Nat)
  /-- MIRROR_PUT, R358 [12]: Starts the mirroring protocol for a local key. -/
  | mirrorPut (id : Nat)
  /-- MIRROR_REMOVE, R359 [12]: Starts the protocol that removes a mirrored key from every device. -/
  | mirrorRemove (id : Nat)
  /-- MIRROR_PREPARE, R358 [12]: A received prepare makes the device reserve a log record and, as a member, a PENDING entry, and answer the sequencer. -/
  | mirrorPrepare (port : Fin 2) (h : FlitHdr) (m : MirrorRec)
  /-- MIRROR_REPLY, R358 [12]: An ACK or NAK received by the sequencer is collected for the prepare. -/
  | mirrorReply (port : Fin 2) (h : FlitHdr) (mid : Nat) (ack : Bool)
  /-- MIRROR_SEQ_WAIT_END, R358 [12]: After up to 1 ms the sequencer aborts on any NAK or assigns an MSN and commit tick and broadcasts the commit. -/
  | mirrorSeqWaitEnd (mid : Nat)
  /-- MIRROR_COMMIT, R358 [12]: A received commit is placed in entries 224 to 255, or triggers RESYNC on a sequence gap. -/
  | mirrorCommit (port : Fin 2) (h : FlitHdr) (mid : Nat) (msn : Nat) (tick : Nat)
  /-- MIRROR_ABORT, R358 [12]: A received abort releases the prepare's reservations and the origin completes with RESOURCE_QUOTA. -/
  | mirrorAbort (port : Fin 2) (h : FlitHdr) (mid : Nat)
  /-- MIRROR_ORIGIN_TIMEOUT, R358 [12]: The origin hearing nothing from the sequencer within 2 ms completes with MIRROR_DIVERGED. -/
  | mirrorOriginTimeout (mid : Nat)
  /-- RESYNC_REQUEST, R355 [12]: A resync flit asks a serving neighbour for records after an MSN, and the neighbour replays its log or whole mirror set. -/
  | resyncRequest (port : Fin 2) (h : FlitHdr) (afterMsn : Nat)
  /-- BOARD_ENTRY_FLIT, R346 [12]: A board entry flit places, confirms or cancels a SCOPE 0x01 scheduled entry on this device. -/
  | boardEntryFlit (port : Fin 2) (h : FlitHdr) (b : BoardEntryMsg)
  /-- LINK_CONTROL_FLIT, R352 [12]: A link-control flit carries port training and control traffic. -/
  | linkControlFlit (port : Fin 2) (h : FlitHdr) (reports : List RingReport)
  /-- PORT_TRAINED, R351 [12]: A Zenari port finishes training with its partner, derives its link key and reports UP or UP_UNBOUND. -/
  | portTrained (port : Fin 2) (lanes4 : Bool) (nonces : Bytes)
  /-- PORT_DOWN, R351 [12]: A Zenari port loses its partner or fails its lanes and goes DOWN. -/
  | portDown (port : Fin 2)
  /-- TSYNC_DRIVE, R339 [12]: The time master drives a TSYNC edge at every multiple of 1,000,000 ticks. -/
  | tsyncDrive
  /-- TIME_MSG_SEND, R339 [12]: The time master sends a time message on both ports every 250 µs. -/
  | timeMsgSend
  /-- TSYNC_EDGE, R340 [12]: A received TSYNC edge is time-stamped and the follower slews towards zero phase error, unlocking beyond ±20 ns. -/
  | tsyncEdge (err : Int)
  /-- TSYNC_EDGE_MISSING, R340 [12]: An expected TSYNC edge not seen increments LOST_PULSES, and a third unlocks the follower. -/
  | tsyncEdgeMissing
  /-- TIME_FLIT, R340 [12]: A time message received by an unlocked follower steps its count and locks it. -/
  | timeFlit (port : Fin 2) (h : FlitHdr) (edgeTick : Nat) (sinceEdge : Nat)
  /-- MASTER_STARTUP_SILENCE, R341 [12]: The start-up master finding TSYNC silent for 3 ms drives it and sets LOCK to master. -/
  | masterStartupSilence
  /-- MASTER_TAKEOVER, R341 [12]: A follower that lost three edges and then waited p ms on a silent net takes over as master and mirror sequencer. -/
  | masterTakeover
  /-- TAMPER_BUS_LOW, R356 [12]: TAMPER_BUS held low for more than 100 ns raises the board tamper source once per incident. -/
  | tamperBusLow
  /-- TAMPER_FLIT, R356 [12]: A received tamper flit raises the board tamper source once per incident. -/
  | tamperFlit (port : Fin 2) (h : FlitHdr) (pos : Fin 8) (level : Nat)
  /-- CREDIT_ADVERT_SEND, R361 [12]: Every 1 µs the device sends credit advertisements to both neighbours. -/
  | creditAdvertSend
  /-- CREDIT_ADVERT_FLIT, R361 [12]: A received credit advertisement records a neighbour's free credits and incoming shares. -/
  | creditAdvertFlit (port : Fin 2) (h : FlitHdr) (free : List Nat) (shareIn : List Nat) (members : List (Nat × Bytes))
  /-- SPILL_WAIT_EXPIRY, R361 [12]: An eligible command that has waited longer than WAIT for a credit is spilled to a neighbour. -/
  | spillWaitExpiry (id : Nat) (port : Fin 2)
  /-- SPILL_REQUEST, R362 [12]: A received spill request is scheduled under the ring account, resolved to local copies and run or returned unrun. -/
  | spillRequest (port : Fin 2) (h : FlitHdr) (r : SpillReq)
  /-- SPILL_RESPONSE, R362 [12]: A received spill response gives the origin the outputs to write, or a command returned unrun to run locally. -/
  | spillResponse (port : Fin 2) (h : FlitHdr) (id : Nat) (r : SpillResp)
  /-- SPILL_TIMEOUT, R362 [12]: No spill response within 10 ms plus service time makes the origin run the command locally and raise vector 452. -/
  | spillTimeout (id : Nat)
  /-- LC_TRANSITION, R369 [13]: Checks a token and moves the life-cycle state forward, erasing keys and writing OTP. -/
  | lcTransition (id : Nat)
  /-- TOKEN_LOCKOUT_END, R372 [13]: 1 s after a TOKEN_INVALID, LC_TRANSITION and DEBUG_CHALLENGE are checked again. -/
  | tokenLockoutEnd
  /-- DEBUG_CHALLENGE_NONCE, R373 [13]: PARAM 0x00 writes a fresh 32-byte debug nonce. -/
  | debugChallengeNonce (id : Nat)
  /-- DEBUG_CHALLENGE_RESPONSE, R373 [13]: PARAM 0x01 checks the debug response, erases keys and opens the test access port. -/
  | debugChallengeResponse (id : Nat)
  /-- DEBUG_NONCE_EXPIRY, R373 [13]: A debug nonce stops being valid 60 s after it was issued. -/
  | debugNonceExpiry
  /-- IDENTITY_ATTEST, R376 [13]: Writes a signed attestation record of the device or the slice's custody keys. -/
  | identityAttest (id : Nat)
  /-- APPROVAL_NONCE, R379 [13]: Issues an approval nonce bound to a quorum class and command digest. -/
  | approvalNonce (id : Nat)
  /-- APPROVAL_NONCE_EXPIRY, R379 [13]: An approval nonce dies 600 s after issue. -/
  | approvalNonceExpiry (sl : Fin 256)
  /-- CUSTODIAN_ADD, R382 [13]: Adds a custodian under quorum with proof of possession. -/
  | custodianAdd (id : Nat)
  /-- CUSTODIAN_REMOVE, R382 [13]: Removes a custodian under quorum. -/
  | custodianRemove (id : Nat)
  /-- QUORUM_POLICY_SET, R382 [13]: Sets the quorum thresholds under quorum. -/
  | quorumPolicySet (id : Nat)
  /-- COMPONENT_OPEN, R383 [13]: COMPONENT_IMPORT OPEN opens a key component session. -/
  | componentOpen (id : Nat)
  /-- COMPONENT_ADD, R383 [13]: COMPONENT_IMPORT ADD decrypts and stores one component under its custodian's approval. -/
  | componentAdd (id : Nat)
  /-- COMPONENT_FINISH, R383 [13]: COMPONENT_IMPORT FINISH XORs the components and creates the key under quorum. -/
  | componentFinish (id : Nat)
  /-- COMPONENT_ABANDON, R383 [13]: COMPONENT_IMPORT ABANDON wipes the session. -/
  | componentAbandon (id : Nat)
  /-- COMPONENT_SESSION_TIMEOUT, R383 [13]: A component session with no command for 600 s is wiped. -/
  | componentSessionTimeout (sl : Fin 256)
  /-- MASTER_KEY_STAGE, R384 [13]: MASTER_KEY_CHANGE STAGE draws a new master key into a vault staging record under quorum. -/
  | masterKeyStage (id : Nat)
  /-- MASTER_KEY_REWRAP, R384 [13]: MASTER_KEY_CHANGE REWRAP reseals a slice blob under the staged key. -/
  | masterKeyRewrap (id : Nat)
  /-- MASTER_KEY_COMMIT, R384 [13]: MASTER_KEY_CHANGE COMMIT writes the staged key, derives new custody keys and erases the staging record. -/
  | masterKeyCommit (id : Nat)
  /-- MASTER_KEY_ABANDON, R384 [13]: MASTER_KEY_CHANGE ABANDON erases the staging record. -/
  | masterKeyAbandon (id : Nat)
  /-- MASTER_KEY_EXPORT, R385 [13]: Seals the slice master key, registry and policy to an attested target slice. -/
  | masterKeyExport (id : Nat)
  /-- MASTER_KEY_IMPORT, R386 [13]: Installs a master key, registry and policy from an export envelope. -/
  | masterKeyImport (id : Nat)
  /-- SLICE_DECOMMISSION, R387 [13]: Under quorum, stops the slice, writes its final seal and then destroys it. -/
  | sliceDecommission (id : Nat)
  /-- AUDIT_CONFIGURE, R388 [13]: AUDIT_CONFIG CONFIGURE sets the audit ring and seal area and writes held records. -/
  | auditConfigure (id : Nat)
  /-- AUDIT_ACK, R388 [13]: AUDIT_CONFIG ACK acknowledges audit records below a SEQ, freeing ring space. -/
  | auditAck (id : Nat)
  /-- AUDIT_SEAL, R392 [13]: Writes a seal record signed under the audit key. -/
  | auditSeal (id : Nat)
  /-- AUDIT_AUTO_SEAL, R392 [13]: A seal record is written after every 4,095 other records. -/
  | auditAutoSeal (sl : Fin 256)
  /-- AUDIT_SEAL_SIGNED, R392 [13]: A seal's signature is written to its slot and the head passes the seal record. -/
  | auditSealSigned (sl : Fin 256)
  /-- AUDIT_RESET, R393 [13]: Treats unacknowledged records as acknowledged under quorum and writes a reset record. -/
  | auditReset (id : Nat)
  /-- SELF_TEST, R404 [14]: Runs the built-in test of each named tamper source, one at a time. -/
  | selfTest (id : Nat)
  /-- MONITOR_TEST_END, R404 [14]: A tamper monitor's built-in test ends, recording pass or fail and alarming on failure or persisting condition. -/
  | monitorTestEnd (source : Fin 32) (pass : Bool) (persists : Bool)
  /-- KAT_RUN, R417 [14]: Runs known-answer tests on one unit of each named class for 20 µs. -/
  | katRun (id : Nat)
  /-- ENTROPY_STATUS, R417 [14]: Reports the state of the entropy sources and DRBG instances. -/
  | entropyStatus (id : Nat)
  /-- ECHO, R417 [14]: Writes its input to its output. -/
  | echo (id : Nat)
  /-- FAULT_INJECT, R509 [14]: Raises a named fault or tamper source as if detected, in TEST_UNLOCKED states. -/
  | faultInject (id : Nat)
  /-- MODULE_OPCODE, R435 [15]: A command on a custom module opcode runs the module's microcode for exactly SERVICE_NS. -/
  | moduleOpcode (id : Nat)
  /-- TAMPER_ALARM, R397 [14]: A tamper source's condition passing its filter executes its level's response and escalates any response in force. -/
  | tamperAlarm (source : Fin 32)
  /-- SUPPLY_WARNING, R403 [14]: A supply below its warning level enters CAUTION, stopping new engine jobs. -/
  | supplyWarning (supply : Fin 8)
  /-- CAUTION_END, R403 [14]: Every supply above warning plus hysteresis for 10 µs ends CAUTION and reruns discarded jobs. -/
  | cautionEnd
  /-- CAUTION_TIMEOUT, R403 [14]: A CAUTION lasting 10 ms raises fatal fault source 412. -/
  | cautionTimeout
  /-- FAULT_DETECT, R411 [14]: A unit detecting its own error raises its fault source with the behaviour of its class. -/
  | faultDetect (source : Fin 420) (addr : BitVec 64) (access : Nat) (cmd : Option Nat)
  /-- FAULT_ESCALATION, R411 [14]: A CONTAINED fault not acknowledged within FC_ESC_TIME becomes FATAL. -/
  | faultEscalation (source : Fin 420)
  /-- FC_PENDING_CLEAR, R411 [14]: Writing 1 to an FC_PENDING bit acknowledges a CONTAINED fault, releasing ERR_N and unit recovery actions. -/
  | fcPendingClear (k : Fin 14) (v : BitVec 32) (retestPass : Bool)
  /-- FC_FIRST_CLR, R412 [14]: Writing 1 to FC_FIRST_CLR clears the first-fault capture. -/
  | fcFirstClr (v : BitVec 32)
  /-- CLASS_EMPTY_TIMEOUT, R416 [14]: Commands waiting 1 ms at scheduling for a class left with no unit complete with FAULT_DETECTED. -/
  | classEmptyTimeout (id : Nat)
  /-- POWER_DOMAIN_IDLE, R488 [18]: An engine power domain whose class has had no ready command for 10 ms is switched off, keeping one per class on. -/
  | powerDomainIdle (d : Fin 37)
  /-- ZENARI_PORT_IDLE, R488 [18]: A port of an unbound device seeing no training for 100 ms after start-up has its domain switched off. -/
  | zenariPortIdle (port : Fin 2)
  /-- HBM_ZEROISE_DONE, R478 [17]: The zeroisation engines finish a region, allowing it to be allocated again. -/
  | hbmZeroiseDone (sl : Option (Fin 256))
  /-- DMA_GO, R469 [17]: Writing DMA_CTRL.GO on an IDLE manager channel starts its descriptor list at DMA_HEAD. -/
  | dmaGo (c : Fin 64) (first : DmaRead)
  /-- DMA_RESET, R469 [17]: Writing DMA_CTRL.RESET stops a running channel at a burst boundary or clears a halted one, returning it to IDLE. -/
  | dmaReset (c : Fin 64)
  /-- DMA_DESC_COMPLETE, R464 [17]: A DMA descriptor's copy, fill or compare finishes and the channel moves to the next descriptor or sets DONE. -/
  | dmaDescComplete (c : Fin 64) (wr : WriteResult) (at_ : Nat) (next : Option DmaRead)
  /-- DMA_READ_COMPLETION, R468 [17]: A DMA read completion arrives, staging data or halting the channel with a bus or late error. -/
  | dmaReadCompletion (t : DmaTarget) (r : DmaRead)
  /-- SCR_OWN_HANDOVER, R472 [17]: A write to SCR_OWN hands a manager bank to a new owner at the end of the burst in progress, wiping as required. -/
  | scrOwnHandover (b : Fin 64) (v : BitVec 32)
  /-- SCR_WIPE_DONE, R472 [17]: A scratch bank wipe ends after 0.6 µs and the new owner may reach the bank. -/
  | scrWipeDone (b : Fin 64)
  /-- MICROWORD, R422 [15]: A sequencer executes one sequential or branching microword, with patch-match redirection of the next address. -/
  | microword (sq : Fin 32) (cx : Fin 64) (w : BitVec 160)
  /-- MICRO_CALL, R422 [15]: A microword with FORM call pushes the return address and jumps to NEXT. -/
  | microCall (sq : Fin 32) (cx : Fin 64) (w : BitVec 160)
  /-- MICRO_RETURN, R422 [15]: A microword with FORM return pops the micro-stack. -/
  | microReturn (sq : Fin 32) (cx : Fin 64) (w : BitVec 160)
  /-- MICRO_DISPATCH, R422 [15]: A microword with FORM opcode dispatch jumps through the dispatch table. -/
  | microDispatch (sq : Fin 32) (cx : Fin 64) (w : BitVec 160)
  /-- MICRO_END_RELEASE, R436 [15]: A microword with FORM end of job, release outputs ends the job and releases its holding areas. -/
  | microEndRelease (sq : Fin 32) (cx : Fin 64) (w : BitVec 160)
  /-- MICRO_END_WITHHOLD, R436 [15]: A microword with FORM end of job, withhold outputs ends the job with INVARIANT_FAIL. -/
  | microEndWithhold (sq : Fin 32) (cx : Fin 64) (w : BitVec 160)
  /-- PRIMITIVE_DONE, R423 [15]: An issued engine or DMA primitive finishes and sets the last-primitive-done condition. -/
  | primitiveDone (sq : Fin 32) (cx : Fin 64)
  /-- MODULE_OVERRUN, R438 [15]: A module job not at an END form at SERVICE_NS is stopped with a CONTAINED sequencer fault. -/
  | moduleOverrun (id : Nat)
  /-- NTT_FWD, R210 [06]: Damask primitive computing a forward NTT of a slot. -/
  | nttFwd (id : Nat) (slot : Fin 64) (m : Modulus) (n : Nat)
  /-- NTT_INV, R210 [06]: Damask primitive computing an inverse NTT with scaling. -/
  | nttInv (id : Nat) (slot : Fin 64) (m : Modulus) (n : Nat)
  /-- PMUL, R210 [06]: Damask primitive multiplying two slots pointwise. -/
  | pmul (id : Nat) (a : Fin 64) (b : Fin 64) (d : Fin 64) (m : Modulus) (n : Nat)
  /-- PADD_PSUB, R210 [06]: Damask primitive adding or subtracting two slots. -/
  | paddPsub (id : Nat) (sub : Bool) (a : Fin 64) (b : Fin 64) (d : Fin 64) (m : Modulus) (n : Nat)
  /-- SAMPLE_UNIFORM, R210 [06]: Damask primitive rejection-sampling a slot from a public seed. -/
  | sampleUniform (id : Nat) (seed : Bytes) (d : Fin 64) (m : Modulus)
  /-- SAMPLE_CBD, R210 [06]: Damask primitive sampling a centred binomial polynomial. -/
  | sampleCbd (id : Nat) (eta : Nat) (src : Fin 64) (d : Fin 64) (m : Modulus)
  /-- KECCAK_ABSORB, R210 [06]: Damask primitive absorbing slot bytes into a Keccak unit. -/
  | keccakAbsorb (id : Nat) (unit : Fin 2) (rate : Nat) (src : Fin 64) (count : Nat)
  /-- KECCAK_SQUEEZE, R210 [06]: Damask primitive squeezing Keccak output into a slot. -/
  | keccakSqueeze (id : Nat) (unit : Fin 2) (d : Fin 64) (count : Nat)
  /-- KEY_SHARES, R211 [06]: Damask primitive writing a resolved key as masked shares into slots. -/
  | keyShares (id : Nat) (key : Fin 3) (d : Fin 64)
  /-- DAMASK_ZERO, R210 [06]: Damask primitive zeroing a slot range. -/
  | damaskZero (id : Nat) (first : Fin 64) (count : Nat)
  /-- SET_MODULUS, R283 [09]: Serge primitive loading a modulus and precomputing its constants. -/
  | setModulus (id : Nat) (off : Nat) (w : Nat)
  /-- MONT_MUL, R283 [09]: Serge primitive Montgomery multiplication. -/
  | montMul (id : Nat) (a : Nat) (b : Nat) (d : Nat)
  /-- MONT_SQR, R283 [09]: Serge primitive Montgomery squaring. -/
  | montSqr (id : Nat) (a : Nat) (d : Nat)
  /-- MAC, R283 [09]: Serge primitive multiply-accumulate without reduction. -/
  | mac (id : Nat) (a : Nat) (b : Nat) (w : Nat)
  /-- ADD_MOD_SUB_MOD, R283 [09]: Serge primitive modular addition or subtraction. -/
  | addModSubMod (id : Nat) (sub : Bool) (a : Nat) (b : Nat) (d : Nat)
  /-- CSWAP, R283 [09]: Serge primitive conditional swap of two operands. -/
  | cswap (id : Nat) (a : Nat) (b : Nat) (w : Nat)
  /-- KEY_OPERAND, R284 [09]: Serge primitive delivering a key component unblinded into an operand. -/
  | keyOperand (id : Nat) (key : Fin 3) (comp : Nat) (d : Nat)
  /-- SERGE_RANDOM, R283 [09]: Serge primitive filling an operand from the blinding generator. -/
  | sergeRandom (id : Nat) (d : Nat) (w : Nat)
  /-- SERGE_ZERO, R283 [09]: Serge primitive zeroing an operand. -/
  | sergeZero (id : Nat) (d : Nat) (w : Nat)
  /-- DMA_READ_DESCRIPTOR, R423 [15]: DMA primitive 0x00 reading a command descriptor into a slot or operand. -/
  | dmaReadDescriptor (id : Nat) (desc : Nat) (dst : Nat) (len : Nat)
  /-- DMA_WRITE_HOLDING, R437 [15]: DMA primitive 0x01 writing a slot or operand into a descriptor's holding area. -/
  | dmaWriteHolding (id : Nat) (desc : Nat) (src : Nat) (len : Nat)
  /-- EXCEPTION_ENTRY, R450 [16]: Linen takes an interrupt, exception or NMI, pushing REPC, SR and PC and jumping through the vector table. -/
  | exceptionEntry (v : Fin 65)
  /-- TIMER_EXPIRY, R442 [16]: A Linen TIMER0 or TIMER1 count expires and raises its vector. -/
  | timerExpiry (t : Fin 2)
  /-- WDOG_WRITE, R442 [16]: A write to WDOG restarts the 16 ms watchdog. -/
  | wdogWrite (v : BitVec 16)
  /-- WATCHDOG_HALF, R449 [16]: The watchdog reaching half time raises vector 22. -/
  | watchdogHalf
  /-- WATCHDOG_EXPIRY, R442 [16]: A missed watchdog restart raises fatal fault source 413. -/
  | watchdogExpiry
  /-- HOOK_TIMEOUT, R454 [16]: A policy hook overrunning 20 µs refuses its command and increments the hook fault count. -/
  | hookTimeout (id : Nat)
  /-- SDU_START, R455 [16]: Writing SDU_CTRL.START opens a digest message and claims the unit for the writing task. -/
  | sduStart (v : BitVec 16)
  /-- DIN, R456 [16]: A write to DIN feeds a message word, stalling or refusing when full as the mode gives. -/
  | din (v : BitVec 16)
  /-- LAST, R455 [16]: A write to LAST finishes the message or marks the next DIN word as final. -/
  | last (v : BitVec 16)
  /-- DOUT, R456 [16]: A read of DOUT returns the next result word, stalling or setting ERR_EARLY when not valid. -/
  | dout (rd : Fin 16)
  /-- SDU_OWNER_WRITE, R457 [16]: A write to OWNER frees the digest unit or lends it to a task. -/
  | sduOwnerWrite (v : BitVec 16)
  /-- CTX_SAVE, R458 [16]: Reading CTX 192 times saves the sealed digest context. -/
  | ctxSave (rd : Fin 16)
  /-- CTX_RESTORE, R458 [16]: Writing CTX 192 times restores a digest context, zeroing the unit on tag failure. -/
  | ctxRestore (v : BitVec 16)
  /-- SDU_BLOCK_DONE, R455 [16]: The digest unit finishes compressing a block, freeing an input buffer or making the result valid. -/
  | sduBlockDone
  /-- NOP, R444 [16]: SV16 instruction that does nothing. -/
  | svNop
  /-- WAIT, R444 [16]: SV16 instruction that stops until an enabled interrupt or NMI. -/
  | svWait
  /-- RET, R444 [16]: SV16 return from a call. -/
  | svRet
  /-- RETI, R450 [16]: SV16 return from interrupt restoring PC, SR and REPC. -/
  | svReti
  /-- EI, R444 [16]: SV16 instruction setting IEH and IEL. -/
  | svEi
  /-- DI, R444 [16]: SV16 instruction clearing IEH and IEL. -/
  | svDi
  /-- REPI, R448 [16]: SV16 interruptible repeat prefix counted by a register. -/
  | svRepi (rs : Fin 16)
  /-- REPN, R448 [16]: SV16 uninterruptible repeat prefix of 1 to 64 iterations. -/
  | svRepn (k : Fin 64)
  /-- SYS, R449 [16]: SV16 system call raising vector 48 + t. -/
  | svSys (t : Fin 16)
  /-- CLRDZ, R446 [16]: SV16 instruction clearing the sticky DZ flag. -/
  | svClrdz
  /-- MFSR, R444 [16]: SV16 move from the status register. -/
  | svMfsr (rd : Fin 16)
  /-- MTSR, R444 [16]: SV16 move to the status register, limited in policy mode. -/
  | svMtsr (rs : Fin 16)
  /-- MOV, R444 [16]: SV16 register move. -/
  | svMov (rd : Fin 16) (rs : Fin 16)
  /-- LDI, R444 [16]: SV16 load immediate. -/
  | svLdi (rd : Fin 16) (imm : BitVec 16)
  /-- LD, R444 [16]: SV16 load from data space. -/
  | svLd (rd : Fin 16) (ea : SvEa)
  /-- ST, R444 [16]: SV16 store to data space. -/
  | svSt (ea : SvEa) (rs : Fin 16)
  /-- PUSH, R443 [16]: SV16 push onto the stack. -/
  | svPush (rs : Fin 16)
  /-- POP, R443 [16]: SV16 pop from the stack. -/
  | svPop (rd : Fin 16)
  /-- IN, R444 [16]: SV16 read from an I/O port. -/
  | svIn (rd : Fin 16) (port : SvPort)
  /-- OUT, R444 [16]: SV16 write to an I/O port. -/
  | svOut (port : SvPort) (rs : Fin 16)
  /-- LDP, R444 [16]: SV16 load from instruction space. -/
  | svLdp (rd : Fin 16) (xs : Fin 16)
  /-- STP, R444 [16]: SV16 store to instruction space RAM, kernel only. -/
  | svStp (xd : Fin 16) (rs : Fin 16)
  /-- OUTM, R444 [16]: SV16 write a memory word to a port and step the source. -/
  | svOutm (xd : Fin 16) (xs : Fin 16)
  /-- INM, R444 [16]: SV16 read a port into memory and step the destination. -/
  | svInm (xd : Fin 16) (xs : Fin 16)
  /-- ADD, R445 [16]: SV16 addition. -/
  | svAdd (rd : Fin 16) (b : SvSrc)
  /-- ADC, R445 [16]: SV16 addition with carry. -/
  | svAdc (rd : Fin 16) (b : SvSrc)
  /-- SUB, R445 [16]: SV16 subtraction. -/
  | svSub (rd : Fin 16) (b : SvSrc)
  /-- SBC, R445 [16]: SV16 subtraction with borrow. -/
  | svSbc (rd : Fin 16) (b : SvSrc)
  /-- CMP, R445 [16]: SV16 compare setting flags only. -/
  | svCmp (rd : Fin 16) (b : SvSrc)
  /-- AND, R445 [16]: SV16 bitwise AND. -/
  | svAnd (rd : Fin 16) (b : SvSrc)
  /-- OR, R445 [16]: SV16 bitwise OR. -/
  | svOr (rd : Fin 16) (b : SvSrc)
  /-- XOR, R445 [16]: SV16 bitwise XOR. -/
  | svXor (rd : Fin 16) (b : SvSrc)
  /-- TST, R445 [16]: SV16 bit test setting flags only. -/
  | svTst (rd : Fin 16) (b : SvSrc)
  /-- NEG, R445 [16]: SV16 two's complement negation. -/
  | svNeg (rd : Fin 16)
  /-- NOT, R445 [16]: SV16 ones' complement. -/
  | svNot (rd : Fin 16)
  /-- INC, R445 [16]: SV16 increment. -/
  | svInc (rd : Fin 16)
  /-- DEC, R445 [16]: SV16 decrement. -/
  | svDec (rd : Fin 16)
  /-- SWAPB, R445 [16]: SV16 byte exchange. -/
  | svSwapb (rd : Fin 16)
  /-- SXB, R445 [16]: SV16 sign extension of the low byte. -/
  | svSxb (rd : Fin 16)
  /-- LSL, R447 [16]: SV16 logical shift left. -/
  | svLsl (rd : Fin 16) (c : SvSrc)
  /-- LSR, R447 [16]: SV16 logical shift right. -/
  | svLsr (rd : Fin 16) (c : SvSrc)
  /-- ASR, R447 [16]: SV16 arithmetic shift right. -/
  | svAsr (rd : Fin 16) (c : SvSrc)
  /-- ASL, R447 [16]: SV16 arithmetic shift left with overflow detection. -/
  | svAsl (rd : Fin 16) (c : SvSrc)
  /-- ROL, R447 [16]: SV16 rotate left. -/
  | svRol (rd : Fin 16) (c : SvSrc)
  /-- ROR, R447 [16]: SV16 rotate right. -/
  | svRor (rd : Fin 16) (c : SvSrc)
  /-- SMUL, R445 [16]: SV16 signed multiply into an accumulator. -/
  | svSmul (ac : Bool) (ra : Fin 16) (rb : Fin 16)
  /-- UMUL, R445 [16]: SV16 unsigned multiply into an accumulator. -/
  | svUmul (ac : Bool) (ra : Fin 16) (rb : Fin 16)
  /-- SMAC, R445 [16]: SV16 signed multiply-accumulate. -/
  | svSmac (ac : Bool) (ra : Fin 16) (rb : Fin 16)
  /-- UMAC, R445 [16]: SV16 unsigned multiply-accumulate. -/
  | svUmac (ac : Bool) (ra : Fin 16) (rb : Fin 16)
  /-- SDIV, R446 [16]: SV16 signed division with remainder. -/
  | svSdiv (vd : Fin 16) (rs : Fin 16)
  /-- UDIV, R446 [16]: SV16 unsigned division with remainder. -/
  | svUdiv (vd : Fin 16) (rs : Fin 16)
  /-- MOVL, R444 [16]: SV16 move accumulator low half to a register. -/
  | svMovl (rd : Fin 16) (ac : Bool)
  /-- MOVH, R444 [16]: SV16 move accumulator high half to a register. -/
  | svMovh (rd : Fin 16) (ac : Bool)
  /-- MVTL, R444 [16]: SV16 move a register to an accumulator low half. -/
  | svMvtl (ac : Bool) (rs : Fin 16)
  /-- MVTH, R444 [16]: SV16 move a register to an accumulator high half. -/
  | svMvth (ac : Bool) (rs : Fin 16)
  /-- CLRA, R444 [16]: SV16 clear an accumulator. -/
  | svClra (ac : Bool)
  /-- JMP, R444 [16]: SV16 jump. -/
  | svJmp (t : SvTarget)
  /-- CALL, R444 [16]: SV16 call pushing the return address. -/
  | svCall (t : SvTarget)
  /-- BCC, R444 [16]: SV16 conditional branch by signed displacement. -/
  | svBcc (cc : Fin 16) (disp : BitVec 8)
  /-- TAMPER_CONDITION_CLEARED, R405 [14]: A tamper source's alarm condition ceases, clearing its TAMPER_ACTIVE bit so that RESUME and CLEAR_LATCH may pass. -/
  | tamperConditionCleared (source : Fin 32)
  /-- SUPPLY_ABOVE_WARNING, R403 [14]: A supply rising above its warning level plus hysteresis clears its BELOW_WARN bit and starts the continuous 10 µs interval that ends CAUTION. -/
  | supplyAboveWarning (supply : Fin 8)
  /-- THERM_TRIP_RELEASE, R396 [14]: Tj falling below 110 °C releases THERM_TRIP_N. -/
  | thermTripRelease (tj : BitVec 16)
  /-- MAIN_POWER_RETURN, R486 [18]: VDD_SEC rising above its reset level switches the battery domain back from VBAT, with any battery erasure finishing before the security die leaves reset. -/
  | mainPowerReturn
  /-- BATTERY_DOMAIN_UNPOWERED, R407 [14]: The backup cell falling below about 2.0 V, or the battery domain being wholly unpowered, loses the vault without an alarm and restarts the RTC from 0 on next power. -/
  | batteryDomainUnpowered
  /-- RESYNC_REPLAY, R355 [12]: Replayed mirror records, board entries or a whole mirror set received in RESYNC are applied, and the end of replay moves the device to IN_SYNC and into SERVING. -/
  | resyncReplay (port : Fin 2) (h : FlitHdr) (m : ReplayMsg)
  /-- OTP_WRITE_COMPLETE, R449 [16]: An OTP write finishes and raises Linen vector 19. -/
  | otpWriteComplete
  /-- RTC_ALARM, R449 [16]: The real-time clock reaches its alarm and raises Linen vector 23. -/
  | rtcAlarm
  /-- POWER_DOMAIN_WAKE, R488 [18]: A gated engine power domain finishes switching on 20 µs after it was woken, and its units' credits become available. -/
  | powerDomainWake (d : Fin 37)
  /-- EVENT_LOG_READ, R413 [14]: A read of an event log record marks its ESN as read, so that lapping it no longer advances the overwritten count. -/
  | eventLogRead (idx : Fin 512)
deriving DecidableEq, Repr

end Sys2Proof
end

