-- ==== Sys2Proof/Config.lean ====
section
/-!
DEFINITION. What the manual leaves to chance or to a standard that it names without giving its text: free
values and uninterpreted functions. Nothing in Lean can evaluate any of them.
-/
namespace Sys2Proof

/-- The functions of the standards that the manual names (log 11). Parameters and argument order are those of
the place that uses each. -/
inductive Std where
  | sha | shake | cshake | hmac | kmac | cmac | gmac | iso9797 | aes | tdes | blockMode | aead | keyWrap
  | siv | kdf108
  | mlkemKeygen | mlkemEncaps | mlkemDecaps | mldsaKeygen | mldsaSign | mldsaVerify
  | fndsaKeygen | fndsaSign | fndsaVerify | slhKeygen | slhSign | slhVerify
  | lmsKeygen | lmsSign | lmsVerify | xmssKeygen | xmssSign | xmssVerify
  | hqcKeygen | hqcEncaps | hqcDecaps | mceKeygen | mceEncaps | mceDecaps
  | rsaKeygen | rsaSign | rsaVerify | rsaEncrypt | rsaDecrypt | ecKeygen | ecdsaSign | ecdsaVerify
  | ecdh | eddsaSign | eddsaVerify | xdh | pubOf | pubValid | drbg
  | ipek | dukptAes | dukptTdes | emvSession | keyblockSeal | keyblockOpen
  | mceSeed | laneState | edHash | edPoint | edEquation | ecPoint | ecMul | rsaPrime | prime | lmsOts
  | vaultKey | linkKey | signature | spdm | microAlu | ntt | pmul | sample | keccakF | seal | kat
deriving DecidableEq, Repr

/-- Free bytes: what a random generator, or a value the manual leaves open, gives at draw `n` (log 3). -/
opaque Config.freeByte : Nat → Byte

/-- Free numbers, in the same way. -/
opaque Config.freeNat : Nat → Nat

/-- The generation drawn for ledger index `i` at start-up number `boot` (R141 [05]). -/
opaque Config.bootGen (boot i : Nat) : Nat

/-- A function of a standard: parameters, then arguments (log 11). -/
opaque Config.std (f : Std) (params : List Nat) (args : List Bytes) : Bytes

/-- A check of a standard: a signature, a tag, the validity of a public key (log 11). -/
opaque Config.stdOk (f : Std) (params : List Nat) (args : List Bytes) : Bool

/-- Seeds, digests and keys that OTP and mask ROM hold and the manual gives no value of, by name (log 11). -/
opaque Config.rom (name : Nat) : Bytes

/-- Numbers of the standards of the curves, by curve code: 0 the field prime, 1 the order of the group (log 11). -/
opaque Config.curveNum (code which : Nat) : Nat

/-- The vendor identifier of both functions, Tholdo's (R53 [02]). -/
opaque Config.vendorId : Nat

end Sys2Proof
end

