-- ==== Sys2Proof/Machine/StCmd.lean ====
section
/-!
DEFINITION. Types of the state: ledger entries, packets, commands in flight, streams, slices, queues and rings
([01] to [05]).
-/
namespace Sys2Proof.Machine

/-- The opcodes of the catalogue (R136 [04]); `moduleOp` stands for an opcode granted to a custom function
module (R432 [15]). -/
inductive Op where
  | sliceCreate | sliceConfigure | sliceDestroy | pasidBind | pasidUnbind | slicePause | sliceResume
  | engineService | tamperPolicySet | patchLoad | moduleLoad | policyLoad
  | keyGenerate | keyImportBlob | keyExportBlob | keyDestroy | keyReplace | keyRevoke | keyDerive | keyAttrGet
  | keyRestrict | keyWrap | keyUnwrap | keyPublicGet
  | mlkemKeygen | mlkemEncaps | mlkemDecaps | mldsaKeygen | mldsaSign | mldsaVerify
  | fndsaKeygen | fndsaSign | fndsaVerify | hybridKemEncaps | hybridKemDecaps | compositeSign | compositeVerify
  | hash | xof | hmacGen | hmacVerify | kmacGen | kmacVerify | slhdsaKeygen | slhdsaSign | slhdsaVerify
  | lmsKeygen | lmsSign | lmsVerify | lmsReserve | xmssKeygen | xmssSign | xmssVerify | xmssReserve
  | hqcKeygen | hqcEncaps | hqcDecaps | mceKeygen | mceEncaps | mceDecaps
  | rsaKeygen | rsaSign | rsaVerify | rsaEncrypt | rsaDecrypt
  | ecKeygen | ecdsaSign | ecdsaVerify | ecdh | eddsaSign | eddsaVerify | xdh
  | encrypt | decrypt | aeadEncrypt | aeadDecrypt | macGen | macVerify | random
  | pinTranslate | pvvGenerate | pvvVerify | cvcGenerate | cvcVerify
  | dukptAesTranslate | dukptTdesTranslate | dukptMacVerify | ipekDerive
  | arqcVerify | arpcGenerate | retailMacGen | retailMacVerify | keyblockImport | keyblockExport
  | timeRead | schedAdd | schedCancel | schedList
  | boardBind | ringStatus | mirrorPut | mirrorRemove | spillConfig
  | lcTransition | identityAttest | debugChallenge | approvalNonce | custodianAdd | custodianRemove
  | quorumPolicySet | componentImport | masterKeyChange | masterKeyExport | masterKeyImport
  | auditConfig | auditSeal | auditReset | sliceDecommission
  | selfTest | katRun | entropyStatus | echo | faultInject
  | moduleOp
deriving DecidableEq, Repr

/-- The status codes of R139 [04]. -/
inductive Status where
  | ok | okRetried | okClamped | segmentAccepted | verifyFail
  | opcodeUnknown | packetMalformed | paramUnsupported | notBeforeRange
  | lengthMismatch | overlapInvalid | rightsDenied | pasidUnbound | exchangeNotOwned | streamStateInvalid
  | keyHandleStale | keyUsageDenied | keyUseExhausted | keyExpired | keySigExhausted | keyCheckFail
  | keyParentRevoked | keyNotYetActive | keyBlobInvalid
  | inputInvalid | authFail
  | quorumMissing | approvalInvalid | lifecycleRefused | policyRefused | modeRefused | sliceStateInvalid
  | fieldRejected | tokenInvalid
  | resourceQuota | streamLimit | schedTableFull | pasidInUse | engineUnavailable
  | aborted | faultDetected | invariantFail | keysErased | deviceStarting | patchRequired | entropyFail
  | dmaBusError | dmaLateError
  | mirrorDiverged | ringNotBound | timeUnlocked
deriving DecidableEq, Repr

/-- The states of a ledger entry (R143 [05]). -/
inductive EntState where
  | free | pending | active | draining
deriving DecidableEq, Repr

/-- A ledger entry (R145 [05]); REFS and CHILDREN are counted from the commands, streams and entries. -/
structure Entry where
  st : EntState
  /-- Generation, 1 to 32,767 (R140). -/
  gen : Nat
  owner : Nat
  typ : Nat
  subtype : Nat
  usage : Nat
  flags : BitVec 16
  depth : Nat
  useLimit : Nat
  useCount : Nat
  activation : Nat
  expiry : Nat
  parent : Nat
  epoch : Nat
  kcv : Bytes
  material : Bytes
  /-- The public-key encoding, of an asymmetric key. -/
  pub : Bytes
  /-- MATERIAL_LEN. -/
  matLen : Nat
  /-- Units of 4 KiB held in the large-key store (R147). -/
  units : Nat
  /-- The shadow of this index (R162). -/
  shadow : Option Nat
  /-- A cascade has reached the entry (R165). -/
  cascaded : Bool
  /-- NEXT, CEILING and PENDING of a stateful key (R232 [07]). -/
  next : Nat
  ceiling : Nat
  pend : Option Nat
  /-- A valid tree cache is held, and up to which lowest-layer tree (R229, R234 [07]). -/
  cache : Bool
  treeTo : Nat
  /-- The public key in the large-key store has failed its tag (R257 [08]). -/
  tagBad : Bool
deriving DecidableEq, Repr

/-- A buffer descriptor (R123 [04]). -/
structure Desc where
  addr : Nat
  len : Nat
  attr : BitVec 32
deriving DecidableEq, Repr

/-- An entry as the fetch unit or the push window gives it (R119 to R122 [04]). -/
structure Packet where
  flags : BitVec 8
  opcode : Nat
  tag : Nat
  notBefore : Nat
  keys : List Nat
  param : BitVec 8
  ndesc : Nat
  inlineLen : Nat
  /-- The body, up to the entry's capacity. -/
  body : Bytes
  /-- Every reserved byte of the continuation granules is 0. -/
  contOk : Bool
  /-- A push-slot entry with a GCTL fault or more than 4 granules (R99 [03]). -/
  pushFault : Bool
deriving DecidableEq, Repr

/-- A handle as key resolution resolved it: the command keeps the entry it found (R29 [01]). -/
structure KeyRes where
  /-- Which of KEY0, KEY1, KEY2 named it. -/
  field : Nat
  /-- The entry that holds the material: the index, or the shadow it moved to (R162 [05]). -/
  idx : Nat
  /-- The key's own handle, of its index at the generation resolved. -/
  handle : Nat
  ent : Entry
deriving DecidableEq, Repr

/-- Where a command stands (R20 [01]). -/
inductive Stage where
  /-- Waiting for its not-before time. -/
  | held
  /-- Waiting for the policy module's answer (R453 [16]). -/
  | hooked
  /-- At the scheduling stage, or, of a command without an engine class, waiting for Linen. -/
  | ready
  | running
  /-- Sent to a neighbour (R362 [12]). -/
  | spilled
  /-- Executed; waiting for something its own rule names before it completes. -/
  | waiting
  /-- Outputs to be written. -/
  | results
  /-- The record is in the reorder pool. -/
  | done
deriving DecidableEq, Repr

/-- Credits held on one unit of a class. -/
structure UnitHold where
  cls : UnitClass
  unit : Nat
  n : Nat
  /-- `clk` at which the credits return, the command's end at the latest (R17, R204 [06]). -/
  till : Nat
deriving DecidableEq, Repr

/-- What a command's execution produced. -/
structure Outcome where
  status : Status
  /-- Output descriptor and its bytes. -/
  outs : List (Nat × Bytes)
  /-- RESULT, at most 8 bytes (R135). -/
  result : Bytes
  /-- DETAIL of the command's audit record, where it is not RESULT (R390 [13]). -/
  detail : Option Bytes := none
  /-- A check at the end of the job failed: class of the unit whose CONTAINED fault is raised then (R197, R227, R281). -/
  fault : Option UnitClass := none
deriving DecidableEq, Repr

/-- What a pre-emption slot holds of a job (R220 [07], R300 [10]): message bytes done, chaining value, counter, and hash or
MAC accumulator; neither the key nor the GHASH subkey. -/
structure CtxSlot where
  done : Nat
  chaining : Bytes
  counter : Bytes
  acc : Bytes
deriving DecidableEq, Repr

/-- A command run for a neighbour (R362 [12]): the port it came on, its origin, and what was sent. -/
structure Foreign where
  port : Nat
  src : Nat
  req : SpillReq
deriving DecidableEq, Repr

/-- A command that holds a reorder slot, from admission to release. -/
structure Cmd where
  /-- Admission number. -/
  id : Nat
  slice : Nat
  queue : Nat
  ring : Nat
  /-- Push slot, of a push-lane command. -/
  push : Option Nat
  /-- SQ_POS. -/
  pos : Nat
  pkt : Packet
  op : Op
  stage : Stage
  /-- Rejected at admission (R24 [01]): it only keeps its place among the completions. -/
  refused : Bool
  /-- The command waited for its not-before time. -/
  wasHeld : Bool
  /-- `clk` at which it came to the scheduling stage. -/
  readyAt : Nat
  keys : List KeyRes
  /-- Engine classes the command belongs to (R137), settled when it is resolved. -/
  classes : List EngClass
  /-- Inputs read, by descriptor. -/
  inputs : TMap Bytes
  /-- A DMA error met while reading inputs. -/
  dmaErr : Option Status
  units : List UnitHold
  /-- Charged deficits: class number and ns (R30). -/
  charge : List (Nat × Nat)
  startAt : Nat
  endAt : Nat
  /-- The job overlapped CAUTION (R403 [14]). -/
  overlap : Bool
  retried : Bool
  /-- Discarded or pre-empted: first among the ready commands (R403, R220). -/
  front : Bool
  /-- Saved in a pre-emption slot (R220 [07], R300 [10]). -/
  saved : Option CtxSlot
  /-- Masking order, and the FN-DSA and HQC revisions, fixed at dispatch (R182, R181 [06], R243 [08]). -/
  order : Nat
  revs : Nat × Nat
  /-- Key fields whose expanded matrix was in the cache when the command was resolved (R208 [06]). -/
  hits : List Nat
  /-- PENDING entry its execution made. -/
  entry : Option Nat
  /-- The stateful entry as it was before the command's reservation (R403 [14]). -/
  undo : Option (Nat × Entry)
  /-- One-time index taken at resolution (R232 [07]). -/
  otIndex : Option Nat
  /-- Release-buffer units held (R288 [10]). -/
  relUnits : Nat
  /-- Large-key store units held for staging (R251 [08]). -/
  stageUnits : Nat
  /-- Audit records reserved (R389 [13]). -/
  audit : Nat
  /-- PAN token of a payment command (R336 [11]), which its audit record carries. -/
  token : Option Bytes
  /-- Run for a neighbour: such a command belongs to the ring account (slice number 256) and holds no slot. -/
  foreign : Option Foreign
  /-- Command channel of the DMA engine that carries its transfers (R460, R502 [17]). -/
  chan : Option Nat
  /-- Vendor and extension bank the command was tagged with (R421 [15]). -/
  banks : Nat × Nat
  /-- A spilled command that a neighbour ran. -/
  ranAway : Bool
  /-- Already spilled or returned once. -/
  noSpill : Bool
  /-- Draws of the job (attempt counts, candidates). -/
  draws : Nat
  outcome : Option Outcome
  outLen : Nat
  time : Nat
deriving DecidableEq, Repr

/-- An open stream (R131 to R133 [04]). -/
structure Stream where
  sid : Nat
  queue : Nat
  op : Op
  param : BitVec 8
  keyFields : List Nat
  keys : List KeyRes
  total : Nat
  /-- Output length that the first segment declared, where admission could read it (R219 [07]). -/
  outLen : Option Nat
  /-- Bytes accepted at admission. -/
  admitted : Nat
  /-- Message bytes processed, as the context slot carries them. -/
  data : Bytes
  /-- Small inputs of the first segment that the context keeps (IV, AAD, customisation). -/
  heads : List Bytes
  /-- First segment has opened the stream (it has executed). -/
  lastAt : Nat
deriving DecidableEq, Repr

/-- The states of a slice (R59 [02]). -/
inductive SliceSt where
  | free | active | paused | destroying
deriving DecidableEq, Repr

/-- A slice configuration block (R69 [02]). -/
structure SliceCfg where
  quota : Nat
  cap : Nat
  shLattice : Nat
  shHash : Nat
  shCode : Nat
  shClassical : Nat
  shCipher : Nat
  queues : Nat
  maskOrder : Nat
  auditLevel : Nat
deriving DecidableEq, Repr

/-- A PASID slot (R73, R76 [02]). -/
structure PasidSlot where
  valid : Bool
  pasid : BitVec 20
  closing : Bool
deriving DecidableEq, Repr

/-- One interrupt message (R84 [02]). -/
structure IntMsg where
  addr : BitVec 64
  data : BitVec 32
deriving DecidableEq, Repr

/-- A push slot (R42 [01]): bytes written and which bytes of granule 0 have been. -/
structure PushSlot where
  bytes : TMap Byte
  written : BitVec 64
deriving DecidableEq, Repr

/-- An exchange page (R80 [02]). -/
structure XwPage where
  owner : Bool
  reclaim : Bool
deriving DecidableEq, Repr

/-- SQ_STATE.STATE (R110 [03]). -/
inductive SqSt where
  | disabled | running | qerr | draining
deriving DecidableEq, Repr

/-- CQ_STATE.STATE (R110 [03]). -/
inductive CqSt where
  | disabled | running | stalled
deriving DecidableEq, Repr

/-- A submission queue. Positions are P of R93. -/
structure Sq where
  base : Nat
  ciAddr : Nat
  depth : Nat
  pasidSlot : Nat
  cqSel : Nat
  window : Nat
  poll : Nat
  st : SqSt
  dbDrop : Bool
  cfgFault : Nat
  pos : Nat
  errReason : Nat
  errPos : Nat
  /-- Producer position last taken from a doorbell (R100). -/
  prod : Option Nat
  /-- A poll read is due (R101), and when the last one was. -/
  pollDue : Bool
  pollAt : Nat
  /-- First time a covered granule 0 was not new, and the time of the next re-read (R102). -/
  notNewAt : Option Nat
  rereadAt : Nat
  /-- Time at which the continuation granules are read again, and the granule 0 they belong to (R98). -/
  contAt : Option Nat
  held0 : Bytes
  /-- Consumer position to be published (R103), and when it last was. -/
  ciOwed : Bool
  ciAt : Option Nat
  /-- The next write of the consumer word will fail translation (R118). -/
  ciFails : Bool
  /-- Admissions counted in the current second (R22). -/
  rateSec : Nat
  rateCount : Nat
deriving DecidableEq, Repr

/-- A completion ring. -/
structure Cq where
  base : Nat
  headAddr : Nat
  depth : Nat
  pasidSlot : Nat
  intEn : Bool
  coalCount : Nat
  coalTime : Nat
  st : CqSt
  dbDrop : Bool
  cfgFault : Nat
  head : Nat
  /-- Head position last written to CQ_HEAD_ADDR (R105, R118). -/
  headOut : Nat
  rd : Nat
  /-- Records since the last vector 0 event and the time of the first of them (R107). -/
  since : Nat
  firstAt : Option Nat
  /-- Records written that no written head covers (R118): position and record. -/
  uncovered : List (Nat × Bytes)
deriving DecidableEq, Repr

/-- A slice: its page, its control block, its queues. -/
structure Slice where
  st : SliceSt
  cfg : SliceCfg
  /-- Configuration waiting for the next scheduling round (R71). -/
  nextCfg : Option SliceCfg
  pasids : List PasidSlot
  intMsg : List IntMsg
  intMask : BitVec 4
  intPend : BitVec 4
  /-- Message sent since the pending bit was last cleared (R85). -/
  intSent : BitVec 4
  /-- Bit n is 1 when push slot n is free. -/
  pushFree : BitVec 16
  push : TMap PushSlot
  t2m : TMap Byte
  m2t : TMap Byte
  t2mFull : Bool
  m2tFull : Bool
  xw : TMap XwPage
  admitted : Nat
  sqs : TMap Sq
  cqs : TMap Cq
  cqEvent : BitVec 16
  streams : List Stream
  /-- Deficits by class number (R30), and as sampled at the last round (R72). -/
  deficit : TMap Int
  deficitRd : TMap Int
  readyRd : BitVec 5
  /-- Decommission in progress (R387 [13]): the command's number, and whether the final seal is written. -/
  decom : Option (Nat × Bool)
  /-- SCHED_ROUND from which entries are taken again after a resume (R59 [02]). -/
  fetchFrom : Nat
deriving DecidableEq, Repr

/-- State of one engine unit (R415 [14]). -/
inductive UnitSt where
  | inService | draining | out | outFault | testing
deriving DecidableEq, Repr

/-- One engine unit: its state, its faults, from which round its credits count (R19), a command waiting for
its drain or test, and whether its domain is switched off or waking (R488 [18]). -/
structure EUnit where
  st : UnitSt
  faults : Nat
  joinAt : Nat
  /-- Command (ENGINE_SERVICE) waiting for this unit. -/
  waiter : List Nat
  /-- End of the running test. -/
  testEnd : Nat
  /-- An OUT asked for during a test or a drain that leads to a test. -/
  outAfter : Bool
  /-- The drain leads to a scheduled self-test (R345 [12]): the action entry. -/
  testFor : Option Nat
deriving DecidableEq, Repr

/-- The scheduler ([01]). -/
structure Sched where
  rounds : Nat
  lastRound : Nat
  /-- By class number, at the start of the present round: engine time in ns, and the sum of the shares of the
  accounts with ready work (R30). -/
  round : TMap (Nat × Nat)
  units : TMap EUnit
  /-- Slice last served, by class; queue last served, by class and slice. -/
  rrSlice : TMap Nat
  rrQueue : TMap Nat
  /-- What gathers credits for a wide job, and for which: a core (R260 [09]), or a Muslin group (R225 [07]), by
  256 × class number + core or group; and the command. -/
  gather : List (Nat × Nat)
  /-- Credits of jobs that ended before their time, until the wipe of their units has ended (R35, R179, R214, R241, R264,
  R286). -/
  wiping : List UnitHold
  /-- After HOLD, the round from which fetch and dispatch go on (R398). -/
  resumeFrom : Nat
  /-- Device-wide admissions in the current second (R22). -/
  rateSec : Nat
  rateCount : Nat
  /-- Fetch units: queue being served, entries and granules of the turn. -/
  turns : TMap (Nat × Nat × Nat)
  /-- When a class last had a ready command (R488 [18]), and since when it has had no unit in service (R416
  [14]), by class number. -/
  lastReady : TMap Nat
  emptySince : TMap Nat
deriving DecidableEq, Repr

/-- The key ledger ([05]). -/
structure Ledger where
  /-- Counts start-ups: the drawn generations of a boot are a free value of it (R141). -/
  boot : Nat
  bootId : Bytes
  entries : TMap Entry
  /-- Indices never used since start-up begin here (R142). -/
  fresh : Nat
  /-- Indices freed since start-up, longest free first. -/
  freed : List Nat
  /-- The ledger storage key is held (R146, R399). -/
  keyHeld : Bool
  /-- The vault MAC key of this boot (R171). -/
  vaultKey : Bytes
  /-- Matrix cache: ledger index and units, least recently used first (R175, R208). -/
  matrix : List (Nat × Nat)
deriving DecidableEq, Repr

end Sys2Proof.Machine
end

