-- ==== Sys2Proof/Machine/StBoard.lean ====
section
/-!
DEFINITION. Types of the state: the time base, the scheduled actions and the Zenari Ring ([12]); the DMA
engine, the scratch banks and on-package memory ([17]).
-/
namespace Sys2Proof.Machine

/-- TIME_STATUS.LOCK (R338 to R340 [12]). -/
inductive Lock where
  | unlocked | follower | master
deriving DecidableEq, Repr

/-- Membership of a device on its board (R354 [12]). -/
inductive Member where
  | unbound | linkDown | timeLocking | resync | inSync | isolated
deriving DecidableEq, Repr

/-- PORT_STATUS.LINK ([12]). -/
inductive LinkSt where
  | down | training | upUnbound | up
deriving DecidableEq, Repr

/-- A port of the Zenari Ring (R351, R352 [12]). -/
structure Port where
  link : LinkSt
  lanes : Nat
  flitErr : Nat
  /-- LINK_SEQ last received and last sent since training. -/
  rxSeq : Nat
  txSeq : Nat
  /-- Both training nonces, and the keys derived from them: of what is sent and of what is received. -/
  nonces : Bytes
  txKey : Bytes
  rxKey : Bytes
deriving DecidableEq, Repr

/-- One entry of the scheduled action table (R344 to R350 [12]). `live` waits to fire; an entry neither live
nor spent is free. -/
structure ActionEntry where
  live : Bool
  spent : Bool
  serial : Nat
  action : Nat
  scope : Nat
  slice : Nat
  testMask : Nat
  tick : Nat
  period : Nat
  key0 : Nat
  cfg : Bytes
  /-- Slice whose SCHED_ADD placed it. -/
  adder : Nat
  boardNo : Option Nat
  outcome : Nat
  firings : Nat
  /-- Its tick had passed when time was locked again (R347), or when it was replayed (R355). -/
  late : Bool
  /-- MSN and MID of a mirror commit. -/
  msn : Nat
  mid : Nat
deriving DecidableEq, Repr

/-- A mirror operation between prepare and commit (R358 [12]). -/
structure Prepare where
  recd : MirrorRec
  /-- Entry of the copy: reserved, PENDING, or the origin's own key; and its generation. -/
  idx : Option Nat
  gen : Nat
  /-- The command on the origin. -/
  cmd : Option Nat
  /-- Positions that answered the sequencer, and whether one refused. -/
  acks : List Nat
  nak : Bool
  startAt : Nat
  committed : Bool
deriving DecidableEq, Repr

/-- A bind in progress (R353 [12]). -/
structure Bind where
  cmd : Nat
  manifest : Bytes
  startAt : Nat
  /-- Ephemeral private keys this device drew. -/
  eph : Bytes
  /-- The board domain key, once drawn or unwrapped. -/
  key : Option Bytes
  /-- Confirmations received: position and key check value. -/
  confirms : List (Nat × Bytes)
deriving DecidableEq, Repr

/-- A neighbour's last credit advertisement (R361 [12]). -/
structure Advert where
  free : List Nat
  shareIn : List Nat
  /-- Slices and MK_IDs the neighbour is a member for. -/
  members : List (Nat × Bytes)
deriving DecidableEq, Repr

/-- A spilled command sent out (R362 [12]): its number, the port, and when its answer is overdue. -/
structure SpillOut where
  cmd : Nat
  port : Nat
  until_ : Nat
deriving DecidableEq, Repr

/-- A SCOPE 0x01 entry being placed on the serving devices (R346 [12]). -/
structure BoardPlace where
  number : Nat
  cmd : Nat
  index : Nat
  waiting : List Nat
deriving DecidableEq, Repr

/-- Time base, scheduled actions and Zenari Ring ([12]). -/
structure Board where
  lock : Lock
  masterPos : Nat
  error : Int
  lost : Nat
  delay : BitVec 16
  /-- Start of the present silence of the TSYNC net. -/
  silentFrom : Nat
  /-- A follower that has lost three edges: when its wait of p ms began (R341). -/
  lostAt : Option Nat
  /-- A follower has locked since start-up; device-time ticks of the last edge and time message sent. -/
  followed : Bool
  sentEdge : Nat
  sentMsg : Nat
  /-- Phase error still to be slewed away, in 0.125 ns (R340). -/
  slew : Int
  actions : TMap ActionEntry
  serial : Nat
  boardNo : Nat
  places : List BoardPlace
  member : Member
  serving : BitVec 8
  ports : List Port
  lastMsn : Nat
  tamperBcast : BitVec 2
  commitLead : Nat
  /-- Vault: board domain key, manifest digest and header (R353). -/
  key : Option Bytes
  manifestDigest : Bytes
  header : Bytes
  /-- What each position last reported of itself (R506). -/
  heard : TMap RingReport
  /-- Mirror table: MID to ledger index (R357). -/
  midTable : TMap Nat
  /-- Mirror log and mirror set (R360). -/
  log : List (Nat × MirrorRec)
  set : List MirrorRec
  prepares : List Prepare
  /-- Sequencer: the highest MSN assigned and the last commit tick. -/
  seqMsn : Nat
  seqTick : Nat
  /-- Commits that arrived in RESYNC (R355): MID, MSN, tick. -/
  queued : List (Nat × Nat × Nat)
  bind : Option Bind
  outClasses : BitVec 8
  wait : Nat
  shareIn : List Nat
  adverts : TMap Advert
  advertAt : Nat
  spillOut : List SpillOut
  /-- TAMPER_BUS driven by this device, at least until. -/
  busLow : Bool
  busUntil : Nat
  /-- A board tamper incident is open (R356). -/
  incident : Bool
  nextMid : Nat
deriving DecidableEq, Repr

/-- DMA_STATUS.STATE (R469 [17]). -/
inductive ChanSt where
  | idle | running | halted
deriving DecidableEq, Repr

/-- A DMA channel (R469 [17]). -/
structure Channel where
  st : ChanSt
  prio : Nat
  err : Nat
  dirWrite : Bool
  mismatch : Bool
  done : Bool
  faults : Nat
  head : Nat
  cur : Nat
  errAddr : Nat
  count : Nat
  cmp : Nat
  /-- Descriptor in progress (R461). -/
  desc : Bytes
  /-- Bytes read from host memory for it: source, and the other range of a compare. -/
  staged : Bytes
  stagedOther : Bytes
deriving DecidableEq, Repr

/-- Ownership of a scratch bank (R471, R472 [17]). -/
structure Bank where
  owner : Nat
  wiping : Bool
  wipeEnd : Nat
deriving DecidableEq, Repr

/-- The DMA engine, bank ownership and the controllers' keys ([17]). -/
structure Dma where
  chans : TMap Channel
  banks : TMap Bank
  /-- Key and tag key of each key slot that has them, by slot (R477). Blocks stand in memory as their owners read them. -/
  slotKeys : TMap Bytes
  /-- Regions waiting for zeroisation: a slice's, or all (R478). -/
  zeroing : List (Option Nat)
  /-- Cached translations (R49 [02]): PASID and page. -/
  ats : List (Nat × Nat)
deriving DecidableEq, Repr

end Sys2Proof.Machine
end

