-- ==== Sys2Proof/Machine/StSys.lean ====
section
/-!
DEFINITION. Types of the state: custody and audit ([13]), tamper, supplies and faults ([14]), sequencers and
microcode ([15]), Linen and the digest unit ([16]), power and pins ([18]), the link ([02]).
-/
namespace Sys2Proof.Machine

/-- A slice master key with its generation. -/
structure MasterKey where
  gen : Nat
  key : Bytes
deriving DecidableEq, Repr

/-- One master-key record of the vault with its companion word: GEN, 0 of an empty copy, and the 48-bit MAC (R171
[05]). -/
structure KeyCopy where
  gen : Nat
  key : Bytes
  mac : Bytes
deriving DecidableEq, Repr

/-- A registered custodian (R377 [13]). -/
structure Custodian where
  cid : Nat
  kind : Nat
  digest : Bytes
deriving DecidableEq, Repr

/-- An approval nonce (R379 [13]). -/
structure Nonce where
  cls : Nat
  digest : Bytes
  nonce : Bytes
  expiry : Nat
deriving DecidableEq, Repr

/-- A component session (R383 [13]). -/
structure CompSession where
  kar : Bytes
  count : Nat
  kcv : Bytes
  /-- INDEX, CID and component. -/
  parts : List (Nat × Nat × Bytes)
  lastAt : Nat
deriving DecidableEq, Repr

/-- The audit ring of a slice (R388 to R393 [13]). -/
structure AuditRing where
  started : Bool
  configured : Bool
  base : Nat
  depth : Nat
  pasidSlot : Nat
  headAddr : Nat
  sealBase : Nat
  sealSlots : Nat
  /-- SEQ of the next record, first SEQ not acknowledged, head as published. -/
  next : Nat
  acked : Nat
  head : Nat
  chain : Bytes
  /-- Records in the reserve, not yet in the ring (R389, R391). -/
  heldRecs : List Bytes
  gap : Nat
  sealNo : Nat
  sinceSeal : Nat
  /-- Seals whose signature is owed: SEQ, number, record, key that signs. -/
  owed : List (Nat × Nat × Bytes × Bytes)
  /-- Records reserved for commands past key resolution. -/
  reserved : Nat
deriving DecidableEq, Repr

/-- Custody of a slice: its vault records (R171, R375, R377, R384), nonces, session, audit ring. -/
structure Custody where
  copyA : KeyCopy
  copyB : KeyCopy
  /-- Master key in force, attached or generated since start-up (R66, R173). -/
  master : Option MasterKey
  custodians : List Custodian
  policy : List Nat
  staged : Option MasterKey
  nonces : List Nonce
  comp : Option CompSession
  audit : AuditRing
deriving DecidableEq, Repr

/-- A word of the custody region of OTP: each bit is three cells (R367 [13]). -/
structure Cells (n : Nat) where
  a : BitVec n
  b : BitVec n
  c : BitVec n
deriving DecidableEq, Repr

/-- A seed slot: an identity seed and a device seed of 32 bytes each, under ECC (R367, R369 [13]). -/
inductive SeedSlot where
  | empty
  | held (seeds : Bytes)
  | bad
deriving DecidableEq, Repr

/-- A life-cycle transition past its erasure: the command, the states, the provisioning block, and the next step of
R369. -/
structure LcRun where
  cmd : Nat
  src : Nat
  dest : Nat
  prov : Bytes
  step : Nat
deriving DecidableEq, Repr

/-- OTP ([13], [14], [15]). -/
structure Otp where
  state : Cells 32
  slots : List (Cells 32)
  seeds : List SeedSlot
  testUsed : Nat
  grade : BitVec 4
  mode : Nat
  /-- Customer provisioning block (R372). -/
  prov : Bytes
  floor : Cells 64
  /-- Tamper fuse word (R406 [14]). -/
  fuseCells : BitVec 32
  /-- What a write that power loss has torn was to make of the fuse word; while it stands, the word fails its ECC. -/
  fuseTorn : Option (BitVec 32)
deriving DecidableEq, Repr

/-- The tamper fuse word as it reads: 0 where it fails its ECC (R406 [14]). -/
def Otp.fuses (o : Otp) : BitVec 32 := if o.fuseTorn.isSome then 0 else o.fuseCells

/-- TAMPER_STATUS.STATE ([14]). -/
inductive TamperSt where
  | normal | hold | erased | latched
deriving DecidableEq, Repr

/-- A built-in monitor test in progress (R404 [14]). -/
structure SelfTest where
  cmd : Nat
  left : List Nat
  pass : BitVec 32
  fail : BitVec 32
  until_ : Nat
deriving DecidableEq, Repr

/-- One entropy source (R417, R508 [14]). -/
structure Entropy where
  failed : Bool
  repFails : Nat
  adaptFails : Nat
deriving DecidableEq, Repr

/-- A record of the event log (R413 [14]). -/
structure EvRec where
  esn : Nat
  typ : Nat
  level : Nat
  source : Nat
  time : Nat
  detail : Bytes
  read : Bool
deriving DecidableEq, Repr

/-- A CTR_DRBG instance (R298 [10]): Key, V, and requests since its last reseed. -/
structure Drbg where
  key : Bytes
  v : Bytes
  count : Nat
deriving DecidableEq, Repr

/-- Tamper, supplies, faults and events ([14]). -/
structure Protect where
  st : TamperSt
  lastSource : Nat
  active : BitVec 32
  seen : BitVec 32
  levels : List Nat
  latched : Bool
  batLog : List Word64
  batCount : Nat
  rtc : Nat
  /-- Sub-tick of the RTC, in 1/10^9 of a tick × 32,768. -/
  rtcFrac : Nat
  belowWarn : BitVec 8
  caution : Bool
  cautionCount : Nat
  cautionSince : Nat
  aboveSince : Option Nat
  fatal : Bool
  fatalSource : Nat
  pendingFc : BitVec 448
  /-- Escalation times of pending CONTAINED faults (R411). -/
  escal : List (Nat × Nat)
  escTime : Nat
  corrCount : Nat
  firstInfo : BitVec 32
  firstAddr : BitVec 64
  firstTime : Nat
  log : TMap EvRec
  esn : Nat
  overwritten : Nat
  selfTest : Option SelfTest
  entropy : List Entropy
  /-- The eight DRBG instances (R298 [10]). -/
  drbg : List Drbg
  tjMain : BitVec 16
  tjSec : BitVec 16
  thermTripLow : Bool
  tamperLowUntil : Nat
  /-- A FUSE whose OTP write is under way: its command and its bitmap (R406, R368 [13]). -/
  fuseDue : Option (Nat × BitVec 32)
deriving DecidableEq, Repr

/-- A control-store image in a bank (R424 [15]). -/
structure Image where
  version : Nat
  svn : Nat
  fndsaRev : Nat
  hqcRev : Nat
  raiseFloor : Bool
  /-- ROM address and patch address. -/
  matches_ : List (Nat × Nat)
  dispatch : List (Nat × Nat)
  words : List (BitVec 160)
  digest : Bytes
  /-- Module table entries (R432), 64 bytes each. -/
  modules : List Bytes
deriving DecidableEq, Repr

/-- A sequencer context (R419 [15]). -/
structure MicroCtx where
  regs : TMap Word64
  stack : List Nat
  next : Nat
  /-- ALU zero, carry and negative; a primitive is running; a DMA error was met. -/
  zero : Bool
  carry : Bool
  neg : Bool
  primBusy : Bool
  dmaErr : Bool
  cmd : Nat
  /-- The job has reached an END form: release, or withhold. -/
  ended : Option Bool
deriving DecidableEq, Repr

/-- A Damask core's registers beside its local memory and Keccak states (R178 [06]): FFT unit, sampler, mask generator. -/
structure DamaskRegs where
  fft : Bytes
  sampler : Bytes
  masks : Bytes
deriving DecidableEq, Repr

/-- What a Muslin lane holds (R212 [07]): message buffer, key register, chain-state registers. -/
structure LaneRegs where
  buf : Bytes
  key : Bytes
  chain : Bytes
deriving DecidableEq, Repr

/-- What a Tweed engine holds (R240 [08]): in local memory the secret values as two Boolean shares (R242), the elimination
array, decoder and Goppa registers, Keccak state, and the working region with its key. -/
structure TweedRegs where
  secret : List Bytes
  array : Bytes
  decoder : Bytes
  goppa : Bytes
  keccak : Bytes
  region : Bytes
  regionKey : Bytes
deriving DecidableEq, Repr

/-- What a Satin lane holds (R285 [10]): the working key in two Boolean shares, round units, GHASH and chaining registers,
counter, output buffer, random source. -/
structure SatinRegs where
  key : List Bytes
  round : Bytes
  ghash : Bytes
  chaining : Bytes
  counter : Bytes
  out : Bytes
  random : Bytes
deriving DecidableEq, Repr

/-- The engine memories of a job ([06] to [10], [15]): Damask local memory by slot and Keccak states, Serge operand memory
by word, modulus, accumulator, hash units and blinding generator, the registers of the other engines, and a module's
holding areas. -/
structure JobMem where
  /-- Masking order of the job (R182). -/
  order : Nat
  /-- A module job has started at its ENTRY (R435). -/
  started : Bool
  slots : TMap Bytes
  keccak : TMap Bytes
  damask : DamaskRegs
  lane : LaneRegs
  tweed : TweedRegs
  operand : TMap Word64
  modulus : Nat
  modWords : Nat
  acc : Nat
  hashUnit : Bytes
  blinding : Bytes
  satin : SatinRegs
  /-- Value in the payment unit, as its two shares (R306). -/
  pay : List Bytes
  holding : TMap Bytes
deriving DecidableEq, Repr


/-- Sequencers and control store ([15]). -/
structure Micro where
  /-- Vendor and extension bank in force, and the images of both banks of each. -/
  vendorBank : Nat
  extBank : Nat
  vendor : TMap Image
  ext : TMap Image
  /-- Written and waiting for the round: bank switch of a region, and the command. -/
  vendorDue : Option Nat
  extDue : Option Nat
  /-- A floor raise under way: the command and the SVN (step 6 of R427). -/
  floorDue : Option (Nat × Nat)
  draining : Bool
  patchRequired : Bool
  hqcRev : Nat
  fndsaRev : Nat
  /-- Contexts, by 64 × sequencer + context. -/
  ctxs : TMap MicroCtx
  jobs : TMap JobMem
  /-- Sequencers that take no dispatch, and those acknowledged whose control store is checked again, with its
  end (R438). -/
  suspended : List Nat
  recheck : TMap Nat
deriving DecidableEq, Repr

/-- The policy module (R452 [16]). -/
structure PolicyMod where
  entry : Nat
  hookMask : BitVec 8
  digest : Bytes
deriving DecidableEq, Repr

/-- What START fixes of a message of the digest unit (R455 [16]): ALG, the key, SLEN, OUTLEN and DEST. -/
structure SduMsg where
  alg : Nat
  key : Bytes
  slen : Nat
  outLen : Nat
  dest : Nat
deriving DecidableEq, Repr

/-- The supervisor digest unit (R455 to R458 [16]). -/
structure Sdu where
  alg : Nat
  compat : Bool
  dest : Nat
  keySel : Word16
  slen : Word16
  outLen : Word16
  destLo : Word16
  destHi : Word16
  /-- Owning task, 15 for free. -/
  owner : Nat
  cur : SduMsg
  /-- A message is open; the last one has finished; its result is ready. -/
  opened : Bool
  finished : Bool
  valid : Bool
  /-- Words waiting in the input buffers, and message bytes taken. -/
  buffered : Nat
  msg : Bytes
  /-- Valid bytes of the final DIN word, once LAST was written. -/
  last : Option Nat
  result : Bytes
  readPos : Nat
  errSeq : Bool
  errEarly : Bool
  errKey : Bool
  /-- Words of the context image read so far, and the image; words written back so far. -/
  ctxPos : Nat
  ctxImage : List Word16
  ctxIn : List Word16
  /-- The context key exists. -/
  keyHeld : Bool
deriving DecidableEq, Repr

/-- The Linen supervisor and its SV16 core ([16]). -/
structure Linen where
  v : TMap Word16
  /-- X1 to X7. -/
  x : TMap Word16
  ksp : Word16
  psp : Word16
  ac0 : Word32
  ac1 : Word32
  sr : Word16
  repc : Word16
  pc : Word16
  /-- A prefix in force: its address, whether REPN, and the iterations left. -/
  rep : Option (Nat × Bool × Nat)
  /-- A RETI has just restored an interrupted REPI, whose prefix takes its count from REPC (R448). -/
  resume : Bool
  waiting : Bool
  halted : Bool
  /-- Priorities being served, innermost first: 2 NMI, 1 high, 0 low. -/
  nest : List Nat
  nmiPend : Bool
  vbr : Word16
  iprio : BitVec 64
  ipend : BitVec 64
  taskId : Word16
  bank : Word16
  timer0 : Word16
  timer1 : Word16
  reload0 : Word16
  reload1 : Word16
  /-- Start of the present watchdog interval, and the half-time already raised. -/
  wdogAt : Nat
  wdogHalf : Bool
  timeLatch : Word64
  policy : Option PolicyMod
  hookFaults : Nat
  /-- Command whose hook runs, and since when (R454). -/
  hook : Option (Nat × Nat)
  sdu : Sdu
  /-- Contexts saved: the sealed image, and the unit's state in it. -/
  sduCtxs : List (List Word16 × Sdu)
deriving DecidableEq, Repr

/-- The SPDM responder on one transport (R86 [02]): the version negotiated with the algorithms of R86 (0 before),
the secret of the session being made or open, and whether it is open. -/
structure Spdm where
  version : Nat
  secret : Option Bytes
  opened : Bool
deriving DecidableEq, Repr

/-- The algorithms of R86 [02]. -/
inductive SpdmAlg where
  | ecdsaP384 | sha384 | secp384r1 | aes256Gcm
deriving DecidableEq, Repr

/-- Answers of the SPDM responder (R86, R87 [02]). -/
inductive SpdmAnswer where
  | versions (l : List Nat)
  | algorithms (version : Nat) (l : List SpdmAlg)
  | certificate (slot : Nat) (chain : Bytes)
  | measurement (index : Nat) (data : Bytes)
  | keyExchange (pub : Bytes) (sig : Bytes)
  | finished
  | ended
  | refused
deriving DecidableEq, Repr

/-- The link, its pins and the manager's registers ([02], [03], [18]). -/
structure Link where
  /-- PORST_N, PERST_N low; internal supply reset; link down and waiting for PERST_N. -/
  porstLow : Bool
  perstLow : Bool
  supplyReset : Bool
  linkLost : Bool
  mainPower : Bool
  onBattery : Bool
  boardId : BitVec 3
  /-- Start-up has run since the last release. -/
  started : Bool
  halt : Bool
  qerrHalt : Bool
  ideLock : Bool
  ideRequired : Bool
  ideStreams : BitVec 5
  /-- The keys of the streams (R88). -/
  ideKeys : TMap Bytes
  /-- Lanes and GT/s × 10 as trained; payload and read request sizes in bytes (R49 [02]). -/
  width : Nat
  speed : Nat
  payload : Nat
  readReq : Nat
  /-- The SPDM responder over DOE and over MCTP (R86). -/
  spdmDoe : Spdm
  spdmMctp : Spdm
  msixTable : TMap (Word64 × Word32 × Bool)
  msixPend : BitVec 512
  adminEvent : BitVec 256
  quotaEvent : BitVec 256
  errNLow : Bool
  domainsOff : List Nat
  waking : List (Nat × Nat)
  /-- A life-cycle transition or a debug response has closed the device (R369, R373). -/
  lcClosed : Bool
  lcRun : Option LcRun
  /-- The battery domain is wholly unpowered (R407, R408). -/
  batDead : Bool
  debugOpen : Bool
  resumed : Bool
  tokenUntil : Nat
  debugNonce : Option (Bytes × Nat)
  tapOpen : Bool
  /-- The life-cycle resolution of start-up has found SCRAPPED (R370). -/
  scrapped : Bool
  /-- Reset release, or the moment the supplies came back (R486, R488). -/
  startAt : Nat
deriving DecidableEq, Repr

/-- What the device puts on its links, buses and pins. -/
inductive Emit where
  /-- A posted write to host memory: PASID (none: from PF0), address, bytes (R51 [02]). -/
  | hostWrite (pasid : Option Nat) (addr : Nat) (data : Bytes)
  /-- A slice's interrupt message (R84). -/
  | sliceMsg (slice : Nat) (vector : Nat) (addr : Nat) (data : Nat)
  /-- An MSI-X message of PF0 (R82). -/
  | msix (vector : Nat) (addr : Nat) (data : Nat)
  /-- A level on a pin. -/
  | errN (low : Bool)
  | tamperN (low : Bool)
  | tamperBus (low : Bool)
  | thermTripN (low : Bool)
  | tsyncEdge (tick : Nat)
  /-- The data of a read (BAR2, DOUT, CTX). -/
  | readData (data : Bytes)
  /-- An answer of the SPDM responder. -/
  | spdm (path : SpdmPath) (a : SpdmAnswer)
  | atsInvalidated (pasid : Nat)
  /-- The header of a flit and the nonce it is sealed under; what it carries follows it. -/
  | flit (port : Nat) (h : FlitHdr) (nonce : Bytes)
  | timeFlit (port : Nat) (edge : Nat)
  | tamperFlit (port : Nat) (pos : Nat) (level : Nat)
  | mirrorFlit (port : Nat) (what : Nat) (m : MirrorRec) (msn : Nat) (tick : Nat)
  | spillReqFlit (port : Nat) (r : SpillReq)
  | spillRespFlit (port : Nat) (id : Nat) (r : SpillResp)
  | creditFlit (port : Nat) (free : List Nat) (shareIn : List Nat) (members : List (Nat × Bytes))
  | resyncFlit (port : Nat) (afterMsn : Nat)
  | replayFlit (port : Nat) (m : ReplayMsg)
  | bindFlit (port : Nat) (b : BindMsg)
  | boardEntryFlit (port : Nat) (b : BoardEntryMsg)
  | linkFlit (port : Nat) (r : RingReport)
  /-- A flit passed on round the ring. -/
  | forwardFlit (port : Nat) (h : FlitHdr)
deriving DecidableEq, Repr

end Sys2Proof.Machine
end

