-- ==== Sys2Proof/Machine/State.lean ====
section
/-!
DEFINITION. The state of the block, its reset value, its faults and its refusals.
-/
namespace Sys2Proof.Machine

/-- Reasons for which the block stops. -/
inductive Fault where
  /-- REGISTER_WRITE and XW_BAR2_ACCESS of an offset outside the BAR (R53 [02]): no such address exists.
  Safe: the device is never addressed there. -/
  | outsideBar
deriving DecidableEq, Repr

/-- Commands without a meaning. -/
inductive Refusal where
  /-- A row of the table that this model does not model yet. Safe. -/
  | notModelled (mnemonic : String)
deriving DecidableEq, Repr

/-- The memories: on-package memory by the offsets of R476 [17], scratch banks by bank × 0x1_0000 + offset
(R463 [17]), and Linen's data and instruction RAM by word (R440 [16]); each lists only what is not 0. -/
structure Memory where
  hbm : List Host.Cell
  scr : List Host.Cell
  dram : List (Nat × Word16)
  iram : List (Nat × Word16)
deriving DecidableEq, Repr

/-- The device apart from its memories and from the queue of waiting commands. -/
structure Dev where
  /-- Nanoseconds since the reset was released; every duration is measured on it. -/
  clk : Nat
  /-- DEV_TIME (R337 [12]). -/
  devTime : Nat
  /-- The model's own: advanced by each free value drawn. -/
  free : Nat
  link : Link
  otp : Otp
  slices : TMap Slice
  cmds : List Cmd
  nextId : Nat
  sched : Sched
  led : Ledger
  cust : TMap Custody
  prot : Protect
  board : Board
  dma : Dma
  micro : Micro
  linen : Linen
  /-- Host writes that wait until an IDE stream is established (R88, R89 [02]), oldest first. -/
  held : List Emit
  /-- What has been put on the links, buses and pins, newest last. -/
  out : List Emit
deriving DecidableEq, Repr

/-- The block: the commands that wait, first in first out; the device; its memories. -/
structure State where
  pending : List Instr
  dev : Dev
  mem : Memory
deriving DecidableEq, Repr

/-- Applied configuration of a slice before any is applied (SLICE_STATUS resets MASK_ORDER to 1). -/
def SliceCfg.zero : SliceCfg :=
  { quota := 0, cap := 0, shLattice := 0, shHash := 0, shCode := 0, shClassical := 0, shCipher := 0,
    queues := 0, maskOrder := 1, auditLevel := 0 }

/-- A slice at reset (R56 to R84 [02]). -/
def Slice.reset : Slice :=
  { st := .free, cfg := .zero, nextCfg := none, pasids := List.replicate 4 ⟨false, 0, false⟩,
    intMsg := List.replicate 4 ⟨0, 0⟩, intMask := 0xF, intPend := 0, intSent := 0, pushFree := 0xFFFF,
    push := [], t2m := [], m2t := [], t2mFull := false, m2tFull := false, xw := [], admitted := 0,
    sqs := [], cqs := [], cqEvent := 0, streams := [], deficit := [], deficitRd := [], readyRd := 0,
    decom := none, fetchFrom := 0 }

/-- Submission queue q at reset (R110 [03]). -/
def Sq.reset (q : Nat) : Sq :=
  { base := 0, ciAddr := 0, depth := 0, pasidSlot := 0, cqSel := q, window := 256, poll := 0,
    st := .disabled, dbDrop := false, cfgFault := 0, pos := 0, errReason := 0, errPos := 0, prod := none,
    pollDue := false, pollAt := 0, notNewAt := none, rereadAt := 0, contAt := none, held0 := [], ciOwed := false,
    ciAt := none, ciFails := false, rateSec := 0, rateCount := 0 }

/-- A completion ring at reset (R110 [03]). -/
def Cq.reset : Cq :=
  { base := 0, headAddr := 0, depth := 0, pasidSlot := 0, intEn := false, coalCount := 1, coalTime := 0,
    st := .disabled, dbDrop := false, cfgFault := 0, head := 0, headOut := 0, rd := 0, since := 0, firstAt := none,
    uncovered := [] }

/-- An empty vault copy (R171 [05]). -/
def KeyCopy.empty : KeyCopy := { gen := 0, key := [], mac := [] }

/-- An audit ring never configured (R388, R391 [13]). -/
def AuditRing.reset : AuditRing :=
  { started := false, configured := false, base := 0, depth := 0, pasidSlot := 0, headAddr := 0,
    sealBase := 0, sealSlots := 0, next := 0, acked := 0, head := 0, chain := [], heldRecs := [], gap := 0,
    sealNo := 0, sinceSeal := 0, owed := [], reserved := 0 }

/-- Custody of a slice whose vault records are empty. -/
def Custody.reset : Custody :=
  { copyA := .empty, copyB := .empty, master := none, custodians := [], policy := List.replicate 6 0,
    staged := none, nonces := [], comp := none, audit := .reset }

/-- Default response levels of the 32 tamper sources (R395 [14]). -/
def defaultLevels : List Nat :=
  [4, 4, 4, 4, 4, 4, 4, 4, 4, 1, 3, 3, 3, 3, 3, 3, 3, 3, 3, 3, 3, 1, 3, 4, 4, 4, 4, 1, 1, 0, 0, 3]

/-- The digest unit at reset (R455 [16]). -/
def Sdu.reset : Sdu :=
  { alg := 0, compat := false, dest := 0, keySel := 0, slen := 0, outLen := 0x20, destLo := 0, destHi := 0,
    owner := 15, cur := ⟨0, [], 0, 0x20, 0⟩, opened := false, finished := false, valid := false, buffered := 0,
    msg := [], last := none, result := [], readPos := 0, errSeq := false, errEarly := false, errKey := false,
    ctxPos := 0, ctxImage := [], ctxIn := [], keyHeld := false }

/-- Linen at reset (R442, R443 [16]); the registers R443 leaves undefined are 0 (DESIGN CHOICE, log 6). -/
def Linen.reset : Linen :=
  { v := [], x := [], ksp := 0, psp := 0, ac0 := 0, ac1 := 0, sr := 0, repc := 0, pc := 0, rep := none, resume := false,
    waiting := false, halted := false, nest := [], nmiPend := false, vbr := 0, iprio := 0, ipend := 0,
    taskId := 0, bank := 0, timer0 := 0, timer1 := 0, reload0 := 0, reload1 := 0, wdogAt := 0,
    wdogHalf := false, timeLatch := 0, policy := none, hookFaults := 0, hook := none, sdu := .reset,
    sduCtxs := [] }

/-- Registers of a port before training. -/
def Port.reset : Port := { link := .down, lanes := 0, flitErr := 0, rxSeq := 0, txSeq := 0, nonces := [], txKey := [], rxKey := [] }

/-- Time base and ring registers at reset ([12]). -/
def Board.reset : Board :=
  { lock := .unlocked, masterPos := 0, error := 0, lost := 0, delay := 0, silentFrom := 0, lostAt := none,
    followed := false, sentEdge := 0, sentMsg := 0, slew := 0, actions := [],
    serial := 0, boardNo := 0, places := [], member := .unbound, serving := 0,
    ports := [.reset, .reset], lastMsn := 0, tamperBcast := 1, commitLead := 100, key := none,
    manifestDigest := [], header := [], heard := [], midTable := [], log := [], set := [], prepares := [],
    seqMsn := 0, seqTick := 0, queued := [], bind := none, outClasses := 0, wait := 1,
    shareIn := List.replicate 5 0, adverts := [], advertAt := 0, spillOut := [],
    busLow := false, busUntil := 0, incident := false, nextMid := 0 }

/-- Tamper, supply and fault registers at reset ([14]); what the battery domain holds is as shipped. -/
def Protect.reset : Protect :=
  { st := .normal, lastSource := 0, active := 0, seen := 0, levels := defaultLevels, latched := false,
    batLog := List.replicate 16 0, batCount := 0, rtc := 0, rtcFrac := 0, belowWarn := 0, caution := false,
    cautionCount := 0, cautionSince := 0, aboveSince := none, fatal := false, fatalSource := 0,
    pendingFc := 0, escal := [], escTime := 1000, corrCount := 0, firstInfo := 0x0000FFFF, firstAddr := 0,
    firstTime := 0, log := [], esn := 0, overwritten := 0, selfTest := none,
    entropy := List.replicate 4 ⟨false, 0, 0⟩, drbg := List.replicate 8 ⟨List.replicate 32 0, List.replicate 16 0, 0⟩, tjMain := 0, tjSec := 0,
    thermTripLow := false, tamperLowUntil := 0, fuseDue := none }

/-- The control store at reset: no patch and no module set ([15], R180 [06], R243 [08]). -/
def Micro.reset : Micro :=
  { vendorBank := 0, extBank := 0, vendor := [], ext := [], vendorDue := none, extDue := none, floorDue := none,
    draining := false, patchRequired := false, hqcRev := 1, fndsaRev := 1, ctxs := [], jobs := [],
    suspended := [], recheck := [] }

/-- The scheduler at reset: no unit in service until start-up ends (R72 [02]). -/
def Sched.reset : Sched :=
  { rounds := 0, lastRound := 0, round := [], units := [], rrSlice := [], rrQueue := [], gather := [], wiping := [], resumeFrom := 0, rateSec := 0,
    rateCount := 0, turns := [], lastReady := [],
    emptySince := [] }

/-- The ledger before start-up. -/
def Ledger.reset : Ledger :=
  { boot := 0, bootId := List.replicate 8 0, entries := [], fresh := 0, freed := [], keyHeld := false,
    vaultKey := [], matrix := [] }

/-- The DMA engine at reset ([17]). -/
def Dma.reset : Dma := { chans := [], banks := [], slotKeys := [], zeroing := [], ats := [] }

/-- The link and the manager's registers at reset ([02], [03], [18]). -/
def Link.reset : Link :=
  { porstLow := false, perstLow := false, supplyReset := false, linkLost := false, mainPower := true,
    onBattery := false, boardId := 0, started := false, halt := false, qerrHalt := false, ideLock := false,
    ideRequired := false, ideStreams := 0, ideKeys := [], width := 16, speed := 640, payload := 128, readReq := 512,
    spdmDoe := ⟨0, none, false⟩, spdmMctp := ⟨0, none, false⟩, msixTable := [],
    msixPend := 0, adminEvent := 0, quotaEvent := 0, errNLow := false, domainsOff := [], waking := [],
    lcClosed := false, lcRun := none, batDead := false, debugOpen := false, resumed := false, tokenUntil := 0, debugNonce := none,
    tapOpen := false, scrapped := false, startAt := 0 }

/-- OTP of a device as shipped: MANUFACTURED, FLOOR 1 (R365 [13], R429 [15]); TEST_USED 1 and grade CA0 are
the model's choice (log 5). -/
def Otp.shipped : Otp :=
  { state := ⟨0x1FFFF, 0x1FFFF, 0x1FFFF⟩, slots := [], seeds := [.held (Config.rom 2), .empty], testUsed := 1, grade := 0, mode := 0, prov := [],
    floor := ⟨1, 1, 1⟩, fuseCells := 0, fuseTorn := none }

/-- The memories after start-up's zeroing (R474, R478 [17]). -/
def Memory.zero : Memory := { hbm := [], scr := [], dram := [], iram := [] }

/-- The device right after the release of its resets, before the start-up sequence of R451 [16] has run. -/
def Dev.reset : Dev :=
  { clk := 0, devTime := 0, free := 0, link := .reset, otp := .shipped, slices := [], cmds := [],
    nextId := 0, sched := .reset, led := .reset, cust := [], prot := .reset, board := .reset, dma := .reset,
    micro := .reset, linen := .reset, held := [], out := [] }

/-- The block right after reset. -/
def State.reset : State := { pending := [], dev := .reset, mem := .zero }

end Sys2Proof.Machine
end

