-- ==== Sys2Proof/Machine/Bytes.lean ====
section
/-!
DEFINITION. Byte strings, little-endian numbers and bit fields (R4 [00]).
-/
namespace Sys2Proof.Machine

/-- `n` zero bytes. -/
def zeros (n : Nat) : Bytes := List.replicate n 0

/-- `n` bytes of `b` from offset `off`. -/
def seg (b : Bytes) (off n : Nat) : Bytes := (b.drop off).take n

/-- `b` cut or filled with zeros to `n` bytes. -/
def fit (n : Nat) (b : Bytes) : Bytes := b.take n ++ zeros (n - b.length)

/-- The little-endian number in a byte string. -/
def leNat : Bytes → Nat
  | [] => 0
  | x :: xs => x.toNat + 256 * leNat xs

/-- `v` as `n` bytes, little-endian. -/
def leBytes : Nat → Nat → Bytes
  | 0, _ => []
  | n + 1, v => BitVec.ofNat 8 v :: leBytes n (v / 256)

/-- The big-endian number in a byte string. -/
def beNat (b : Bytes) : Nat := leNat b.reverse

/-- `v` as `n` bytes, big-endian. -/
def beBytes (n v : Nat) : Bytes := (leBytes n v).reverse

/-- The little-endian field of `n` bytes at `off`. -/
def field (b : Bytes) (off n : Nat) : Nat := leNat (seg b off n)

/-- Bits [hi:lo] of a number. -/
def bits (v hi lo : Nat) : Nat := v / 2 ^ lo % 2 ^ (hi + 1 - lo)

/-- Bit `i` of a number. -/
def bit (v i : Nat) : Bool := v.testBit i

/-- 1 or 0. -/
def b2n (b : Bool) : Nat := if b then 1 else 0

/-- Every byte is zero. -/
def allZero (b : Bytes) : Bool := b.all (· == 0)

/-- Ceiling of a division. -/
def cdiv (a b : Nat) : Nat := (a + b - 1) / b

/-- Exclusive or of byte strings. -/
def xorB (a b : Bytes) : Bytes := List.zipWith (fun x y => x ^^^ y) a b

/-- An ASCII label as bytes. -/
def ascii (s : String) : Bytes := s.toList.map (fun c => BitVec.ofNat 8 c.toNat)

/-- A function of a standard whose output has `n` bytes. -/
def std (f : Std) (n : Nat) (ps : List Nat) (as : List Bytes) : Bytes := fit n (Config.std f ps as)

/-- SHA3-256 of a byte string (codes of TYPE 0x06, R148 [05]). -/
def sha3_256 (b : Bytes) : Bytes := std .sha 32 [4] [b]

/-- KMAC256 with key, input, output bytes and customisation string; the output length is an argument of the
function. -/
def kmac256 (k x : Bytes) (n : Nat) (s : String) : Bytes := std .kmac n [256, n] [k, x, ascii s]

end Sys2Proof.Machine
end

