-- ==== Sys2Proof/Machine/Ops.lean ====
section
/-!
DEFINITION. Named operations over the state: memories, slices, queues, commands, units, emissions, free values.
-/
namespace Sys2Proof.Machine

/-- The outcome of a command. -/
abbrev Out := Host.Outcome State Fault Refusal

/-- A command whose effect is on the device alone. -/
def onDev (f : Dev → Dev) (s : State) : Out := .next { s with dev := f s.dev }

/-- A command whose effect on the device also depends on the memories. -/
def onDevM (f : Memory → Dev → Dev) (s : State) : Out := .next { s with dev := f s.mem s.dev }

/-- A command whose effect is on the device and its memories. -/
def onBoth (f : Dev → Memory → Dev × Memory) (s : State) : Out :=
  .next { s with dev := (f s.dev s.mem).1, mem := (f s.dev s.mem).2 }

/-! Memories in canonical form. -/

/-- The value at address `a` of a memory; one that is not listed reads as zero (R474, R478 [17]). -/
def memGet {n : Nat} : List (Nat × BitVec n) → Nat → BitVec n
  | [], _ => 0
  | (b, v) :: m, a => if a = b then v else if a < b then 0 else memGet m a

/-- The memory with `v` at address `a`, still listing only what is not zero. -/
def memPut {n : Nat} : List (Nat × BitVec n) → Nat → BitVec n → List (Nat × BitVec n)
  | [], a, v => if v = 0 then [] else [(a, v)]
  | (b, w) :: m, a, v =>
    if a = b then (if v = 0 then m else (a, v) :: m)
    else if a < b then (if v = 0 then (b, w) :: m else (a, v) :: (b, w) :: m)
    else (b, w) :: memPut m a v

/-- `n` bytes from address `a`. -/
def memRead (m : List Host.Cell) (a : Nat) : Nat → Bytes
  | 0 => []
  | n + 1 => memGet m a :: memRead m (a + 1) n

/-- The bytes written from address `a`. -/
def memWrite (m : List Host.Cell) (a : Nat) : Bytes → List Host.Cell
  | [] => m
  | x :: xs => memWrite (memPut m a x) (a + 1) xs

/-- The memory with the `n` addresses from `a` zeroed. -/
def memClear {k : Nat} (m : List (Nat × BitVec k)) (a n : Nat) : List (Nat × BitVec k) :=
  m.filter (fun e => !(decide (a ≤ e.1) && decide (e.1 < a + n)))

/-- Addresses strictly rise and no entry is zero. -/
def memWf {n : Nat} : List (Nat × BitVec n) → Bool
  | [] => true
  | [(_, v)] => v != 0
  | (a, v) :: (b, w) :: m => v != 0 && decide (a < b) && memWf ((b, w) :: m)

/-- The canonical form of every memory. -/
def Memory.wf (m : Memory) : Bool := memWf m.hbm && memWf m.scr && memWf m.dram && memWf m.iram

/-- Where slice `s` has its exchange window in on-package memory (R476 [17]). -/
def xwBase (s : Nat) : Nat := 0x3BB000000 + s * 0x10000

/-! Free values. -/

/-- Bytes drawn, from draw `k` on. -/
def freeBytes (k : Nat) : Nat → Bytes
  | 0 => []
  | n + 1 => Config.freeByte k :: freeBytes (k + 1) n

/-- `n` free bytes, and the device with the draw counted. -/
def draw (n : Nat) (d : Dev) : Bytes × Dev := (freeBytes d.free n, { d with free := d.free + n })

/-- A free number, and the device with the draw counted. -/
def drawNat (d : Dev) : Nat × Dev := (Config.freeNat d.free, { d with free := d.free + 1 })

/-- Keys of 64 bytes and tag keys of 16 drawn for key slots in ascending order (R477, R478 [17]). -/
def drawSlots (l : List Nat) (d : Dev) : Dev :=
  let (b, d) := draw (80 * l.length) d
  let t := (l.zipIdx).foldl (fun t (e : Nat × Nat) => tset t e.1 (seg b (80 * e.2) 80)) d.dma.slotKeys
  { d with dma := { d.dma with slotKeys := t } }

/-! CTR_DRBG with AES-256, without a derivation function (R298 [10]; PRESUMED, log 60). -/

/-- `n` bytes of the counter blocks that follow V. -/
def Drbg.blocks (x : Drbg) (n : Nat) : Bytes :=
  ((List.range (cdiv n 16)).flatMap (fun i =>
    std .aes 16 [0] [x.key, beBytes 16 ((beNat x.v + i + 1) % 2 ^ 128)])).take n

/-- The update function: new Key and V from 48 bytes of provided data. -/
def Drbg.update (x : Drbg) (data : Bytes) : Drbg :=
  let t := xorB (x.blocks 48) data
  { x with key := t.take 32, v := t.drop 32 }

/-- The generate function: `n` bytes, and the instance after it. -/
def Drbg.generate (x : Drbg) (n : Nat) : Bytes × Drbg :=
  let y := { x with v := beBytes 16 ((beNat x.v + cdiv n 16) % 2 ^ 128), count := x.count + 1 }
  (x.blocks n, y.update (zeros 48))

/-- The reseed function, on 48 bytes of entropy. -/
def reseedDrbg (x : Drbg) (d : Dev) : Drbg × Dev :=
  let (e, d) := draw 48 d
  ({ x.update e with count := 0 }, d)

/-- The eight instances instantiated: Key and V of zeros, updated with entropy (R451 [16]). -/
def startDrbgs (d : Dev) : Dev :=
  (List.range 8).foldl (fun d i =>
    let (x, d) := reseedDrbg ⟨zeros 32, zeros 16, 0⟩ d
    { d with prot := { d.prot with drbg := d.prot.drbg.set i x } }) d

/-! Slices, queues, rings. -/

/-- Slice `s`. -/
def Dev.slice (d : Dev) (s : Nat) : Slice := tget .reset d.slices s

/-- The device with slice `s` replaced. -/
def Dev.setSlice (d : Dev) (s : Nat) (x : Slice) : Dev := { d with slices := tset d.slices s x }

/-- The device with slice `s` changed. -/
def Dev.modSlice (d : Dev) (s : Nat) (f : Slice → Slice) : Dev := d.setSlice s (f (d.slice s))

/-- Submission queue `q` of a slice. -/
def Slice.sq (x : Slice) (q : Nat) : Sq := tget (.reset q) x.sqs q

/-- Completion ring `q` of a slice. -/
def Slice.cq (x : Slice) (q : Nat) : Cq := tget .reset x.cqs q

/-- Submission queue `q` of slice `s`. -/
def Dev.sq (d : Dev) (s q : Nat) : Sq := (d.slice s).sq q

/-- Completion ring `q` of slice `s`. -/
def Dev.cq (d : Dev) (s q : Nat) : Cq := (d.slice s).cq q

/-- The device with a submission queue changed. -/
def Dev.modSq (d : Dev) (s q : Nat) (f : Sq → Sq) : Dev :=
  d.modSlice s (fun x => { x with sqs := tset x.sqs q (f (x.sq q)) })

/-- The device with a completion ring changed. -/
def Dev.modCq (d : Dev) (s q : Nat) (f : Cq → Cq) : Dev :=
  d.modSlice s (fun x => { x with cqs := tset x.cqs q (f (x.cq q)) })

/-- Slices that exist or are being destroyed. -/
def liveSlices (d : Dev) : List Nat := (d.slices.filter (fun e => e.2.st != .free)).map (·.1)

/-- Custody of slice `s`. -/
def Dev.custody (d : Dev) (s : Nat) : Custody := tget .reset d.cust s

/-- The device with the custody of a slice changed. -/
def Dev.modCust (d : Dev) (s : Nat) (f : Custody → Custody) : Dev :=
  { d with cust := tset d.cust s (f (d.custody s)) }

/-- Every listed slice changed. -/
def mapSlices (f : Slice → Slice) (d : Dev) : Dev :=
  { d with slices := d.slices.map (fun (e : Nat × Slice) => (e.1, f e.2)) }

/-- The custody of every listed slice changed. -/
def mapCust (f : Custody → Custody) (d : Dev) : Dev :=
  { d with cust := d.cust.map (fun (e : Nat × Custody) => (e.1, f e.2)) }

/-- An action entry of the table that is free (R350 [12]). -/
def actionFree : ActionEntry :=
  { live := false, spent := false, serial := 0, action := 0, scope := 0, slice := 0, testMask := 0, tick := 0,
    period := 0, key0 := 0, cfg := [], adder := 0, boardNo := none, outcome := 0, firings := 0, late := false, msn := 0,
    mid := 0 }

/-- Action entry `i`. -/
def Dev.action (d : Dev) (i : Nat) : ActionEntry := tget actionFree d.board.actions i

/-- The device with an action entry changed. -/
def modAction (i : Nat) (f : ActionEntry → ActionEntry) (d : Dev) : Dev :=
  { d with board := { d.board with actions := tset d.board.actions i (f (d.action i)) } }

/-! Commands. -/

/-- The command with admission number `id`, if it still holds a slot. -/
def findCmd (d : Dev) (id : Nat) : Option Cmd := d.cmds.find? (fun c => c.id == id)

/-- The device with command `c.id` replaced by `c`. -/
def setCmd (c : Cmd) (d : Dev) : Dev :=
  { d with cmds := d.cmds.map (fun e => if e.id = c.id then c else e) }

/-- The device with every command changed. -/
def mapCmds (f : Cmd → Cmd) (d : Dev) : Dev := { d with cmds := d.cmds.map f }

/-- The queue a command counts in: push-lane commands count in queue 0 (R43 [01]). -/
def Cmd.qk (c : Cmd) : Nat := if c.push.isSome then 0 else c.queue

/-- A command in execution or before it: its record is not in the pool. -/
def Cmd.inFlight (c : Cmd) : Bool := c.stage != .done

/-- A command whose execution has not finished. -/
def Cmd.unfinished (c : Cmd) : Bool := c.stage != .done && c.stage != .results

/-- The device running something over a list. -/
def forEach {α : Type} (l : List α) (f : α → Dev → Dev) (d : Dev) : Dev := l.foldl (fun d a => f a d) d

/-! Emissions and interrupts. -/

/-- The device with something more put out. -/
def emit (e : Emit) (d : Dev) : Dev := { d with out := d.out ++ [e] }

/-- MSI-X entry of vector `v` of PF0 (R54 [02]): ADDR, DATA, masked; masked at reset. -/
def Dev.msixEntry (d : Dev) (v : Nat) : Word64 × Word32 × Bool := tget (0, 0, true) d.link.msixTable v

/-- An event on PF0 vector `v` (R82 [02]): its message, or its pending bit while it is masked. -/
def raisePf0 (v : Nat) (d : Dev) : Dev :=
  let e := d.msixEntry v
  if e.2.2 then { d with link := { d.link with msixPend := d.link.msixPend ||| (1#512 <<< v) } }
  else emit (.msix v e.1.toNat e.2.1.toNat) d

/-- Sends the message of vector `v` of slice `s` where R84, R85 [02] let it go. -/
def sendSliceMsg (s v : Nat) (d : Dev) : Dev :=
  let x := d.slice s
  let m := x.intMsg.getD v ⟨0, 0⟩
  if x.intPend.getLsbD v && !x.intMask.getLsbD v && !x.intSent.getLsbD v && m.addr != 0 then
    emit (.sliceMsg s v m.addr.toNat m.data.toNat)
      (d.modSlice s (fun x => { x with intSent := x.intSent ||| (1#4 <<< v) }))
  else d

/-- An event on vector `v` of slice `s` (R85 [02]). -/
def raiseSlice (s v : Nat) (d : Dev) : Dev :=
  sendSliceMsg s v (d.modSlice s (fun x => { x with intPend := x.intPend ||| (1#4 <<< v) }))

/-- The PASID with which slice `s` makes an access under `slot` (R73 [02]); slice 0 has none (R505 [02]). An audit ring
or a consumer word whose slot has been unbound since is written under PASID 0, the value of an empty slot (the manual is
silent on it; DESIGN CHOICE, log 68). -/
def pasidOf (d : Dev) (s slot : Nat) : Option Nat :=
  if s = 0 then none else some ((d.slice s).pasids.getD slot ⟨false, 0, false⟩).pasid.toNat

/-- IDE is required and no stream is established: no DMA is issued, and every request but a configuration request and
DOE is discarded (R88, R89 [02]). -/
def Dev.ideHeld (d : Dev) : Bool := d.link.ideRequired && d.link.ideStreams == 0

/-- Pages of 4 KiB that `n` bytes from an address touch. -/
def pagesOf (a n : Nat) : List Nat := (List.range ((a + n - 1) / 4096 + 1 - a / 4096)).map (fun i => a / 4096 + i)

/-- The translations that an access under a PASID needs are in the cache of 4,096 entries, the latest last (R49
[02]; DEDUCED, log 37). -/
def noteAts (p : Option Nat) (a n : Nat) (d : Dev) : Dev :=
  match p with
  | none => d
  | some p =>
    if n = 0 then d
    else
      let new := (pagesOf a n).map (fun g => (p, g))
      let l := d.dma.ats.filter (fun (e : Nat × Nat) => !new.contains e) ++ new
      { d with dma := { d.dma with ats := l.drop (l.length - 4096) } }

/-- A host write for slice `s` under PASID slot `slot`; it waits while no DMA may be issued (R88, R89 [02]). -/
def hostWrite (s slot addr : Nat) (b : Bytes) (d : Dev) : Dev :=
  let p := pasidOf d s slot
  if d.ideHeld then { d with held := d.held ++ [.hostWrite p addr b] }
  else emit (.hostWrite p addr b) (noteAts p addr b.length d)

/-- The host writes that waited for a stream go out, in order (R89 [02]). -/
def sendHeld (d : Dev) : Dev :=
  if d.ideHeld then d else { d with held := [], out := d.out ++ d.held }

/-- The device can act: it is out of reset, its link is up, and no fault has halted it (R52, R117, R411). -/
def Dev.alive (d : Dev) : Bool :=
  !d.link.porstLow && !d.link.perstLow && !d.link.supplyReset && d.link.mainPower && !d.link.linkLost
    && !d.link.halt

/-- Out of reset and powered: registers answer. -/
def Dev.powered (d : Dev) : Bool :=
  !d.link.porstLow && !d.link.perstLow && !d.link.supplyReset && d.link.mainPower

/-- Registers answer, the link is up, and no missing IDE stream keeps a request from them (R52, R88 [02]). -/
def Dev.reachable (d : Dev) : Bool := d.powered && !d.link.linkLost && !d.ideHeld

/-- No DMA may be issued: IDE is required and no stream is established (R88, R89 [02]), or the device is stopped. -/
def Dev.dmaHeld (d : Dev) : Bool := !d.alive || d.ideHeld

/-- The life-cycle code of a state word (R367 [13]): k when bits [k − 1:0] are set and no other is. -/
def lcOfWord (w : BitVec 32) : Option Nat := (List.range 22).find? (fun k => w.toNat == 2 ^ k - 1)

/-- A custody word as it is read, by majority (R367 [13]). -/
def Cells.read {n : Nat} (x : Cells n) : BitVec n := (x.a &&& x.b) ||| (x.a &&& x.c) ||| (x.b &&& x.c)

/-- A custody word written: bits are only ever set (R368 [13]). -/
def Cells.write {n : Nat} (x : Cells n) (v : BitVec n) : Cells n := ⟨x.a ||| v, x.b ||| v, x.c ||| v⟩

/-- The OTP state word. -/
def Otp.word (o : Otp) : BitVec 32 := o.state.read

/-- The bits of the anti-rollback floor (R429 [15]). -/
def Otp.floorBits (o : Otp) : BitVec 64 := o.floor.read

/-- Seeds of the seed slot in use: the first that holds seeds which pass ECC (R367, R369 [13]); a device without
has none. -/
def Otp.seedPair (o : Otp) : Bytes :=
  (o.seeds.findSome? (fun x => match x with
    | .held b => some (fit 64 b)
    | _ => none)).getD []

/-- The life-cycle state in force; a word that is no state's reads as SCRAPPED (R370 [13]). -/
def Dev.lc (d : Dev) : Nat := if d.link.scrapped then 21 else (lcOfWord d.otp.word).getD 21

/-- TEST_UNLOCKED(n), code 2n + 1 (R365 [13]). -/
def isTestUnlocked (k : Nat) : Bool := decide (1 ≤ k) && decide (k ≤ 15) && k % 2 == 1

/-- TEST_LOCKED(n), code 2n + 2. -/
def isTestLocked (k : Nat) : Bool := decide (2 ≤ k) && decide (k ≤ 16) && k % 2 == 0

/-- A test state. -/
def isTest (k : Nat) : Bool := decide (1 ≤ k) && decide (k ≤ 16)

/-- HOLD conditions (R398, R399 [14]): HOLD and ERASED; LATCHED keeps none (R400). -/
def Dev.hold (d : Dev) : Bool := d.prot.st == .hold || d.prot.st == .erased

/-- Context slots of `n` scratch banks from bank `b` on, 128 in each; a bank with a fault that is not acknowledged is out
of service (R220 [07], R411 [14]; which banks serve streams, and when one returns, are DESIGN CHOICE, log 66). -/
def ctxSlots (d : Dev) (b n : Nat) : Nat :=
  128 * ((List.range n).filter (fun i => !d.prot.pendingFc.getLsbD (336 + b + i))).length

/-- Fetch and dispatch of slice `s` are kept back by HOLD, or until the round after it (R398, R399 [14]). -/
def Dev.keptBack (d : Dev) (s : Nat) : Bool := s != 0 && (d.hold || decide (d.sched.rounds < d.sched.resumeFrom))

/-- Slice configuration share by class number (R69 [02]). -/
def SliceCfg.share (c : SliceCfg) : Nat → Nat
  | 0 => c.shLattice
  | 1 => c.shHash
  | 2 => c.shCode
  | 3 => c.shClassical
  | _ => c.shCipher

/-- Number of an engine class (R72 [02]). -/
def classNo : EngClass → Nat
  | .lattice => 0
  | .hash => 1
  | .code => 2
  | .classical => 3
  | .cipher => 4

/-- Number of a unit class (R415 [14]). -/
def uclassNo : UnitClass → Nat
  | .lattice => 0
  | .hash => 1
  | .code => 2
  | .classical => 3
  | .cipher => 4
  | .payment => 5

/-- Unit class of an engine class. -/
def EngClass.toUnit : EngClass → UnitClass
  | .lattice => .lattice
  | .hash => .hash
  | .code => .code
  | .classical => .classical
  | .cipher => .cipher

/-- The five engine classes. -/
def allClasses : List EngClass := [.lattice, .hash, .code, .classical, .cipher]

/-- The six unit classes. -/
def allUnitClasses : List UnitClass := [.lattice, .hash, .code, .classical, .cipher, .payment]

/-- Number of units of a class (R17 [01], R305 [11]). -/
def unitCount : UnitClass → Nat
  | .lattice => 24
  | .hash => 128
  | .code => 4
  | .classical => 16
  | .cipher => 48
  | .payment => 4

/-- Credits a unit of the class brings (R17 [01]). -/
def unitCredits : UnitClass → Nat
  | .classical => 8
  | _ => 1

/-- Key of a unit in the map of units. -/
def unitKey (k : UnitClass) (u : Nat) : Nat := uclassNo k * 256 + u

/-- A unit before start-up has tested it: out of service. -/
def EUnit.reset : EUnit :=
  { st := .out, faults := 0, joinAt := 0, waiter := [], testEnd := 0, outAfter := false, testFor := none }

/-- Unit `u` of class `k`. -/
def Dev.unit (d : Dev) (k : UnitClass) (u : Nat) : EUnit := tget EUnit.reset d.sched.units (unitKey k u)

/-- The device with a unit changed. -/
def Dev.modUnit (d : Dev) (k : UnitClass) (u : Nat) (f : EUnit → EUnit) : Dev :=
  { d with sched := { d.sched with units := tset d.sched.units (unitKey k u) (f (d.unit k u)) } }

/-- Unit number of the fault collector's source of a unit (R410 [14]). -/
def unitSource : UnitClass → Nat
  | .hash => 0
  | .cipher => 128
  | .payment => 176
  | .lattice => 180
  | .classical => 204
  | .code => 220

/-- Power domain of a unit (domains 1 to 20 of R488 [18]; the order within them is the model's, log 15):
six Damask clusters, four Muslin groups, four Serge quads, two Tweed pairs, four Satin groups with a payment
unit each. -/
def unitDomain (k : UnitClass) (u : Nat) : Nat :=
  match k with
  | .lattice => 1 + u / 4
  | .hash => 7 + u / 32
  | .classical => 11 + u / 4
  | .code => 15 + u / 2
  | .cipher => 17 + u / 12
  | .payment => 17 + u

end Sys2Proof.Machine
end

