-- ==== Sys2Proof/Machine/Flits.lean ====
section
/-!
DEFINITION. Positions and ports of the Zenari Ring, and how a flit leaves a port (R351, R352 [12]).
-/
namespace Sys2Proof.Machine

/-- The device's position (R351). -/
def Dev.pos (d : Dev) : Nat := d.link.boardId.toNat

/-- COUNT and MASTER of the stored manifest header (R353). -/
def Dev.count (d : Dev) : Nat := field d.board.header 8 1
def Dev.firstMaster (d : Dev) : Nat := field d.board.header 9 1

/-- The vault holds a board domain key (R338). -/
def Dev.bound (d : Dev) : Bool := d.board.key.isSome

/-- Port `p`. -/
def Dev.port (d : Dev) (p : Nat) : Port := d.board.ports.getD p .reset

/-- The device with a port changed. -/
def modPort (p : Nat) (f : Port → Port) (d : Dev) : Dev :=
  { d with board := { d.board with ports := d.board.ports.set p (f (d.port p)) } }

/-! Flits (R352). -/

/-- Position of the neighbour on a port, whose other port it is cabled to (R351); an unbound device knows no COUNT
and takes eight. -/
def neighbour (d : Dev) (port : Nat) : Nat :=
  let n := if d.bound then d.count else 8
  if port = 0 then (d.pos + 1) % n else (d.pos + n - 1) % n

/-- The key of one port direction, from the sender's position and port and the receiver's position. -/
def linkKey (d : Dev) (sender port receiver : Nat) (nonces : Bytes) : Bytes :=
  kmac256 (d.board.key.getD []) (leBytes 1 sender ++ leBytes 1 port ++ leBytes 1 receiver ++ nonces) 32 "ORNATH-LINK"

/-- Type of the flit that carries a message. -/
def flitType : Emit → Nat
  | .timeFlit _ _ => 1
  | .tamperFlit _ _ _ => 2
  | .mirrorFlit _ _ _ _ _ => 3
  | .spillReqFlit _ _ => 4
  | .spillRespFlit _ _ _ => 5
  | .creditFlit _ _ _ _ => 6
  | .resyncFlit _ _ => 7
  | .replayFlit _ _ => 7
  | .bindFlit _ _ => 8
  | .boardEntryFlit _ _ => 9
  | .forwardFlit _ h => h.typ
  | _ => 10

/-- Its destination: the neighbour for what passes between two devices, else all. -/
def flitDst (d : Dev) (p : Nat) (e : Emit) : Nat :=
  match e with
  | .forwardFlit _ h => h.dst
  | _ => if [4, 5, 6, 7].contains (flitType e) then neighbour d p else 0xFF

/-- A flit leaves on a port that is UP; before binding, only bind and link-control flits do (`plain`). Its LINK_SEQ
is the previous one plus 1, and its nonce is made of the sender's position, the port and LINK_SEQ. -/
def sendOn (p : Nat) (plain : Bool) (e : Emit) (d : Dev) : Dev :=
  let x := d.port p
  if x.link == .up || (plain && x.link == .upUnbound) then
    let h : FlitHdr :=
      match e with
      | .forwardFlit _ h => { h with linkSeq := x.txSeq + 1 }
      | _ => { typ := flitType e, src := d.pos, dst := flitDst d p e, hops := 7, used := 96, linkSeq := x.txSeq + 1,
               tagOk := true }
    emit e (emit (.flit p h (leBytes 1 d.pos ++ leBytes 1 p ++ zeros 2 ++ leBytes 8 (x.txSeq + 1)))
      (modPort p (fun x => { x with txSeq := x.txSeq + 1 }) d))
  else d

/-- A flit sent both ways round the ring. -/
def sendBoth (plain : Bool) (e : Nat → Emit) (d : Dev) : Dev :=
  sendOn 1 plain (e 1) (sendOn 0 plain (e 0) d)

end Sys2Proof.Machine
end

