-- ==== Sys2Proof/Machine/LedgerOps.lean ====
section
/-!
DEFINITION. Operations on the key ledger: handles and generations, states of an entry, references, children,
allocation, cascades, attribute records ([05]).
-/
namespace Sys2Proof.Machine

/-- Entries of the ledger (R140). -/
def ledgerSize : Nat := 131072

/-- An entry that has not been used since start-up; its generation is the one drawn (R141). -/
def blankEntry (gen : Nat) : Entry :=
  { st := .free, gen := gen, owner := 0, typ := 0, subtype := 0, usage := 0, flags := 0, depth := 0,
    useLimit := 0, useCount := 0, activation := 0, expiry := 0, parent := 0, epoch := 0, kcv := [],
    material := [], pub := [], matLen := 0, units := 0, shadow := none, cascaded := false,
    next := 0, ceiling := 0, pend := none, cache := false, treeTo := 0, tagBad := false }

/-- Entry `i` of the ledger. -/
def Dev.ent (d : Dev) (i : Nat) : Entry :=
  tget (blankEntry (Config.bootGen d.led.boot i % 32767 + 1)) d.led.entries i

/-- The device with entry `i` replaced. -/
def setEnt (i : Nat) (e : Entry) (d : Dev) : Dev :=
  { d with led := { d.led with entries := tset d.led.entries i e } }

/-- The device with entry `i` changed. -/
def modEnt (i : Nat) (f : Entry → Entry) (d : Dev) : Dev := setEnt i (f (d.ent i)) d

/-- The generation after one (R140): from 32,767 to 1. -/
def stepGen (g : Nat) : Nat := if g = 32767 then 1 else g + 1

/-- The handle of index `i` at generation `g` (R125 [04], R140). -/
def handleOf (i g : Nat) : Nat := g * 131072 + i

/-- Index and generation of a handle. -/
def hIdx (h : Nat) : Nat := h % 131072
def hGen (h : Nat) : Nat := h / 131072 % 32768

/-- Indices listed in the ledger that satisfy a test. -/
def entIdx (d : Dev) (p : Nat → Entry → Bool) : List Nat :=
  (d.led.entries.filter (fun e => p e.1 e.2)).map (·.1)

/-- LEDGER_USED of a slice ([02]): entries PENDING, ACTIVE or DRAINING. -/
def ledgerUsed (d : Dev) (s : Nat) : Nat := (entIdx d (fun _ e => e.owner == s && e.st != .free)).length

/-- References of an entry (R144): commands from resolution to completion, and open streams. -/
def refs (d : Dev) (i : Nat) : Nat :=
  (d.cmds.filter (fun c => c.inFlight && c.keys.any (·.idx == i))).length
    + (d.slices.map (fun e => (e.2.streams.filter (fun t => t.keys.any (·.idx == i))).length)).sum

/-- Entries whose PARENT names entry `i` and that are not FREE (R145). -/
def childIdx (d : Dev) (i : Nat) : List Nat :=
  entIdx d (fun _ e => e.parent != 0 && hIdx e.parent == i && e.st != .free)

/-- CHILDREN of an entry. -/
def children (d : Dev) (i : Nat) : Nat := (childIdx d i).length

/-- Entry `i` set FREE, its material wiped; an ACTIVE one takes its next generation (R140, R143). The index goes
to the end of the free list (R142); a mirror identifier no longer names it (R357 [12]). -/
def freeEnt (i : Nat) (d : Dev) : Dev :=
  let e := d.ent i
  if e.st = .free then d
  else
    let d := setEnt i (blankEntry (if e.st = .active then stepGen e.gen else e.gen)) d
    { d with led := { d.led with freed := d.led.freed ++ [i], matrix := d.led.matrix.filter (·.1 != i) },
             board := { d.board with midTable := d.board.midTable.filter (·.2 != i) } }

/-- An ACTIVE entry set DRAINING with its next generation (R140, R143); its cached matrix is dropped (R175). -/
def drainEnt (i : Nat) (d : Dev) : Dev :=
  let e := d.ent i
  if e.st = .active then
    let d := setEnt i { e with st := .draining, gen := stepGen e.gen } d
    { d with led := { d.led with matrix := d.led.matrix.filter (·.1 != i) },
             board := { d.board with midTable := d.board.midTable.filter (·.2 != i) } }
  else d

/-- One pass over the DRAINING entries: one without references is wiped (R144), and one that also has no
children becomes FREE (R143, R166). -/
def sweepOnce (d : Dev) : Dev :=
  forEach (entIdx d (fun _ e => e.st == .draining)) (fun i d =>
    if refs d i = 0 then
      if children d i = 0 then freeEnt i d
      else modEnt i (fun e => { e with material := [] }) d
    else d) d

/-- References or children have ended: as many passes as a chain of parents is deep (DEPTH is at most 8). -/
def sweep (d : Dev) : Dev := (List.range 9).foldl (fun d _ => sweepOnce d) d

/-- The free index that has been free longest (R142). -/
def nextFree (d : Dev) : Option Nat :=
  if d.led.fresh < ledgerSize then some d.led.fresh else d.led.freed.head?

/-- Index `i` taken from the free list. -/
def takeFree (i : Nat) (d : Dev) : Dev :=
  if d.led.fresh = i then { d with led := { d.led with fresh := d.led.fresh + 1 } }
  else { d with led := { d.led with freed := d.led.freed.filter (· != i) } }

/-- LEDGER_USED has reached the quota: QUOTA_EVENT and vector 480 (R83 [02]). -/
def noteQuota (s : Nat) (d : Dev) : Dev :=
  if ledgerUsed d s ≥ (d.slice s).cfg.quota && !d.link.quotaEvent.getLsbD s then
    raisePf0 480 { d with link := { d.link with quotaEvent := d.link.quotaEvent ||| (1#256 <<< s) } }
  else d

/-- A new PENDING entry of slice `s`, or none when its quota is used or the ledger is full (R152). -/
def allocEnt (s : Nat) (e : Entry) (d : Dev) : Option (Nat × Dev) :=
  if ledgerUsed d s ≥ (d.slice s).cfg.quota then none
  else
    match nextFree d with
    | none => none
    | some i =>
      let g := (d.ent i).gen
      some (i, noteQuota s (takeFree i (setEnt i { e with st := .pending, gen := g, owner := s } d)))

/-- Units of 4 KiB that material of `n` bytes takes in the large-key store; inline material takes none (R146,
R147). -/
def bigUnits (n : Nat) : Nat := if n ≤ 64 then 0 else cdiv n 4096

/-- Units of the large-key store a slice holds: its keys' and its staged inputs' (R147, R251 [08]). -/
def unitsUsed (d : Dev) (s : Nat) : Nat :=
  ((d.led.entries.filter (fun e => e.2.owner == s && e.2.st != .free)).map (·.2.units)).sum
    + ((d.cmds.filter (·.slice == s)).map (·.stageUnits)).sum

/-- Units a slice may hold (R147): 8 GiB × quota / 131,072, in whole units. -/
def unitsAllowed (d : Dev) (s : Nat) : Nat := 0x200000000 * (d.slice s).cfg.quota / 131072 / 4096

/-- Descendants of an entry in its slice, to any depth: a pass adds the children of those found. -/
def descend (d : Dev) (i : Nat) : List Nat :=
  (List.range 8).foldl (fun l _ => (l ++ l.flatMap (childIdx d)).eraseDups) (childIdx d i)

/-- A waiting shadow of an index is wiped and freed (R163). -/
def dropShadow (i : Nat) (d : Dev) : Dev :=
  match (d.ent i).shadow with
  | none => d
  | some j => modEnt i (fun e => { e with shadow := none, flags := e.flags &&& 0xFF9F }) (freeEnt j d)

/-- A cascade reaches an entry (R165): it is marked, so that no child can be made of it from then on; an ACTIVE one
drains, with its shadow, and counts. -/
def cascadeTo (r : Nat × Dev) (j : Nat) : Nat × Dev :=
  let mark (d : Dev) : Dev := modEnt j (fun e => { e with cascaded := true }) d
  match (r.2.ent j).st with
  | .active => (r.1 + 1, mark (drainEnt j (dropShadow j r.2)))
  | .free => r
  | _ => (r.1, mark r.2)

/-- A cascade reaches every descendant of `i`, and marks `i` itself (R165). The number of entries set DRAINING below
it. -/
def cascade (i : Nat) (d : Dev) : Nat × Dev :=
  (descend d i).foldl cascadeTo (0, modEnt i (fun e => { e with cascaded := true }) d)

/-- A cascade has marked the parent of an entry, and the stamp is of that life of it (R165). -/
def parentMarked (d : Dev) (e : Entry) : Bool :=
  e.parent != 0 && (d.ent (hIdx e.parent)).cascaded && (d.ent (hIdx e.parent)).gen == stepGen (hGen e.parent)

/-- KEY_DESTROY, KEY_REVOKE, KEY_REPLACE and KEY_RESTRICT (R155 [05]). -/
def isKeyMgmt (o : Op) : Bool := o == .keyDestroy || o == .keyRevoke || o == .keyReplace || o == .keyRestrict

/-- The opcodes that act on an entry and not on its material: resolution makes check 1 alone (R154; SCHED_ADD by R344
[12]). -/
def checkOneOnly (o : Op) : Bool := isKeyMgmt o || o == .keyAttrGet || o == .schedAdd

/-- The verified shadow is swapped in (step 3 of R162): the index keeps its attributes, handle and links, takes
the new material, and the old material moves to the shadow entry, which drains with the references to it. Commands
that act on the entry itself keep the index (R177). -/
def swapShadow (i : Nat) (d : Dev) : Dev :=
  match (d.ent i).shadow with
  | none => d
  | some j =>
    let e := d.ent i
    let n := d.ent j
    let d := setEnt i { e with material := n.material, pub := n.pub, kcv := n.kcv, matLen := n.matLen,
                               units := n.units, epoch := e.epoch + 1, useCount := 0, shadow := none, tagBad := false,
                               flags := e.flags &&& 0xFF9F } d
    let d := setEnt j { n with st := .draining, material := e.material, pub := e.pub, kcv := e.kcv,
                               matLen := e.matLen, units := e.units, parent := 0 } d
    let mv (k : KeyRes) : KeyRes := if k.idx = i then { k with idx := j } else k
    let d := mapCmds (fun c => if checkOneOnly c.op then c else { c with keys := c.keys.map mv }) d
    let mvS (t : Stream) : Stream := { t with keys := t.keys.map mv }
    let mvL (e : Nat × Slice) : Nat × Slice := (e.1, { e.2 with streams := e.2.streams.map mvS })
    let d := { d with slices := d.slices.map mvL,
                      led := { d.led with matrix := d.led.matrix.filter (·.1 != i) } }
    sweep d

/-- Every entry that satisfies a test set FREE (R143). -/
def freeWhere (p : Entry → Bool) (d : Dev) : Dev :=
  forEach (entIdx d (fun _ e => e.st != .free && p e)) freeEnt d

/-- Code of an entry state (R143). -/
def entStCode : EntState → Nat
  | .free => 0
  | .pending => 1
  | .active => 2
  | .draining => 3

/-- The attribute record of an entry that stands at index `i` (R145); a FREE index shows HANDLE and STATE only. -/
def entryRecord (d : Dev) (i : Nat) (e : Entry) : Bytes :=
  let h := leBytes 4 (handleOf i e.gen)
  if e.st = .free then h ++ zeros 60
  else
    h ++ leBytes 1 (entStCode e.st) ++ leBytes 1 e.owner ++ leBytes 1 e.typ ++ leBytes 1 e.subtype
      ++ leBytes 4 e.usage ++ leBytes 2 e.flags.toNat ++ leBytes 1 e.depth ++ zeros 1
      ++ leBytes 4 e.useLimit ++ leBytes 4 e.useCount ++ leBytes 8 e.activation ++ leBytes 8 e.expiry
      ++ leBytes 4 e.parent ++ leBytes 4 e.epoch ++ fit 3 e.kcv ++ zeros 1 ++ leBytes 4 e.matLen
      ++ leBytes 4 (refs d i) ++ leBytes 4 (children d i)

/-- The attribute record of index `i` (R145). -/
def attrRecord (d : Dev) (i : Nat) : Bytes := entryRecord d i (d.ent i)

/-- FLAGS bits of R145. -/
def fExpireOnReset : BitVec 16 := 0x01
def fCacheMatrix : BitVec 16 := 0x02
def fMirrored : BitVec 16 := 0x04
def fPublicOnly : BitVec 16 := 0x08
def fExternal : BitVec 16 := 0x10
def fShadowPending : BitVec 16 := 0x20
def fShadowWaiting : BitVec 16 := 0x40
def fStateful : BitVec 16 := 0x80

/-- The key carries a flag. -/
def Entry.has (e : Entry) (f : BitVec 16) : Bool := e.flags &&& f != 0

/-- Usage bit numbers of R149. -/
def uENCRYPT := 0
def uDECRYPT := 1
def uSIGN := 2
def uVERIFY := 3
def uMACGEN := 4
def uMACVERIFY := 5
def uWRAP := 6
def uUNWRAP := 7
def uDERIVE := 8
def uENCAPS := 9
def uDECAPS := 10
def uAGREE := 11
def uEXPORTBLOB := 12
def uEXPORTWRAPPED := 13
def uMIRROR := 14
def uPININ := 16
def uPINOUT := 17
def uPVVGEN := 18
def uPVVVERIFY := 19
def uCVCGEN := 20
def uCVCVERIFY := 21
def uARQCVERIFY := 22
def uARPCGEN := 23
def uDUKPT := 24
def uKBPKWRAP := 25
def uKBPKUNWRAP := 26

/-- The key may be used in this way. -/
def Entry.may (e : Entry) (u : Nat) : Bool := e.usage.testBit u

end Sys2Proof.Machine
end

