-- ==== Sys2Proof/Machine/Audit.lean ====
section
/-!
DEFINITION. The audit ring of a slice: records, chain, reserve, gaps, seals (R388 to R393, R507 [13], R221 [07]).
-/
namespace Sys2Proof.Machine

/-- Bytes 0x10 to 0x2F of a record (R390). -/
structure AuditBody where
  kind : Nat
  qid : Nat
  opcode : Nat
  status : Nat
  param : Nat
  rflags : Nat
  tag : Nat
  keys : List Nat
  detail : Bytes
deriving DecidableEq, Repr

/-- A record of a kind with only a DETAIL (R507). -/
def auditPlain (kind opcode : Nat) (detail : Bytes) : AuditBody :=
  { kind := kind, qid := 0, opcode := opcode, status := 0, param := 0, rflags := 0, tag := 0, keys := [],
    detail := detail }

/-- The 48 bytes of a record that the chain covers. -/
def auditBytes (seq time : Nat) (b : AuditBody) : Bytes :=
  leBytes 8 seq ++ leBytes 8 time ++ leBytes 1 b.kind ++ leBytes 1 b.qid ++ leBytes 2 b.opcode
    ++ leBytes 2 b.status ++ leBytes 1 b.param ++ leBytes 1 b.rflags ++ leBytes 4 b.tag
    ++ leBytes 4 (b.keys.getD 0 0) ++ leBytes 4 (b.keys.getD 1 0) ++ leBytes 4 (b.keys.getD 2 0)
    ++ fit 8 b.detail

/-- The chain value after a record (R221 [07]). -/
def chainNext (c rec48 : Bytes) : Bytes := (sha3_256 (c ++ rec48)).take 16

/-- Records that lie in the ring and are not acknowledged. -/
def AuditRing.inRing (r : AuditRing) : Nat := r.next - r.heldRecs.length - r.acked

/-- Free records of the ring, those reserved for commands taken off (R389). -/
def AuditRing.room (r : AuditRing) : Nat := r.depth - r.inRing - r.reserved

/-- The SEQ up to which the head may go: it passes a seal only once its signature is written (R392). -/
def AuditRing.headLimit (r : AuditRing) : Nat :=
  (r.owed.map (·.1)).foldl min (r.next - r.heldRecs.length)

/-- The head word written when it moves (R388, R51 [02]). -/
def auditPublish (s : Nat) (d : Dev) : Dev :=
  let r := (d.custody s).audit
  if r.configured && r.head != r.headLimit then
    hostWrite s r.pasidSlot r.headAddr (leBytes 8 r.headLimit)
      (d.modCust s (fun c => { c with audit := { c.audit with head := c.audit.headLimit } }))
  else d

/-- A record placed in its ring slot: SEQ mod RING_DEPTH (R388). -/
def auditPlace (s : Nat) (rec64 : Bytes) (d : Dev) : Dev :=
  let r := (d.custody s).audit
  hostWrite s r.pasidSlot (r.base + 64 * (leNat (rec64.take 8) % r.depth)) rec64 d

/-- A record made: its SEQ and chain taken, then written to the ring, or held in the reserve. The chain's steps take no
lane credit and no time (log 61). -/
def auditMake (s : Nat) (b : AuditBody) (d : Dev) : Dev :=
  let r := (d.custody s).audit
  let body := auditBytes r.next d.devTime b
  let c := chainNext r.chain body
  let r1 := { r with next := r.next + 1, chain := c,
                     sinceSeal := if b.kind = 4 then 0 else r.sinceSeal + 1 }
  if r.configured && r.heldRecs.isEmpty && decide (r.inRing < r.depth) then
    auditPublish s (auditPlace s (body ++ c) (d.modCust s (fun x => { x with audit := r1 })))
  else d.modCust s (fun x => { x with audit := { r1 with heldRecs := r.heldRecs ++ [body ++ c] } })

/-- A record the device originates, or of a command that never waits: beyond the reserve of 64 it is counted
for a GAP record (R389). -/
def auditOwn (s : Nat) (b : AuditBody) (d : Dev) : Dev :=
  let r := (d.custody s).audit
  if !r.started then d
  else if (r.configured && r.heldRecs.isEmpty && decide (0 < r.room)) || decide (r.heldRecs.length < 64) then
    auditMake s b d
  else d.modCust s (fun x => { x with audit := { x.audit with gap := x.audit.gap + 1 } })

/-- The record of a command whose record was reserved at key resolution (R389). -/
def auditCmd (s : Nat) (b : AuditBody) (d : Dev) : Dev :=
  auditMake s b (d.modCust s (fun x => { x with audit := { x.audit with reserved := x.audit.reserved - 1 } }))

/-- Held records written to the ring in SEQ order while it has room, then the GAP record (R389, R391). -/
def auditFlush (s : Nat) (d : Dev) : Dev :=
  let r := (d.custody s).audit
  let n := min r.heldRecs.length (r.depth - r.inRing)
  if !r.configured then d
  else
    let d := forEach (r.heldRecs.take n) (auditPlace s)
      (d.modCust s (fun x => { x with audit := { x.audit with heldRecs := x.audit.heldRecs.drop n } }))
    let r := (d.custody s).audit
    let d := if r.gap > 0 && r.heldRecs.isEmpty && r.room > 0 then
        auditMake s (auditPlain 5 0 (leBytes 8 r.gap))
          (d.modCust s (fun x => { x with audit := { x.audit with gap := 0 } }))
      else d
    auditPublish s d

/-- Label of a slice's chain: C_0 and the START record (R391). -/
def auditStart (s : Nat) (mkId : Bytes) (d : Dev) : Dev :=
  let c0 := (sha3_256 (ascii "ORNATH-AUDIT-1" ++ leBytes 1 s ++ mkId ++ d.led.bootId)).take 16
  auditMake s (auditPlain 6 0 d.led.bootId)
    (d.modCust s (fun x => { x with audit := { AuditRing.reset with started := true, chain := c0 } }))

/-- A seal record (R392): its signature, under the audit key of the moment, is owed. The seal's number. -/
def auditSealNow (s opcode : Nat) (d : Dev) : Nat × Dev :=
  let c := d.custody s
  let r := c.audit
  let key := match c.master with
    | some k => kmac256 k.key [] 32 "ORNATH-AUDITKEY"
    | none => []
  let b := auditPlain 4 opcode (leBytes 8 r.sealNo)
  let body := auditBytes r.next d.devTime b
  let rec64 := body ++ chainNext r.chain body
  let d := d.modCust s (fun x => { x with audit := { x.audit with
    sealNo := x.audit.sealNo + 1, owed := x.audit.owed ++ [(r.next, r.sealNo, rec64, key)] } })
  (r.sealNo, auditMake s b d)

/-! The event log (R413 [14]). -/

/-- A Linen vector becomes pending (R449 [16]). -/
def linenPend (v : Nat) (d : Dev) : Dev :=
  { d with linen := { d.linen with ipend := d.linen.ipend ||| (1#64 <<< v) } }

/-- FC_FIRST_INFO of a fault (R412): MASTER_ID names the slice and sequencer of the command, if any. -/
def firstInfoOf (src cls access : Nat) (master : Option Nat) : BitVec 32 :=
  0x80000000 ||| (BitVec.ofNat 32 cls <<< 29) ||| (BitVec.ofNat 32 (if access < 8 then access else 0) <<< 25) ||| (BitVec.ofNat 32 src <<< 16)
    ||| BitVec.ofNat 32 (master.getD 0xFFFF)

/-- Fault source 418, CORRECTED: a record of the log has been overwritten before it was read (R413). It is counted, fills
FC_FIRST where that is empty, and interrupts Linen; a record of its own would lap another one and is not written
(DEDUCED, log 35). -/
def raiseOverflow (d : Dev) : Dev :=
  let p := d.prot
  let p := { p with overwritten := p.overwritten + 1, corrCount := min (2 ^ 32 - 1) (p.corrCount + 1) }
  let p := if p.firstInfo.getLsbD 31 then p
    else { p with firstInfo := firstInfoOf 418 1 0 none, firstAddr := 0, firstTime := d.devTime }
  linenPend 24 { d with prot := p }

/-- An event stamped and logged (R413). -/
def logEvent (typ level source : Nat) (detail : Bytes) (d : Dev) : Dev :=
  let p := d.prot
  let slot := p.esn % 512
  let lapped := match tfind p.log slot with
    | some r => !r.read
    | none => false
  let d := { d with prot := { p with
    log := tset p.log slot { esn := p.esn, typ := typ, level := level, source := source, time := d.devTime,
                             detail := fit 16 detail, read := false },
    esn := (p.esn + 1) % 2 ^ 32 } }
  if lapped then raiseOverflow d else d

/-- A device-event record in slice 0's audit ring (R397 [14], R507 [13]): source, level, event TYPE, ESN. -/
def auditEvent (typ level source esn : Nat) (d : Dev) : Dev :=
  auditOwn 0 (auditPlain 3 0 (leBytes 2 source ++ leBytes 1 level ++ leBytes 1 typ ++ leBytes 4 esn)) d

end Sys2Proof.Machine
end

