-- ==== Sys2Proof/Machine/Cmds.lean ====
section
/-!
DEFINITION. Opcodes, status codes, and the end of a command: its record, its abort, its removal ([01], [04]).
-/
namespace Sys2Proof.Machine

/-- Status codes (R139 [04]). -/
def statusCode : Status → Nat
  | .ok => 0x0000
  | .okRetried => 0x0001
  | .okClamped => 0x0002
  | .segmentAccepted => 0x0003
  | .verifyFail => 0x0010
  | .opcodeUnknown => 0x1001
  | .packetMalformed => 0x1002
  | .paramUnsupported => 0x1003
  | .notBeforeRange => 0x1004
  | .lengthMismatch => 0x1203
  | .overlapInvalid => 0x1204
  | .rightsDenied => 0x1205
  | .pasidUnbound => 0x1206
  | .exchangeNotOwned => 0x1207
  | .streamStateInvalid => 0x1208
  | .keyHandleStale => 0x2101
  | .keyUsageDenied => 0x2102
  | .keyUseExhausted => 0x2103
  | .keyExpired => 0x2104
  | .keySigExhausted => 0x2105
  | .keyCheckFail => 0x2106
  | .keyParentRevoked => 0x2107
  | .keyNotYetActive => 0x2110
  | .keyBlobInvalid => 0x2111
  | .inputInvalid => 0x3101
  | .authFail => 0x3102
  | .quorumMissing => 0x4001
  | .approvalInvalid => 0x4002
  | .lifecycleRefused => 0x4003
  | .policyRefused => 0x4004
  | .modeRefused => 0x4010
  | .sliceStateInvalid => 0x4011
  | .fieldRejected => 0x4012
  | .tokenInvalid => 0x4013
  | .resourceQuota => 0x5001
  | .streamLimit => 0x5002
  | .schedTableFull => 0x5003
  | .pasidInUse => 0x5004
  | .engineUnavailable => 0x5005
  | .aborted => 0x6001
  | .faultDetected => 0x6002
  | .invariantFail => 0x6003
  | .keysErased => 0x6004
  | .deviceStarting => 0x6010
  | .patchRequired => 0x6011
  | .entropyFail => 0x6012
  | .dmaBusError => 0x6101
  | .dmaLateError => 0x6102
  | .mirrorDiverged => 0x7001
  | .ringNotBound => 0x7002
  | .timeUnlocked => 0x7003

/-- The catalogue of R136 [04]. -/
def opTable : List (Nat × Op) := List.flatten [
  [(0x0101, .sliceCreate), (0x0102, .sliceConfigure), (0x0103, .sliceDestroy), (0x0104, .pasidBind), (0x0105, .pasidUnbind), (0x0106, .slicePause), (0x0107, .sliceResume), (0x0108, .engineService)],
  [(0x010C, .tamperPolicySet), (0x0109, .patchLoad), (0x010A, .moduleLoad), (0x010B, .policyLoad), (0x0201, .keyGenerate), (0x0202, .keyImportBlob), (0x0203, .keyExportBlob), (0x0204, .keyDestroy)],
  [(0x0205, .keyReplace), (0x0206, .keyRevoke), (0x0207, .keyDerive), (0x0208, .keyAttrGet), (0x0209, .keyRestrict), (0x020A, .keyWrap), (0x020B, .keyUnwrap), (0x020C, .keyPublicGet)],
  [(0x0301, .mlkemKeygen), (0x0302, .mlkemEncaps), (0x0303, .mlkemDecaps), (0x0311, .mldsaKeygen), (0x0312, .mldsaSign), (0x0313, .mldsaVerify), (0x0321, .fndsaKeygen), (0x0322, .fndsaSign)],
  [(0x0323, .fndsaVerify), (0x0331, .hybridKemEncaps), (0x0332, .hybridKemDecaps), (0x0341, .compositeSign), (0x0342, .compositeVerify), (0x0401, .hash), (0x0402, .xof), (0x0403, .hmacGen)],
  [(0x0404, .hmacVerify), (0x0405, .kmacGen), (0x0406, .kmacVerify), (0x0411, .slhdsaKeygen), (0x0412, .slhdsaSign), (0x0413, .slhdsaVerify), (0x0421, .lmsKeygen), (0x0422, .lmsSign)],
  [(0x0423, .lmsVerify), (0x0424, .lmsReserve), (0x0431, .xmssKeygen), (0x0432, .xmssSign), (0x0433, .xmssVerify), (0x0434, .xmssReserve), (0x0501, .hqcKeygen), (0x0502, .hqcEncaps)],
  [(0x0503, .hqcDecaps), (0x0511, .mceKeygen), (0x0512, .mceEncaps), (0x0513, .mceDecaps), (0x0601, .rsaKeygen), (0x0602, .rsaSign), (0x0603, .rsaVerify), (0x0604, .rsaEncrypt)],
  [(0x0605, .rsaDecrypt), (0x0611, .ecKeygen), (0x0612, .ecdsaSign), (0x0613, .ecdsaVerify), (0x0614, .ecdh), (0x0621, .eddsaSign), (0x0622, .eddsaVerify), (0x0631, .xdh)],
  [(0x0701, .encrypt), (0x0702, .decrypt), (0x0703, .aeadEncrypt), (0x0704, .aeadDecrypt), (0x0705, .macGen), (0x0706, .macVerify), (0x0707, .random), (0x0801, .pinTranslate)],
  [(0x0802, .pvvGenerate), (0x0803, .pvvVerify), (0x0804, .cvcGenerate), (0x0805, .cvcVerify), (0x0811, .dukptAesTranslate), (0x0812, .dukptTdesTranslate), (0x0813, .dukptMacVerify), (0x0814, .ipekDerive)],
  [(0x0821, .arqcVerify), (0x0822, .arpcGenerate), (0x0831, .retailMacGen), (0x0832, .retailMacVerify), (0x0841, .keyblockImport), (0x0842, .keyblockExport), (0x0901, .timeRead), (0x0902, .schedAdd)],
  [(0x0903, .schedCancel), (0x0904, .schedList), (0x0A01, .boardBind), (0x0A02, .ringStatus), (0x0A03, .mirrorPut), (0x0A04, .mirrorRemove), (0x0A05, .spillConfig), (0x0B01, .lcTransition)],
  [(0x0B02, .identityAttest), (0x0B03, .debugChallenge), (0x0B04, .approvalNonce), (0x0B05, .custodianAdd), (0x0B06, .custodianRemove), (0x0B07, .quorumPolicySet), (0x0B08, .componentImport), (0x0B09, .masterKeyChange)],
  [(0x0B0A, .masterKeyExport), (0x0B0B, .masterKeyImport), (0x0B0C, .auditConfig), (0x0B0D, .auditSeal), (0x0B0E, .auditReset), (0x0B0F, .sliceDecommission), (0x0C01, .selfTest), (0x0C02, .katRun)],
  [(0x0C03, .entropyStatus), (0x0C04, .echo), (0x0C05, .faultInject)]]

/-- The operation of an assigned opcode. -/
def opOfCode (n : Nat) : Option Op := (opTable.find? (fun e => e.1 == n)).map (·.2)

/-- The opcode of an operation; of a module's, the packet gives it. -/
def opCode (o : Op) : Nat := ((opTable.find? (fun e => e.2 == o)).map (·.1)).getD 0

/-- An outcome without outputs or RESULT. -/
def bare (st : Status) : Outcome := { status := st, outs := [], result := [] }

/-- RFLAGS of a command's record (R134 [04]). -/
def Cmd.rflags (c : Cmd) : Nat := 4 * b2n c.wasHeld + 2 * b2n c.ranAway + b2n c.push.isSome

/-- The 32-byte completion record (R134 [04]). -/
def Cmd.record (c : Cmd) : Bytes :=
  let o := c.outcome.getD (bare .ok)
  leBytes 4 c.pkt.tag ++ leBytes 2 (statusCode o.status) ++ leBytes 1 c.qk ++ leBytes 1 c.rflags
    ++ leBytes 4 c.pos ++ leBytes 4 c.outLen ++ fit 8 o.result ++ leBytes 8 c.time

/-- What the engine memories and the sequencer held for a command, wiped (R35 [01], R179, R264, R419). -/
def wipeJob (id : Nat) (d : Dev) : Dev :=
  { d with micro := { d.micro with jobs := tdel d.micro.jobs id,
                                   ctxs := d.micro.ctxs.filter (fun e => e.2.cmd != id) } }

/-- Time of the wipe of a unit, in ns (R179 [06], R214 [07], R241 [08], R264 [09], R286 [10]). -/
def wipeNs : UnitClass → Nat
  | .lattice => 342
  | .hash => 26
  | .code => 2048
  | .classical => 800
  | .cipher => 8
  | .payment => 0

/-- The credits that a command holds return when the wipe of its units has ended: of a job ended before its time, or of a
lane that waited for the release of its outputs (R288 [10]). -/
def wipeUnits (c : Cmd) (d : Dev) : Dev :=
  let l := (c.units.filter (fun h => decide (d.clk < h.till))).map (fun h => { h with till := d.clk + wipeNs h.cls })
  { d with sched := { d.sched with wiping := d.sched.wiping.filter (fun h => decide (d.clk < h.till)) ++ l } }

/-- A stream of a slice discarded (R133 [04]). -/
def dropStream (s sid : Nat) (d : Dev) : Dev :=
  d.modSlice s (fun x => { x with streams := x.streams.filter (fun t => t.sid != sid) })

/-- FLAGS.SEG of a packet (R120 [04]). -/
def Packet.segf (p : Packet) : Nat := bits p.flags.toNat 5 4

/-- STREAM_ID of a segment (R131 [04]). -/
def Packet.sid (p : Packet) : Nat := field p.body 0 1

/-- The open stream a segment belongs to: same STREAM_ID, same queue (R132, R133 [04]). -/
def streamOf (d : Dev) (c : Cmd) : Option Stream :=
  if c.pkt.segf = 0 then none
  else (d.slice c.slice).streams.find? (fun t => t.sid == c.pkt.sid && t.queue == c.qk)

/-- The PENDING entry of a command that fails is wiped and freed (R159 [05]); of a replacement, with its mark
on the index. -/
def freePendingOf (c : Cmd) (d : Dev) : Dev :=
  match c.entry, c.op, c.keys.head? with
  | some _, .keyReplace, some k => dropShadow k.idx d
  | some i, _, _ => if (d.ent i).st = .pending then freeEnt i d else d
  | none, _, _ => d

/-- A reservation undone: the entry's one-time index state returns to what it was, but for the indices that signatures
have taken meanwhile, which CEILING never falls below (R232 [07]). -/
def undoReserve (c : Cmd) (d : Dev) : Dev :=
  match c.undo with
  | some (i, e) =>
    modEnt i (fun x => { x with ceiling := max e.ceiling (min x.next x.ceiling), pend := e.pend, cache := e.cache,
                                treeTo := e.treeTo }) d
  | none => d

/-- The audit record of a command that completes (R390, R391 [13]). -/
def auditOf (c : Cmd) (d : Dev) : Dev :=
  let o := c.outcome.getD (bare .ok)
  let b : AuditBody :=
    { kind := 1, qid := c.qk, opcode := c.pkt.opcode, status := statusCode o.status,
      param := c.pkt.param.toNat, rflags := c.rflags, tag := c.pkt.tag, keys := c.pkt.keys,
      detail := (o.detail.or c.token).getD o.result }
  if c.audit = 1 then auditCmd c.slice b d
  else if c.audit = 2 then auditOwn c.slice b d
  else d

/-- The command's record enters the reorder pool: TIME is device time, its references and holdings end, its
stream is discarded where R133 says so (R134, R144, R133). -/
def toPool (c : Cmd) (d : Dev) : Dev :=
  let o := c.outcome.getD (bare .ok)
  match c.foreign with
  | some f =>
    -- A command run for a neighbour holds no slot: its outcome goes back to the origin (R362 [12]).
    sweep (wipeUnits c (emit (.spillRespFlit f.port f.req.id (.ran (statusCode o.status) o.outs o.result))
      { d with cmds := d.cmds.filter (fun e => e.id != c.id) }))
  | none =>
  let d := wipeUnits c d
  let c' := { c with stage := .done, time := d.devTime, units := [], relUnits := 0, stageUnits := 0,
                     saved := none, chan := none }
  let d := auditOf c' (setCmd c' d)
  let d := if c.pkt.segf = 0 then d
    else if o.status = .segmentAccepted then
      d.modSlice c.slice (fun x => { x with streams := x.streams.map (fun t =>
        if t.sid = c.pkt.sid && t.queue = c.qk then { t with lastAt := d.clk } else t) })
    else if (streamOf d c).isSome then dropStream c.slice c.pkt.sid d
    else d
  sweep d

/-- Execution has finished with an outcome; the results stage follows (R20 [01]). -/
def conclude (id : Nat) (o : Outcome) (d : Dev) : Dev :=
  match findCmd d id with
  | none => d
  | some c => setCmd { c with outcome := some o, stage := .results } d

/-- A command in flight ended by the device with a status: what it held is wiped, no output is written, and its
record enters the pool (R35 [01]). -/
def abortWith (st : Status) (id : Nat) (d : Dev) : Dev :=
  match findCmd d id with
  | none => d
  | some c =>
    if c.stage = .done then d
    else toPool { c with outcome := some (bare st), outLen := 0, entry := none, undo := none }
           (wipeJob id (undoReserve c (freePendingOf c d)))

/-- A command removed without a record: its slot is freed (R52, R67, R90, R117). -/
def dropCmd (id : Nat) (d : Dev) : Dev :=
  match findCmd d id with
  | none => d
  | some c =>
    let d := wipeUnits c (wipeJob id (if c.stage = .done then d else undoReserve c (freePendingOf c d)))
    let d := if c.pkt.segf != 0 && (streamOf d c).isSome then dropStream c.slice c.pkt.sid d else d
    let d := if c.audit = 1 && c.stage != .done then
        d.modCust c.slice (fun x => { x with audit := { x.audit with reserved := x.audit.reserved - 1 } })
      else d
    { d with cmds := d.cmds.filter (fun e => e.id != id) }

/-- Every command that satisfies a test aborted with a status. -/
def abortWhere (p : Cmd → Bool) (st : Status) (d : Dev) : Dev :=
  forEach ((d.cmds.filter (fun c => c.inFlight && p c)).map (·.id)) (abortWith st) d

/-- Every command that satisfies a test removed. -/
def dropWhere (p : Cmd → Bool) (d : Dev) : Dev :=
  sweep (forEach ((d.cmds.filter p).map (·.id)) dropCmd d)

/-- A command whose execution has begun on engines or sequencers. -/
def Cmd.executing (c : Cmd) : Bool := c.stage == .running || c.stage == .results

end Sys2Proof.Machine
end

