-- ==== Sys2Proof/Machine/Faults.lean ====
section
/-!
DEFINITION. The fault collector (R410 to R412 [14]): raising a fault, what its class and source do.
-/
namespace Sys2Proof.Machine

/-- Class of a fault source (R410): 1 CORRECTED, 2 CONTAINED, 3 FATAL, as FC_FIRST_INFO.CLASS codes it. -/
def faultClass (src : Nat) : Nat :=
  if src < 264 then 2
  else if src = 264 then 1
  else if src = 265 then 3
  else if src < 268 then 1
  else if src < 270 then 2
  else if src < 272 then 3
  else if src < 400 then 2
  else if src = 400 then 3
  else if src = 401 then 2
  else if src = 402 then 1
  else if src < 406 then 3
  else if src < 411 then 2
  else if src = 411 then 1
  else if src < 414 then 3
  else if src = 414 then 2
  else if src < 418 then 3
  else 1

/-- Unit of a fault source below 224 (R410). -/
def unitOfSource (src : Nat) : Option (UnitClass × Nat) :=
  if src < 128 then some (.hash, src)
  else if src < 176 then some (.cipher, src - 128)
  else if src < 180 then some (.payment, src - 176)
  else if src < 204 then some (.lattice, src - 180)
  else if src < 220 then some (.classical, src - 204)
  else if src < 224 then some (.code, src - 220)
  else none

/-- The level on ERR_N follows the faults (R412). -/
def driveErrN (d : Dev) : Dev :=
  let low := d.prot.fatal || d.prot.pendingFc != 0
  if low != d.link.errNLow then emit (.errN low) { d with link := { d.link with errNLow := low } } else d

/-- The digest unit zeroed and freed, its context key destroyed where `key` says so (R458 [16]). -/
def sduZero (key : Bool) (u : Sdu) : Sdu := { Sdu.reset with keyHeld := u.keyHeld && !key }

/-- A unit leaves service by a fault: its command completes with ABORTED; an OUT that waits for it completes
(R411, R415). -/
def unitFault (k : UnitClass) (u : Nat) (d : Dev) : Dev :=
  let w := (d.unit k u).waiter
  let d := d.modUnit k u (fun e => { e with st := .outFault, faults := e.faults + 1, waiter := [],
                                             outAfter := false, testFor := none })
  let d := if (List.range (unitCount k)).any (fun v => (d.unit k v).st == .inService) then d
    else { d with sched := { d.sched with emptySince := tset d.sched.emptySince (uclassNo k) d.clk } }
  let d := abortWhere (fun c => c.stage == .running && c.units.any (fun h => h.cls == k && h.unit == u))
             .aborted d
  let report := leBytes 1 3 ++ zeros 3 ++ leBytes 4 (d.unit k u).faults
  let d := forEach w (fun id => conclude id { status := .ok, outs := [(1, report)], result := [] }) d
  logEvent 6 3 u [] d

/-- Everything stops until PORST_N or PERST_N: commands in flight are aborted and nothing is released (R411,
R117 [03]). -/
def fatalHalt (src : Nat) (d : Dev) : Dev :=
  let d := dropWhere (·.inFlight) { d with link := { d.link with halt := true } }
  raisePf0 256 { d with prot := { d.prot with
    fatalSource := if d.prot.fatal then d.prot.fatalSource else src, fatal := true } }

/-- A DMA channel at reset (R469 [17]). -/
def chanReset : Channel :=
  { st := .idle, prio := 0, err := 0, dirWrite := false, mismatch := false, done := false, faults := 0,
    head := 0, cur := 0, errAddr := 0, count := 0, cmp := 0, desc := [], staged := [], stagedOther := [] }

/-- DMA channel `c`. -/
def Dev.chan (d : Dev) (c : Nat) : Channel := tget chanReset d.dma.chans c

/-- The device with a DMA channel changed. -/
def modChan (c : Nat) (f : Channel → Channel) (d : Dev) : Dev :=
  { d with dma := { d.dma with chans := tset d.dma.chans c (f (d.chan c)) } }

/-- A failed tag of on-package memory that a command met (R208 [06], R237 [07], R257 [08]; whose data it was, DEDUCED, log
56): the trees its stateful key caches and its cached matrices are discarded; the public key of its Tweed key is not used
again. -/
def tagEffect (id : Nat) (d : Dev) : Dev :=
  match findCmd d id with
  | none => d
  | some c =>
    let bad (e : Entry) : Entry :=
      { e with cache := e.cache && !(decide (0x30 ≤ e.typ) && decide (e.typ ≤ 0x32)),
               tagBad := e.tagBad || (decide (0x38 ≤ e.typ) && decide (e.typ ≤ 0x40)) }
    let d := forEach (c.keys.map (·.idx)) (fun i d => modEnt i bad d) d
    { d with led := { d.led with matrix := d.led.matrix.filter (fun (x : Nat × Nat) => !c.keys.any (fun k => k.idx == x.1)) } }

/-- What a CONTAINED fault does to its unit, or to the command it stopped (R411). -/
def containedEffect (src : Nat) (cmd : Option Nat) (d : Dev) : Dev :=
  match unitOfSource src with
  | some (k, u) => unitFault k u d
  | none =>
    if src < 256 then
      -- A sequencer: the commands of its contexts abort; it takes no dispatch until acknowledged.
      let s := src - 224
      let ids := (d.micro.ctxs.filter (fun e => e.1 / 64 == s)).map (·.2.cmd)
      let d := match cmd with
        | some id => abortWith .aborted id d
        | none => forEach ids (abortWith .aborted) d
      { d with micro := { d.micro with suspended := (s :: d.micro.suspended).eraseDups } }
    else if (264 ≤ src && src < 272) || 400 ≤ src then
      let d := if src = 414 then { d with linen := { d.linen with sdu := sduZero false d.linen.sdu } } else d
      match cmd with
      | some id => abortWith .faultDetected id (if src = 268 || src = 269 then tagEffect id d else d)
      | none => d
    else
      let d := if 272 ≤ src && src < 336 then
          let c := src - 272
          let d := modChan c (fun h => { h with faults := min 255 (h.faults + 1), st := if 56 ≤ c then .halted else h.st }) d
          if 56 ≤ c then raisePf0 (440 + c) d else d
        else d
      match cmd.or ((d.cmds.find? (fun (x : Cmd) => decide (272 ≤ src) && x.chan == some (src - 272))).map (·.id)) with
      | some id => abortWith .aborted id d
      | none => d

/-- MASTER_ID of a command (R412): the slice it serves, and its sequencer, 0 where it has no context. -/
def masterId (d : Dev) (c : Cmd) : Nat :=
  let s := match c.foreign with
    | some f => f.req.slice
    | none => c.slice
  s % 256 * 256 + ((d.micro.ctxs.find? (fun e => e.2.cmd == c.id)).map (fun e => e.1 / 64 % 32)).getD 0

/-- A fault source raised (R411, R412), with the MASTER_ID that FC_FIRST_INFO records. `timer` is false for a unit
that failed its start-up tests (R504). -/
def raiseFaultBy (timer : Bool) (master : Option Nat) (src addr access : Nat) (cmd : Option Nat) (d : Dev) : Dev :=
  let cls := faultClass src
  let info := firstInfoOf src cls access master
  let d := if d.prot.firstInfo.getLsbD 31 then d
    else { d with prot := { d.prot with firstInfo := info, firstAddr := BitVec.ofNat 64 addr,
                                        firstTime := d.devTime } }
  let d := linenPend 24 (logEvent 3 cls src (leBytes 4 info.toNat ++ leBytes 8 addr) d)
  if cls = 1 then { d with prot := { d.prot with corrCount := min (2 ^ 32 - 1) (d.prot.corrCount + 1) } }
  else if cls = 2 then
    let d := if d.prot.pendingFc.getLsbD src || !timer then d
      else { d with prot := { d.prot with escal := d.prot.escal ++ [(src, d.clk + d.prot.escTime * 1000)] } }
    let d := raisePf0 257 { d with prot := { d.prot with
      pendingFc := d.prot.pendingFc ||| (1#448 <<< src) } }
    driveErrN (containedEffect src cmd d)
  else driveErrN (fatalHalt src d)

/-- A fault source raised, of the command it stops. -/
def raiseFaultT (timer : Bool) (src addr access : Nat) (cmd : Option Nat) (d : Dev) : Dev :=
  raiseFaultBy timer ((cmd.bind (findCmd d)).map (masterId d)) src addr access cmd d

/-- A fault source raised. -/
def raiseFault (src addr access : Nat) (cmd : Option Nat) (d : Dev) : Dev := raiseFaultT true src addr access cmd d

/-- A failed host access of slice `s` (R50 [02]): source 402, and the slice's PASID fault event. -/
def pasidFault (s addr access : Nat) (d : Dev) : Dev := raisePf0 s (raiseFault 402 addr access none d)

/-! Custody keys of a slice ([05], [13]). -/

/-- Copy X is newer than copy Y (R173 [05]). -/
def newer (x y : MasterKey) : Bool :=
  let k := (x.gen + 65536 - y.gen) % 65536
  decide (1 ≤ k) && decide (k ≤ 32767)

/-- The device seed of the seed slot in use (R367 [13]). -/
def deviceSeed (d : Dev) : Bytes := d.otp.seedPair.drop 32

/-- The vault MAC key of a boot, from the device seed and the life-cycle state (R171); the manual does not give the
derivation (log 11). -/
def vaultKeyOf (d : Dev) : Bytes := std .vaultKey 32 [d.lc] [deviceSeed d]

/-- The MAC of copy `i` of a slice's master key: the first 48 bits of KMAC256 over s ‖ copy ‖ GEN ‖ key (R171), with
s and copy in 1 byte and GEN in 2, little-endian (DESIGN CHOICE, log 52). -/
def copyMac (d : Dev) (s i gen : Nat) (key : Bytes) : Bytes :=
  kmac256 d.led.vaultKey (leBytes 1 s ++ leBytes 1 i ++ leBytes 2 gen ++ key) 6 ""

/-- Copy `i` of slice `s` written with a master key. -/
def writeCopy (d : Dev) (s i : Nat) (n : MasterKey) : KeyCopy :=
  { gen := n.gen, key := n.key, mac := copyMac d s i n.gen n.key }

/-- Copy `i` of slice `s` as it is read: none when it is empty or its MAC fails (R171). -/
def readCopy (d : Dev) (s i : Nat) (k : KeyCopy) : Option MasterKey :=
  if k.gen != 0 && k.mac == copyMac d s i k.gen k.key then some { gen := k.gen, key := k.key } else none

/-- The two copies of a slice's master key as they are read. -/
def copiesOf (d : Dev) (s : Nat) : Option MasterKey × Option MasterKey :=
  (readCopy d s 0 (d.custody s).copyA, readCopy d s 1 (d.custody s).copyB)

/-- The master key in force, and whether the copies are inconsistent (R173). -/
def chooseMaster (a b : Option MasterKey) : Option MasterKey × Bool :=
  match a, b with
  | some x, some y =>
    if x.gen = y.gen then if x.key = y.key then (some x, false) else (none, true)
    else if newer x y then (some x, false)
    else if newer y x then (some y, false)
    else (none, true)
  | some x, none => (some x, false)
  | none, some y => (some y, false)
  | none, none => (none, false)

/-- MK_ID of a master key ([12], before R357). -/
def mkIdOf (key : Bytes) : Bytes := kmac256 key [] 8 "ORNATH-MKID"

/-- MK_ID of a slice; zeros without a master key (R66 [02]). -/
def Dev.mkId (d : Dev) (s : Nat) : Bytes :=
  match (d.custody s).master with
  | some k => mkIdOf k.key
  | none => zeros 8

/-- The slice's master key attached, or a new one drawn and written as copies A and B with GEN 1 (R66, R172);
whether it was attached. -/
def attachMaster (s : Nat) (d : Dev) : Bool × Dev :=
  match (chooseMaster (copiesOf d s).1 (copiesOf d s).2).1 with
  | some k => (true, d.modCust s (fun c => { c with master := some k }))
  | none =>
    let (key, d) := draw 32 d
    let n : MasterKey := { gen := 1, key := key }
    (false, d.modCust s (fun c => { c with copyA := writeCopy d s 0 n, copyB := writeCopy d s 1 n, master := some n }))

/-- The board domain key erased: the device is standalone, with LOCK 0b10 and its own position (R338, R341), its
mirror set and board entries go with the key, and its ports are UP_UNBOUND (R353 [12]). -/
def dropBoard (d : Dev) : Dev :=
  let open_ (p : Port) : Port := if p.link == .up then { p with link := .upUnbound } else p
  if d.board.key.isNone then d
  else
    raisePf0 448 { d with board := { d.board with
      key := none, manifestDigest := [], header := [], lock := .master, masterPos := d.link.boardId.toNat,
      followed := false, lostAt := none, slew := 0, member := .unbound, serving := 0, heard := [], set := [],
      log := [], midTable := [], prepares := [], queued := [], lastMsn := 0, seqMsn := 0, seqTick := 0,
      adverts := [], ports := d.board.ports.map open_,
      actions := d.board.actions.filter (fun e => e.2.boardNo.isNone && e.2.action != 7) } }

/-- The vault erased (R400 [14], R369 [13]): master and staged keys, registries, policies, component sessions,
board domain key; the tamper levels return to their defaults (R405). -/
def eraseVault (d : Dev) : Dev :=
  let d := mapCust (fun c => { Custody.reset with audit := c.audit }) d
  dropBoard { d with prot := { d.prot with levels := defaultLevels } }

end Sys2Proof.Machine
end

