-- ==== Sys2Proof/Machine/Run.lean ====
section
/-!
DEFINITION. What a command's execution step reads and how it ends: descriptors and inputs (R123 [04]), whose
turn it is (R33 [01], R127 [04], R137 [04]), outcomes.
-/
namespace Sys2Proof.Machine

/-- Bytes of the stream block (R131 [04]). -/
def Packet.skip (p : Packet) : Nat := if p.segf = 0 then 0 else 16

/-- Buffer descriptor `i` (R123 [04]). -/
def Packet.desc (p : Packet) (i : Nat) : Desc :=
  let o := p.skip + 16 * i
  { addr := field p.body o 8, len := field p.body (o + 8) 4, attr := BitVec.ofNat 32 (field p.body (o + 12) 4) }

/-- The inline data (R122 [04]). -/
def Packet.inline (p : Packet) : Bytes := seg p.body (p.skip + 16 * p.ndesc) p.inlineLen

/-- Fields of ATTR. -/
def Desc.space (x : Desc) : Nat := bits x.attr.toNat 1 0
def Desc.pslot (x : Desc) : Nat := bits x.attr.toNat 3 2
def Desc.isOut (x : Desc) : Bool := x.attr.getLsbD 4

/-- All descriptors, in order. -/
def Packet.descs (p : Packet) : List Desc := (List.range p.ndesc).map p.desc

/-- LEN of descriptor `i`; 0 where there is none. -/
def Cmd.len (c : Cmd) (i : Nat) : Nat := if i < c.pkt.ndesc then (c.pkt.desc i).len else 0

/-- PARAM as a number. -/
def Cmd.prm (c : Cmd) : Nat := c.pkt.param.toNat

/-- On-package memory of a key slot can be read: its key exists and no zeroisation is owed (R477, R478 [17]). -/
def hbmOk (d : Dev) (slot : Nat) : Bool :=
  (tfind d.dma.slotKeys slot).isSome && !d.dma.zeroing.contains none && !d.dma.zeroing.contains (some slot)

/-- Bytes of input descriptor `i`, once they are there: inline data, the exchange window, or what the DMA
engine has read. -/
def inputOf (m : Memory) (d : Dev) (c : Cmd) (i : Nat) : Option Bytes :=
  let x := c.pkt.desc i
  if x.len = 0 then some []
  else if x.space = 2 then some (seg c.pkt.inline x.addr x.len)
  else if x.space = 1 then
    if hbmOk d c.slice then some (memRead m.hbm (xwBase c.slice + x.addr) x.len) else none
  else tfind c.inputs i

/-- Bytes of input `i`, empty where it is missing. -/
def inp (m : Memory) (d : Dev) (c : Cmd) (i : Nat) : Bytes :=
  if i < c.pkt.ndesc then (inputOf m d c i).getD [] else []

/-- Every input descriptor has its bytes. -/
def inputsReady (m : Memory) (d : Dev) (c : Cmd) : Bool :=
  (List.range c.pkt.ndesc).all (fun i => (c.pkt.desc i).isOut || (inputOf m d c i).isSome
    || (c.pkt.desc i).space == 1)

/-- A failed tag of the exchange window under an input (R479, R468 [17]). -/
def inputTagFail (d : Dev) (c : Cmd) : Bool :=
  c.pkt.descs.any (fun x => !x.isOut && x.space == 1 && x.len != 0) && !hbmOk d c.slice

/-- FENCE (R127 [04]): a fence waits until every earlier command of its queue has finished execution; a later
command waits until every earlier fence of its queue has been dispatched. -/
def fenced (d : Dev) (c : Cmd) : Bool :=
  d.cmds.any (fun e => e.slice == c.slice && e.qk == c.qk && decide (e.id < c.id) &&
    ((c.pkt.flags.getLsbD 2 && e.unfinished)
      || (e.pkt.flags.getLsbD 2 && (e.stage == .held || e.stage == .hooked || e.stage == .ready)
            && !e.front)))

/-- The ring a command's record goes to is STALLED (R39 [01]). -/
def ringStalled (d : Dev) (c : Cmd) : Bool := (d.cq c.slice c.ring).st == .stalled

/-- An earlier ledger management command on the same index has not finished (R155 [05]). -/
def mgmtBlocked (d : Dev) (c : Cmd) : Bool :=
  isKeyMgmt c.op && d.cmds.any (fun e => decide (e.id < c.id) && isKeyMgmt e.op && e.inFlight
    && e.keys.any (fun k => c.keys.any (fun j => j.idx == k.idx)))

/-- A command of Linen's, or a sequencer's, that no fence, stalled ring or HOLD keeps from being carried out
(R137 [04], R127 [04], R39 [01], R398 [14]). -/
def linenMay (d : Dev) (c : Cmd) : Bool :=
  c.classes.isEmpty && c.stage == .ready && !fenced d c && !ringStalled d c && !mgmtBlocked d c
    && !d.keptBack c.slice && d.alive

/-- The command's turn among those without an engine class: they are served in admission order (R137 [04]). -/
def linenTurn (d : Dev) (c : Cmd) : Bool :=
  linenMay d c && !d.cmds.any (fun e => decide (e.id < c.id) && linenMay d e)

/-- The execution step of a command may be taken: it runs on its engines and has no outcome yet, or Linen takes
it; its inputs are there, or reading them has failed. -/
def canRun (m : Memory) (d : Dev) (c : Cmd) : Bool :=
  (if c.classes.isEmpty then linenTurn d c else c.stage == .running && c.outcome.isNone)
    && (c.dmaErr.isSome || inputsReady m d c)

/-- The outcome of a command's execution: a command with engine classes keeps its engines until the end of its
service time; one without goes on to its results. -/
def outcomeIs (o : Outcome) (id : Nat) (d : Dev) : Dev :=
  match findCmd d id with
  | none => d
  | some c => if c.classes.isEmpty then conclude id o d else setCmd { c with outcome := some o } d

/-- A status without outputs. -/
def failWith (st : Status) (id : Nat) (d : Dev) : Dev := outcomeIs (bare st) id d

/-- OK with outputs. -/
def okOuts (outs : List (Nat × Bytes)) (id : Nat) (d : Dev) : Dev :=
  outcomeIs { status := .ok, outs := outs, result := [] } id d

/-- The execution step of command `id` on operation `o`: nothing, unless it is that command's step; a DMA error
of its inputs decides its status (R468 [17]), and so does a public key that has failed its tag (R257 [08]); else `f` says
what it does. -/
def runCmd (o : Op) (id : Nat) (f : Memory → Cmd → Dev → Dev) (m : Memory) (d : Dev) : Dev :=
  match findCmd d id with
  | none => d
  | some c =>
    if c.op = o && canRun m d c then
      match c.dmaErr with
      | some st => failWith st id d
      | none =>
        if !checkOneOnly c.op && c.keys.any (fun k => (d.ent k.idx).tagBad) then failWith .faultDetected id d
        else if inputTagFail d c then failWith .faultDetected id (raiseFault (268 + c.slice % 2) (xwBase c.slice) 4 none d) else f m c d
    else d

/-- The execution step of an operation whose effect is on the device alone. -/
def execOp (o : Op) (id : Nat) (f : Memory → Cmd → Dev → Dev) (s : State) : Out := onDevM (runCmd o id f) s

/-- The same for one phase of an opcode, chosen by PARAM. -/
def execPhase (o : Op) (p : Nat) (id : Nat) (f : Memory → Cmd → Dev → Dev) (s : State) : Out :=
  onDevM (fun m d =>
    match findCmd d id with
    | some c => if c.prm = p then runCmd o id f m d else d
    | none => d) s

end Sys2Proof.Machine
end

