-- ==== Sys2Proof/Machine/Tamper.lean ====
section
/-!
DEFINITION. Tamper sources and responses, HOLD, erasure, LATCHED; supplies and CAUTION; the rows of the fault
collector; the commands of that chapter (R395 to R418, R504, R508, R509 [14]).
-/
namespace Sys2Proof.Machine

/-- Sources live on battery (R395). -/
def batterySource (k : Nat) : Bool := decide (k ≤ 8) || k == 27 || k == 28

/-- Fusable sources (R395). -/
def fusable : BitVec 32 := 0x8180007E

/-- Level of a source: T0 once fused (R406), else the one set. -/
def levelOf (d : Dev) (k : Nat) : Nat := if d.otp.fuses.getLsbD k then 0 else d.prot.levels.getD k 0

/-- A battery tamper log entry (R408): the first 15 events are kept, the last is overwritten. -/
def batLogAdd (onBattery : Bool) (level k : Nat) (d : Dev) : Dev :=
  let v := (1#64 <<< 63) ||| (BitVec.ofNat 64 (b2n onBattery) <<< 62) ||| (BitVec.ofNat 64 level <<< 59)
    ||| (BitVec.ofNat 64 k <<< 48) ||| BitVec.ofNat 64 d.prot.rtc
  { d with prot := { d.prot with batLog := d.prot.batLog.set (min 15 d.prot.batCount) v,
                                 batCount := min 65535 (d.prot.batCount + 1) } }

/-- HOLD (R398): engines stop; jobs in flight are aborted, their records kept back for slices 1 to 255 and
completed with FAULT_DETECTED for slice 0. Where keys are erased too, the erasure gives those of slice 0 their status (R399,
R209 [06]). -/
def holdJobs (erase : Bool) (d : Dev) : Dev :=
  let ids := (d.cmds.filter (fun c => c.stage == .running)).map (·.id)
  forEach ids (fun id d =>
    match findCmd d id with
    | none => d
    | some c =>
      if c.slice = 0 then (if erase then d else abortWith .faultDetected id d)
      else setCmd { c with stage := .waiting, outcome := some (bare .faultDetected), units := [],
                           entry := none, undo := none }
             (wipeUnits c (wipeJob id (undoReserve c (freePendingOf c d))))) d

/-- HOLD entered; `erase` for a response that erases keys. -/
def enterHold (erase : Bool) (d : Dev) : Dev :=
  let d := holdJobs erase d
  if d.prot.st = .normal then raisePf0 321 { d with prot := { d.prot with st := .hold } } else d

/-- Erasure of working keys (R399): ledger, HBM keys, engine and lane memories, digest unit, open streams and
component sessions; the commands it meets complete with KEYS_ERASED, but a life-cycle transition goes on (R418). The scratch banks are zeroed by the caller
(R474). -/
def eraseKeys (d : Dev) : Dev :=
  let loads := d.micro.vendorDue
  let d := { d with
    micro := { d.micro with jobs := [], ctxs := [], vendorDue := none, extDue := none }
    linen := { d.linen with sdu := sduZero true d.linen.sdu }
    dma := { d.dma with slotKeys := [] } }
  let d := mapCust (fun c => { c with comp := none }) (mapSlices (fun x => { x with streams := [] }) d)
  let d := freeWhere (fun _ => true) { d with led := { d.led with keyHeld := false, matrix := [] } }
  abortWhere (fun c => (d.link.lcRun.map (·.cmd)) != some c.id && (c.slice != 0 || c.pkt.opcode / 256 != 1
    || (c.op == .patchLoad && loads == some c.id))) .keysErased d

/-- Life-cycle or battery-domain vault erasure with LATCHED (R400). -/
def latch (d : Dev) : Dev :=
  let d := eraseVault d
  { d with prot := { d.prot with latched := true, st := .latched } }

/-- The level broadcast to the board (R356 [12]): TAMPER_BCAST 0 is T2, 1 is T3, 2 is T4, 3 never. -/
def broadcasts (d : Dev) (level : Nat) : Bool :=
  d.board.tamperBcast != 3 && decide (d.board.tamperBcast.toNat + 2 ≤ level)

/-- TAMPER_BUS pulled low for at least 10 µs and a tamper flit sent both ways round (R356 [12]). -/
def broadcast (level : Nat) (d : Dev) : Dev :=
  let d := if d.board.busLow then d else emit (.tamperBus true) d
  let d := { d with board := { d.board with busLow := true, busUntil := d.clk + 10000 } }
  sendBoth false (fun p => .tamperFlit p d.pos level) d

/-- A T2 or higher alarm interrupts Linen through the NMI, a lower one through vector 25 (R449 [16]). -/
def linenAlarm (level : Nat) (d : Dev) : Dev :=
  if level ≥ 2 then { d with linen := { d.linen with nmiPend := true } } else linenPend 25 d

/-- The jobs that HOLD aborted complete with FAULT_DETECTED (R398). -/
def endHold (d : Dev) : Dev :=
  forEach ((d.cmds.filter (fun c => c.stage == .waiting &&
      (c.outcome.map (·.status)) == some .faultDetected)).map (·.id)) (abortWith .faultDetected) d

/-- The actions of a response level and of the lower ones (R397 to R401); no alarm lowers a response in force. -/
def respond (k level : Nat) (d : Dev) : Dev :=
  let d := linenAlarm level d
  let d := auditEvent 1 level k (d.prot.esn - 1) d
  let d := if level ≥ 3 then batLogAdd false level k d else d
  if level = 0 then d
  else
    let d := logEvent 2 level k [] (raisePf0 320 d)
    let d := { (emit (.tamperN true) d) with prot := { d.prot with tamperLowUntil := d.clk + 10000 } }
    if level = 1 then d
    else
      let d := if k != 31 && broadcasts d level then broadcast level d else d
      let d := enterHold (decide (level ≥ 3)) d
      if level = 2 then (if d.prot.st = .latched then endHold d else d)
      else
        let d := eraseKeys d
        let was := d.prot.st
        let d := if level = 4 then latch d
          else if was = .latched then d
          else { d with prot := { d.prot with st := .erased } }
        if d.prot.st != was || level = 4 then raisePf0 322 d else d

/-- A tamper source's alarm has passed its filter (R395, R397). A fused source reads as inactive (R406). -/
def alarm (k : Nat) (d : Dev) : Dev :=
  if k = 29 || k = 30 || d.otp.fuses.getLsbD k then d
  else
    let level := levelOf d k
    let b := 1#32 <<< k
    let d := { d with prot := { d.prot with active := d.prot.active ||| b, seen := d.prot.seen ||| b,
                                            lastSource := k } }
    respond k level (logEvent 1 level k [] d)

/-- Scratch banks are zeroed by a T3 or T4 response (R474 [17]). -/
def alarmMem (level : Nat) (m : Memory) : Memory := if level ≥ 3 then { m with scr := [] } else m

/-- TAMPER_ALARM: the source whose own test runs is suppressed (R404). -/
def execTamperAlarm (source : Fin 32) (s : State) : Out :=
  onBoth (fun d m =>
    let own := match d.prot.selfTest with
      | some t => t.left.head? == some source.val
      | none => false
    if !d.powered || own || d.otp.fuses.getLsbD source then (d, m)
    else (alarm source d, alarmMem (levelOf d source) m)) s

/-- The bus or the flit that arrives second is logged as the same incident (R356 [12]): an alarm record and nothing else
(DEDUCED, log 24). -/
def sameIncident (d : Dev) : Dev := logEvent 1 (levelOf d 31) 31 [] d

/-- TAMPER_BUS_LOW (R356 [12]): the board tamper source, once per incident; not while this device drives it. -/
def execTamperBusLow (s : State) : Out :=
  onBoth (fun d m =>
    if !d.powered || d.board.busLow then (d, m)
    else if d.board.incident then (sameIncident d, m)
    else
      let d := { d with board := { d.board with incident := true } }
      (raisePf0 451 (alarm 31 d), alarmMem (levelOf d 31) m)) s

/-- TAMPER_CONDITION_CLEARED (R405): the source's TAMPER_ACTIVE bit; source 31 closes its incident. -/
def execTamperConditionCleared (source : Fin 32) : State → Out :=
  onDev (fun d => { d with
    prot := { d.prot with active := d.prot.active &&& ~~~(1#32 <<< source.val) }
    board := if source.val = 31 then { d.board with incident := false } else d.board })

/-- BATTERY_ALARM (R407): on battery alone; T0 is logged only, T1 to T4 erase the vault and set LATCHED. -/
def execBatteryAlarm (source : Fin 32) : State → Out :=
  onDev (fun d =>
    if !d.link.onBattery || d.link.batDead || !batterySource source || d.otp.fuses.getLsbD source then d
    else
      let l := levelOf d source
      let d := batLogAdd true l source d
      if l = 0 then d
      else
        let d := eraseVault d
        { d with prot := { d.prot with latched := true } })

/-- THERM_TRIP (R396): from 120 °C (480 quarter degrees) the pin is driven low and source 419 raised. -/
def execThermTrip (tj : BitVec 16) : State → Out :=
  onDev (fun d =>
    let d := { d with prot := { d.prot with tjMain := tj } }
    if !d.powered || d.prot.thermTripLow || decide (tj.toInt < 480) then d
    else raiseFault 419 0 0 none
      (emit (.thermTripN true) { d with prot := { d.prot with thermTripLow := true } }))

/-- THERM_TRIP_RELEASE (R396): below 110 °C. -/
def execThermTripRelease (tj : BitVec 16) : State → Out :=
  onDev (fun d =>
    let d := { d with prot := { d.prot with tjMain := tj } }
    if d.prot.thermTripLow && decide (tj.toInt < 440) then
      emit (.thermTripN false) { d with prot := { d.prot with thermTripLow := false } }
    else d)

/-! Supplies and CAUTION (R402, R403). -/

/-- SUPPLY_WARNING: CAUTION is entered, and marks the jobs that it overlaps. -/
def execSupplyWarning (supply : Fin 8) : State → Out :=
  onDev (fun d =>
    if !d.powered then d
    else
      let d := { d with prot := { d.prot with belowWarn := d.prot.belowWarn ||| (1#8 <<< supply.val),
                                              aboveSince := none } }
      if d.prot.caution then d
      else
        let n := min 65535 (d.prot.cautionCount + 1)
        let d := { d with prot := { d.prot with caution := true, cautionSince := d.clk, cautionCount := n } }
        let d := mapCmds (fun c => 
          if c.stage = .running && (d.clk < c.endAt || c.outcome.isNone) then { c with overlap := true } else c) d
        raisePf0 323 (logEvent 4 0 0 (leBytes 1 d.prot.belowWarn.toNat) d))

/-- SUPPLY_ABOVE_WARNING: the bit clears; with every supply above, the 10 µs start. -/
def execSupplyAboveWarning (supply : Fin 8) : State → Out :=
  onDev (fun d =>
    let b := d.prot.belowWarn &&& ~~~(1#8 <<< supply.val)
    let since := if b = 0 then some (d.prot.aboveSince.getD d.clk) else none
    { d with prot := { d.prot with belowWarn := b, aboveSince := since } })

/-- CAUTION_END: once every supply has stayed above for 10 µs. -/
def execCautionEnd : State → Out :=
  onDev (fun d =>
    match d.prot.aboveSince with
    | some t =>
      if d.prot.caution && decide (t + 10000 ≤ d.clk) then
        raisePf0 324 (logEvent 5 0 0 (leBytes 1 d.prot.belowWarn.toNat)
          { d with prot := { d.prot with caution := false, aboveSince := none } })
      else d
    | none => d)

/-- CAUTION_TIMEOUT: 10 ms of CAUTION raise source 412. -/
def execCautionTimeout : State → Out :=
  onDev (fun d =>
    if d.prot.caution && decide (d.prot.cautionSince + 10000000 ≤ d.clk) && !d.prot.fatal then
      raiseFault 412 0 0 none d
    else d)

/-! The fault collector's rows (R410 to R412, R508). -/

/-- An entropy source fails a health test (R508): the log-16 reading of the access address names the source
and the test. -/
def entropyFail (addr : Nat) (d : Dev) : Dev :=
  let i := addr % 4
  let e := d.prot.entropy.getD i ⟨false, 0, 0⟩
  let e' : Entropy := if e.failed then e
    else if bit addr 2 then { e with failed := true, adaptFails := min 65535 (e.adaptFails + 1) }
    else { e with failed := true, repFails := min 65535 (e.repFails + 1) }
  { d with prot := { d.prot with entropy := d.prot.entropy.set i e' } }

/-- FAULT_DETECT: the source, the address and kind of the failing access, the command it stopped. -/
def execFaultDetect (source : Fin 420) (addr : BitVec 64) (access : Nat) (cmd : Option Nat) : State → Out :=
  onDev (fun d =>
    if !d.powered || d.link.halt then d
    else raiseFault source addr.toNat access cmd (if source.val = 407 then entropyFail addr.toNat d else d))

/-- FAULT_ESCALATION: the timer of a pending CONTAINED fault has run out (R411). -/
def execFaultEscalation (source : Fin 420) : State → Out :=
  onDev (fun d =>
    if d.prot.escal.any (fun e => e.1 == source.val && decide (e.2 ≤ d.clk)) then
      driveErrN (fatalHalt source (raisePf0 258
        { d with prot := { d.prot with escal := d.prot.escal.filter (fun e => e.1 != source.val) } }))
    else d)

/-- FC_PENDING_CLEAR: bits of CONTAINED sources written 1 are acknowledged (R411, R412). A sequencer takes work
again (R438 [15]); failed entropy sources run their start-up tests again, `retestPass` being their result
(R508). -/
def execFcPendingClear (k : Fin 14) (v : BitVec 32) (retestPass : Bool) : State → Out :=
  onDev (fun d =>
    if !d.reachable then d
    else
      let mask : BitVec 448 := (v.setWidth 448) <<< (32 * k.val)
      let hit := mask &&& d.prot.pendingFc
      let gone (n : Nat) : Bool := hit.getLsbD n
      let d := { d with
        prot := { d.prot with pendingFc := d.prot.pendingFc &&& ~~~hit,
                              escal := d.prot.escal.filter (fun e => !gone e.1) }
        micro := { d.micro with
          suspended := d.micro.suspended.filter (fun s => !gone (224 + s))
          recheck := (d.micro.suspended.filter (fun s => gone (224 + s))).foldl
            (fun m s => tset m s (d.clk + 10000)) d.micro.recheck } }
      let d := if !gone 407 then d
        else
          let es := d.prot.entropy.map (fun e => { e with failed := e.failed && !retestPass })
          let d := { d with prot := { d.prot with entropy := es } }
          if d.prot.entropy.any (·.failed) then raiseFault 407 0 0 none d else d
      driveErrN d)

/-- FC_FIRST_CLR: CLEAR ends the first-fault capture (R412). -/
def execFcFirstClr (v : BitVec 32) : State → Out :=
  onDev (fun d =>
    if d.reachable && v.getLsbD 0 then
      { d with prot := { d.prot with firstInfo := 0x0000FFFF, firstAddr := 0, firstTime := 0 } }
    else d)

/-- EVENT_LOG_READ: the record in a slot is read (R413). -/
def execEventLogRead (idx : Fin 512) : State → Out :=
  onDev (fun d =>
    match tfind d.prot.log idx with
    | some r => { d with prot := { d.prot with log := tset d.prot.log idx { r with read := true } } }
    | none => d)

/-! Commands. -/

/-- The device leaves ERASED for NORMAL (R399): new ledger storage key, HBM keys and BOOT_ID; the HBM is to be
zeroised. -/
def leaveErased (d : Dev) : Dev :=
  let (b, d) := draw 8 (drawSlots (List.range 262) d)
  { d with led := { d.led with keyHeld := true, bootId := b }
           dma := { d.dma with zeroing := [none] }
           prot := { d.prot with st := .normal } }

/-- TAMPER_BUS is released when the state falls below T2 and its 10 µs are over (R356 [12]). -/
def releaseBus (d : Dev) : Dev :=
  if d.board.busLow && d.prot.st == .normal && decide (d.board.busUntil ≤ d.clk) then
    emit (.tamperBus false) { d with board := { d.board with busLow := false } }
  else d

/-- TAMPER_N returns high when its pulse is over and no HOLD lasts (R397). -/
def releaseTamperN (d : Dev) : Dev :=
  if d.prot.tamperLowUntil != 0 && decide (d.prot.tamperLowUntil ≤ d.clk) && !d.hold then
    emit (.tamperN false) { d with prot := { d.prot with tamperLowUntil := 0 } }
  else d

/-- TAMPER_POLICY_SET, PARAM SET (R405). -/
def execTamperPolicySet (id : Nat) : State → Out :=
  execPhase .tamperPolicySet 0 id (fun m c d =>
    let b := inp m d c 0
    let lv := (List.range 32).map (fun k => (b.getD k 0).toNat)
    if lv.any (· > 4) || (List.range 32).any (fun k => lv.getD k 0 != 0 &&
        (k == 29 || k == 30 || d.otp.fuses.getLsbD k)) then failWith .fieldRejected id d
    else if d.lc = 19 && (List.range 32).any (fun k => decide (lv.getD k 0 < levelOf d k)) then
      failWith .policyRefused id d
    else failWith .ok id { d with prot := { d.prot with levels := lv } })

/-- TAMPER_POLICY_SET, PARAM RESUME (R405, R398, R399). -/
def execTamperResume (id : Nat) : State → Out :=
  execPhase .tamperPolicySet 1 id (fun _ _ d =>
    if d.prot.active != 0 || d.prot.latched then failWith .policyRefused id d
    else
      let d := if d.prot.st = .normal then d
        else
          let d := { d with prot := { d.prot with seen := 0 } }
          let d := if d.prot.st = .erased then leaveErased d
            else { d with prot := { d.prot with st := .normal } }
          releaseTamperN (releaseBus (endHold
            { d with sched := { d.sched with resumeFrom := d.sched.rounds + 1 } }))
      failWith .ok id d)

/-- A master key generated for every existing slice that has none (R66 [02]). -/
def regenerateMasters (d : Dev) : Dev :=
  forEach (liveSlices d) (fun s d =>
    match (d.custody s).master with
    | some _ => d
    | none => (attachMaster s d).2) d

/-- TAMPER_POLICY_SET, PARAM CLEAR_LATCH (R400): the battery log clears; through ERASED to NORMAL. -/
def execClearLatch (id : Nat) : State → Out :=
  execPhase .tamperPolicySet 2 id (fun _ _ d =>
    if d.prot.active != 0 then failWith .policyRefused id d
    else if !d.prot.latched then failWith .ok id d
    else
      let d := { d with prot := { d.prot with latched := false, seen := 0, batCount := 0,
                                              batLog := List.replicate 16 0 } }
      failWith .ok id (releaseTamperN (releaseBus (regenerateMasters (leaveErased d)))))

/-- The tamper fuse word with a bitmap's bits set (R368 [13]): a word that an earlier write left torn is completed by the
bitmap of that write, and fails its ECC still after any other (R406; DESIGN CHOICE, log 70). -/
def fuseWord (map : BitVec 32) (o : Otp) : Otp :=
  match o.fuseTorn with
  | none => { o with fuseCells := o.fuseCells ||| map }
  | some w =>
    if o.fuseCells ||| map = w then { o with fuseCells := w, fuseTorn := none } else { o with fuseTorn := some (w ||| map) }

/-- The write of a FUSE has ended (R406): a source that is fused reads as inactive. -/
def fuseDone (id : Nat) (map : BitVec 32) (d : Dev) : Dev :=
  let o := fuseWord map d.otp
  conclude id (bare .ok) { d with
    otp := o
    prot := { d.prot with fuseDue := none, active := d.prot.active &&& ~~~o.fuses } }

/-- TAMPER_POLICY_SET, PARAM FUSE (R405, R406): the write of its bitmap begins, once an earlier one has ended. It ends by
OTP_WRITE_COMPLETE, and the command with it (DESIGN CHOICE, log 64). -/
def execFuse (id : Nat) : State → Out :=
  execPhase .tamperPolicySet 3 id (fun m c d =>
    let b := inp m d c 0
    let map : BitVec 32 := BitVec.ofNat 32 (field b 0 4)
    if d.lc != 18 then failWith .lifecycleRefused id d
    else if field b 4 4 != 0 || map &&& ~~~fusable != 0 then failWith .fieldRejected id d
    else if d.prot.fuseDue.isSome then d
    else setCmd { c with stage := .waiting } { d with prot := { d.prot with fuseDue := some (id, map) } })

/-- SELF_TEST (R404): the bitmap first, then the device state; the sources are tested one at a time. -/
def execSelfTest (id : Nat) : State → Out :=
  execOp .selfTest id (fun m c d =>
    let b : BitVec 32 := BitVec.ofNat 32 (field (inp m d c 0) 0 4)
    if b &&& (d.otp.fuses ||| 0x60000000) != 0 then failWith .fieldRejected id d
    else if d.hold || d.prot.caution then failWith .policyRefused id d
    else if d.prot.selfTest.isSome then d
    else
      let l := (List.range 32).filter (fun k => b.getLsbD k)
      if l.isEmpty then okOuts [(1, zeros 8)] id (raisePf0 326 d)
      else setCmd { c with stage := .waiting }
        { d with prot := { d.prot with selfTest := some { cmd := id, left := l, pass := 0, fail := 0, until_ := d.clk + 50000 } } })

/-- MONITOR_TEST_END (R404): the result of the source under test; a failure, or a condition that persists,
raises its alarm. -/
def execMonitorTestEnd (source : Fin 32) (pass : Bool) (persists : Bool) (s : State) : Out :=
  onBoth (fun d m =>
    match d.prot.selfTest with
    | none => (d, m)
    | some t =>
      if t.left.head? != some source.val then (d, m)
      else
        let k := source.val
        let t' := { t with left := t.left.tail, until_ := d.clk + 50000,
                           pass := if pass then t.pass ||| (1#32 <<< k) else t.pass,
                           fail := if pass then t.fail else t.fail ||| (1#32 <<< k) }
        let d := { d with prot := { d.prot with selfTest := if t'.left.isEmpty then none else some t' } }
        let d := logEvent 7 (b2n pass) k [] d
        let d := if t'.left.isEmpty then
            conclude t.cmd { status := .ok, result := [],
                             outs := [(1, leBytes 4 t'.pass.toNat ++ leBytes 4 t'.fail.toNat)] } (raisePf0 326 d)
          else d
        if !pass || persists then (alarm k d, alarmMem (levelOf d k) m) else (d, m)) s

/-- ENTROPY_STATUS (R417): ENTROPY_FAIL only when all four sources have failed. -/
def execEntropyStatus (id : Nat) : State → Out :=
  execOp .entropyStatus id (fun _ _ d =>
    if d.prot.entropy.all (·.failed) then failWith .entropyFail id d
    else
      let e := d.prot.entropy.flatMap (fun e => leBytes 1 (b2n e.failed) ++ zeros 1 ++ leBytes 2 e.repFails
        ++ leBytes 2 e.adaptFails ++ zeros 2)
      okOuts [(0, e ++ d.prot.drbg.flatMap (fun x => leBytes 4 x.count))] id d)

/-- ECHO (R417). -/
def execEcho (id : Nat) : State → Out :=
  execOp .echo id (fun m c d => okOuts [(1, inp m d c 0)] id d)

/-- FAULT_INJECT (R417, R509): reserved bytes, then the source; it is raised as if detected. -/
def execFaultInject (id : Nat) (s : State) : Out :=
  onBoth (fun d m =>
    match findCmd d id with
    | none => (d, m)
    | some c =>
      let b := inp m d c 0
      let v := field b 0 2
      let n := v % 32768
      let tam := decide (32768 ≤ v)
      let good := c.op == .faultInject && canRun m d c && c.dmaErr.isNone && allZero (b.drop 2)
      let named := if tam then decide (n < 32) && n != 29 && n != 30 && !d.otp.fuses.getLsbD n
        else decide (n < 420)
      (runCmd .faultInject id (fun _ _ d =>
        if !allZero (b.drop 2) then failWith .packetMalformed id d
        else if !named then failWith .fieldRejected id d
        else
          let d := failWith .ok id d
          if tam then alarm n d else raiseFault n 0 0 none d) m d,
       if good && named && tam then alarmMem (levelOf d n) m else m)) s

/-- Report of ENGINE_SERVICE (R415): STATE and the fault count. -/
def unitReport (e : EUnit) : Bytes :=
  let s := match e.st with
    | .inService => 0
    | .draining => 1
    | .out => 2
    | .outFault => 3
    | .testing => 4
  leBytes 1 s ++ zeros 3 ++ leBytes 4 e.faults

/-- A unit with its new state, logged as an engine service change (R413). -/
def setUnitSt (k : UnitClass) (u : Nat) (st : UnitSt) (d : Dev) : Dev :=
  let d := d.modUnit k u (fun e => { e with st := st })
  let d := if st = .inService then
      { d with sched := { d.sched with emptySince := tdel d.sched.emptySince (uclassNo k) } }
    else d
  logEvent 6 (leNat ((unitReport (d.unit k u)).take 1)) u [] d

/-- Units of a class in service. -/
def inServiceCount (d : Dev) (k : UnitClass) : Nat :=
  ((List.range (unitCount k)).filter (fun u => (d.unit k u).st == .inService)).length

/-- Credits of a unit that commands hold, or that wait for its wipe. -/
def unitUsed (d : Dev) (k : UnitClass) (u : Nat) : Nat :=
  ((d.cmds.flatMap (·.units) ++ d.sched.wiping).filter (fun h => h.cls == k && h.unit == u && decide (d.clk < h.till))).foldl (fun n h => n + h.n) 0

/-- A domain switched on again, in 20 µs (R416, R488 [18]): the time at which it is. -/
def wakeTime (d : Dev) (dom : Nat) : Nat := if d.link.domainsOff.contains dom then d.clk + 20000 else d.clk

/-- The tests of a unit begin: 40 µs after its domain is on (R19, R415, R416). -/
def startTest (k : UnitClass) (u : Nat) (d : Dev) : Dev :=
  let t := wakeTime d (unitDomain k u) + 40000
  let d := { d with link := { d.link with
    domainsOff := d.link.domainsOff.filter (· != unitDomain k u) } }
  setUnitSt k u .testing (d.modUnit k u (fun e => { e with testEnd := t }))

/-- Unit class of ENGINE_SERVICE's CLASS. -/
def uclassOf (n : Nat) : Option UnitClass := allUnitClasses[n]?

/-- A report written, with OK or another status. -/
def serviceDone (st : Status) (k : UnitClass) (u : Nat) (id : Nat) (d : Dev) : Dev :=
  outcomeIs { status := st, outs := if st = .ok then [(1, unitReport (d.unit k u))] else [], result := [] } id d

/-- The command waits for its unit. -/
def serviceWait (c : Cmd) (k : UnitClass) (u : Nat) (d : Dev) : Dev :=
  setCmd { c with stage := .waiting } (d.modUnit k u (fun e => { e with waiter := e.waiter ++ [c.id] }))

/-- ENGINE_SERVICE (R415). -/
def execEngineService (id : Nat) : State → Out :=
  execOp .engineService id (fun m c d =>
    let b := inp m d c 0
    let u := field b 2 2
    match uclassOf (field b 0 1) with
    | none => failWith .fieldRejected id d
    | some k =>
      if u ≥ unitCount k || field b 1 1 > 2 || field b 4 4 != 0 then failWith .fieldRejected id d
      else
        let e := d.unit k u
        match field b 1 1 with
        | 0 => serviceDone .ok k u id d
        | 1 =>
          match e.st with
          | .out => serviceDone .ok k u id d
          | .outFault => serviceDone .ok k u id d
          | .testing => serviceWait c k u (d.modUnit k u (fun e => { e with outAfter := true }))
          | .draining => serviceWait c k u (d.modUnit k u (fun e => { e with outAfter := true }))
          | .inService =>
            if inServiceCount d k ≤ 1 then failWith .policyRefused id d
            else serviceWait c k u (setUnitSt k u .draining d)
        | _ =>
          match e.st with
          | .inService => serviceDone .ok k u id d
          | .draining => failWith .policyRefused id d
          | .testing => failWith .policyRefused id d
          | _ =>
            if d.prot.pendingFc.getLsbD (unitSource k + u) then failWith .policyRefused id d
            else serviceWait c k u (startTest k u d))

/-- Commands waiting for a unit complete with its report. -/
def releaseWaiters (st : Status) (k : UnitClass) (u : Nat) (d : Dev) : Dev :=
  let w := (d.unit k u).waiter
  let rep := unitReport (d.unit k u)
  let d := d.modUnit k u (fun e => { e with waiter := [] })
  forEach w (fun id d => conclude id
    { status := st, outs := if st = .ok then [(1, rep)] else [], result := [] } d) d

/-- UNIT_DRAIN_DONE (R19, R415): the unit's last command has ended. A unit drained for a scheduled self-test
goes to its test (R345 [12]). -/
def execUnitDrainDone (k : UnitClass) (u : Nat) : State → Out :=
  onDev (fun d =>
    let e := d.unit k u
    if e.st = .draining && unitUsed d k u == 0 then
      if e.testFor.isSome && !e.outAfter then startTest k u d
      else releaseWaiters .ok k u (setUnitSt k u .out d)
    else d)

/-- ENGINE_TEST_END (R19, R415): its tests have ended: back in service from the next round, or OUT by fault with
INVARIANT_FAIL; an OUT asked for meanwhile takes effect. -/
def execEngineTestEnd (k : UnitClass) (u : Nat) (pass : Bool) : State → Out :=
  onDev (fun d =>
    let e := d.unit k u
    if e.st != .testing || d.clk < e.testEnd then d
    else
      let first := if e.testFor.isSome then [] else e.waiter.take 1
      let outs := if e.testFor.isSome then e.waiter else e.waiter.drop 1
      let d := match e.testFor with
        | some i => if pass then d else raisePf0 384 (modAction i (fun a => if a.action = 6 then { a with outcome := 6 } else a) d)
        | none => d
      let d := d.modUnit k u (fun e => { e with waiter := [], outAfter := false, testFor := none,
                                                joinAt := d.sched.rounds + 1 })
      let d := setUnitSt k u (if !pass then .outFault else if e.outAfter then .out else .inService) d
      let rep := unitReport (d.unit k u)
      let d := forEach first (fun id d => conclude id
        (if pass then { status := .ok, outs := [(1, rep)], result := [] } else bare .invariantFail) d) d
      let d := forEach outs (fun id d => conclude id { status := .ok, outs := [(1, rep)], result := [] } d) d
      if pass then d else raiseFault (unitSource k + u) 0 0 none d)

end Sys2Proof.Machine
end

