-- ==== Sys2Proof/Machine/Resets.lean ====
section
/-!
DEFINITION. Resets, power, the link, start-up, and the interfaces beside the BARs: SPDM, IDE, ATS, the test
access port (R15 [00]; R49, R52, R86 to R90 [02]; R176 [05]; R366, R370 [13]; R402, R407 [14]; R428 [15]; R451
[16]; R474, R478 [17]; R486, R487, R494 [18]).
-/
namespace Sys2Proof.Machine

/-- What a slice's custody keeps across a reset: its vault records (R176, R384, R379). -/
def vaultOnly (c : Custody) : Custody :=
  { Custody.reset with copyA := c.copyA, copyB := c.copyB, custodians := c.custodians, policy := c.policy,
                       staged := c.staged }

/-- The OTP state word of a life-cycle code (R367 [13]). -/
def lcWord (k : Nat) : BitVec 32 := BitVec.ofNat 32 (2 ^ k - 1)

/-- OTP with a state's word written: bits are only ever set (R368 [13]); TEST_USED counts entries into TEST_UNLOCKED
states. -/
def enterState (k : Nat) (o : Otp) : Otp :=
  { o with state := o.state.write (lcWord k), testUsed := if isTestUnlocked k then (k - 1) / 2 + 1 else o.testUsed }

/-- The word of an intent slot (R367). -/
def intentWord (src dest : Nat) : BitVec 32 :=
  BitVec.ofNat 32 dest ||| (BitVec.ofNat 32 (255 - dest) <<< 8) ||| (BitVec.ofNat 32 src <<< 16)
    ||| (BitVec.ofNat 32 (255 - src) <<< 24)

/-- Power fails during a life-cycle transition: of the write that is under way, any bits may have been set (R368, R370
[13]; free values, log 64). A torn seed slot holds its seeds, fails ECC, or is empty still. -/
def tearOtp (d : Dev) : Dev :=
  match d.link.lcRun with
  | none => d
  | some r =>
    let (x, d) := drawNat d
    let (y, d) := drawNat d
    let (z, d) := drawNat d
    let part (c : Cells 32) (v : BitVec 32) : Cells 32 :=
      ⟨c.a ||| (v &&& BitVec.ofNat 32 x), c.b ||| (v &&& BitVec.ofNat 32 y), c.c ||| (v &&& BitVec.ofNat 32 z)⟩
    let o := d.otp
    match r.step with
    | 4 =>
      if r.dest = 18 then
        let (k, d) := draw 136 d
        let p := xorB (fit 136 o.prov) ((xorB (fit 136 o.prov) r.prov).zipWith (· &&& ·) k)
        { d with otp := { o with prov := p, mode := field p 0 1 } }
      else if r.dest = 17 then
        let (b, d) := draw 64 d
        match (List.range 2).find? (fun i => o.seeds.getD i .bad != .bad) with
        | some i =>
          let torn : SeedSlot := if x % 3 = 0 then .empty else if x % 3 = 1 then .bad else .held b
          if o.seeds.getD i .bad == .empty then { d with otp := { o with seeds := o.seeds.set i torn } } else d
        | none => d
      else d
    | 5 =>
      let w := part ⟨0, 0, 0⟩ (intentWord r.src r.dest)
      if w.read = 0 then d else { d with otp := { o with slots := o.slots ++ [w] } }
    | 6 => { d with otp := { o with state := part o.state (lcWord r.dest) } }
    | _ => d

/-- FLOOR (R429 [15]): the bits set, counted upwards from bit 0. -/
def floorOf (o : Otp) : Nat := ((List.range 64).takeWhile (fun i => o.floorBits.getLsbD i)).length

/-- Power fails during a floor raise: the bits are set in ascending order, and one that was half-written reads as either
value (R429, R430 [15]; free values). -/
def tearFloor (d : Dev) : Dev :=
  match d.micro.floorDue with
  | none => d
  | some (_, svn) =>
    let (x, d) := drawNat d
    let (y, d) := drawNat d
    let o := d.otp
    let k := floorOf o + x % (svn + 1 - floorOf o)
    let full := o.floor.write (BitVec.ofNat 64 (2 ^ k - 1))
    let half := if k < svn then BitVec.ofNat 64 (2 ^ k) else 0
    let f : Cells 64 := ⟨if y % 2 = 1 then full.a ||| half else full.a, if y / 2 % 2 = 1 then full.b ||| half else full.b,
                         if y / 4 % 2 = 1 then full.c ||| half else full.c⟩
    { d with otp := { o with floor := f } }

/-- Power fails during a FUSE (R368 [13], R406): the word is as it was, or written, or torn, and then it fails its ECC
(free values). -/
def tearFuse (d : Dev) : Dev :=
  match d.prot.fuseDue with
  | none => d
  | some (_, map) =>
    let (x, d) := drawNat d
    let o := d.otp
    { d with otp :=
        if x % 3 = 0 then o
        else if x % 3 = 1 then fuseWord map o
        else { o with fuseTorn := some (o.fuseTorn.getD o.fuseCells ||| map) } }

/-- The effects of power loss (R176 [05], R487 [18]): everything volatile at its reset value; the battery domain
and OTP stay as they are. -/
def powerLoss (d : Dev) : Dev :=
  let d := tearFuse (tearFloor (tearOtp d))
  { Dev.reset with
    clk := d.clk
    free := d.free
    out := d.out
    otp := d.otp
    cust := (mapCust vaultOnly d).cust
    led := { Ledger.reset with boot := d.led.boot }
    prot := { Protect.reset with
      levels := d.prot.levels
      latched := d.prot.latched
      batLog := d.prot.batLog
      batCount := d.prot.batCount
      rtc := d.prot.rtc
      rtcFrac := d.prot.rtcFrac }
    board := { Board.reset with
      key := d.board.key
      manifestDigest := d.board.manifestDigest
      header := d.board.header }
    link := { Link.reset with
      porstLow := d.link.porstLow
      perstLow := d.link.perstLow
      mainPower := d.link.mainPower
      onBattery := d.link.onBattery
      batDead := d.link.batDead
      boardId := d.link.boardId
      supplyReset := d.link.supplyReset
      startAt := if d.link.supplyReset then d.link.startAt else d.clk } }

/-- The open-drain pins are released in reset and without power (R490 [18]). -/
def releasePins (d : Dev) : Dev :=
  let d := if d.link.errNLow then emit (.errN false) d else d
  let d := if d.board.busLow then emit (.tamperBus false) d else d
  let d := if d.prot.tamperLowUntil != 0 then emit (.tamperN false) d else d
  if d.prot.thermTripLow then emit (.thermTripN false) d else d

/-- PORST_N going low (R487): the effects of power loss, every slice FREE. -/
def execPorstNAssert : State → Out :=
  onDev (fun d =>
    let d := powerLoss (releasePins d)
    { d with link := { d.link with porstLow := true } })

/-- PERST_N going low; DEBUG_OPEN lasts until PORST_N (R373 [13]). -/
def execPerstNAssert : State → Out :=
  onDev (fun d =>
    let dbg := d.link.debugOpen
    let d := powerLoss (releasePins d)
    { d with link := { d.link with perstLow := true, debugOpen := dbg } })

/-- SUPPLY_RESET (R402): as PORST_N, until every supply has been above its reset level for 1 ms. -/
def execSupplyReset (_supply : Fin 8) : State → Out :=
  onDev (fun d =>
    let d := powerLoss (releasePins d)
    { d with link := { d.link with supplyReset := true, startAt := d.clk } })

/-- MAIN_POWER_LOSS (R486): the battery domain goes to VBAT. -/
def execMainPowerLoss : State → Out :=
  onDev (fun d =>
    let d := powerLoss (releasePins d)
    { d with link := { d.link with mainPower := false, onBattery := true, supplyReset := true } })

/-- MAIN_POWER_RETURN (R486): the battery domain goes back to VDD_SEC; the internal reset lasts its 1 ms. -/
def execMainPowerReturn : State → Out :=
  onDev (fun d =>
    if d.link.mainPower then d
    else { d with link := { d.link with mainPower := true, onBattery := false, batDead := false, startAt := d.clk } })

/-- BATTERY_DOMAIN_UNPOWERED (R407, R408): on battery alone, the vault is lost without an alarm, and what else
the domain holds restarts. -/
def execBatteryDomainUnpowered : State → Out :=
  onDev (fun d =>
    if !d.link.onBattery then d
    else
      let d := eraseVault d
      { d with link := { d.link with batDead := true }
               prot := { d.prot with latched := false, batLog := List.replicate 16 0, batCount := 0, rtc := 0,
                                     rtcFrac := 0 } })

/-- Slice definitions lost: slices FREE, their commands and keys gone (R52, R59 [02], R176 [05]). -/
def loseSlices (d : Dev) : Dev :=
  let d := freeWhere (fun _ => true) { d with cmds := [], micro := { d.micro with ctxs := [], jobs := [] } }
  let d := mapCust vaultOnly d
  { d with slices := [], led := { d.led with matrix := [] }, dma := { d.dma with chans := [] } }

/-- LINK_LOSS (R52): commands aborted, DMA stopped, source 400; nothing more until PERST_N. -/
def execLinkLoss : State → Out :=
  onDev (fun d =>
    if !d.powered || d.link.linkLost then d
    else
      let d := raiseFault 400 0 0 none (loseSlices d)
      { d with held := [], link := { d.link with linkLost := true } })

/-- Queues and rings of a slice disabled by a function level reset; its INT_PENDING cleared (R90, R118). A
decommission whose command it aborts does not go on, and the slice stays in its state. -/
def flrSlice (x : Slice) : Slice :=
  let off (q : Nat × Sq) : Nat × Sq :=
    (q.1, { q.2 with st := .disabled, prod := none, notNewAt := none, contAt := none, pollDue := false, ciOwed := false })
  let offC (q : Nat × Cq) : Nat × Cq := (q.1, { q.2 with st := .disabled, uncovered := [] })
  { x with sqs := x.sqs.map off, cqs := x.cqs.map offC, intPend := 0, intSent := 0, streams := [], decom := none }

/-- Scratch bank `b`: the reset owners of R471 [17]. -/
def bankReset (b : Nat) : Bank :=
  { owner := if b < 32 then 0x10 + b else if b < 48 then 0 else 0x3F, wiping := false, wipeEnd := 0 }

/-- Scratch bank `b`. -/
def Dev.bank (d : Dev) (b : Nat) : Bank := tget (bankReset b) d.dma.banks b

/-- The device with a bank changed. -/
def modBank (b : Nat) (f : Bank → Bank) (d : Dev) : Dev :=
  { d with dma := { d.dma with banks := tset d.dma.banks b (f (d.bank b)) } }

/-- A wipe of a bank begins; it takes 0.6 µs (R472 [17]). -/
def startWipe (b owner : Nat) (d : Dev) : Dev :=
  modBank b (fun k => { k with owner := owner, wiping := true, wipeEnd := d.clk + 600 }) d

/-- FLR_PF0 (R90 [02], R470, R474 [17]). The pending bit array returns to its reset state with the MSI-X table (DESIGN
CHOICE, log 41). -/
def execFlrPf0 : State → Out :=
  onDev (fun d =>
    if !d.powered then d
    else
      let d := dropWhere (fun c => c.slice == 0) d
      let d := d.modSlice 0 flrSlice
      let d := { d with link := { d.link with msixTable := [], msixPend := 0 } }
      let d := forEach (List.range 8) (fun c d => modChan (56 + c) (fun _ => chanReset) d) d
      forEach (List.range 16) (fun b d => startWipe (32 + b) 0 d) d)

/-- FLR_PF1 (R90 [02]). -/
def execFlrPf1 : State → Out :=
  onDev (fun d =>
    if !d.powered then d
    else
      let d := dropWhere (fun c => c.slice != 0 && c.foreign.isNone) d
      forEach ((liveSlices d).filter (· != 0)) (fun s d => d.modSlice s flrSlice) d)

/-! Start-up (R451 [16]). -/

/-- TARGET and FROM of a complete intent slot (R367 [13]). -/
def slotDecode (w : BitVec 32) : Option (Nat × Nat) :=
  let n := w.toNat
  let t := bits n 7 0
  let f := bits n 23 16
  if bits n 15 8 = 255 - t && bits n 31 24 = 255 - f then some (t, f) else none

/-- The state word completed or refused at start-up (R370 [13]): OTP, whether a transition was finished,
and whether the device comes up as SCRAPPED with a FATAL fault. -/
def lcResolve (o : Otp) : Otp × Bool × Bool :=
  match (o.slots.getLast?).bind (fun x => slotDecode x.read) with
  | some (t, f) =>
    if o.word = lcWord t then (o, false, false)
    else if lcWord f &&& ~~~o.word = 0 && o.word &&& ~~~(lcWord t) = 0 then (enterState t o, true, false)
    else (o, false, true)
  | none => (o, false, (lcOfWord o.word).isNone)

/-- Applied configuration of slice 0 at the end of start-up (R64 [02]). -/
def slice0Cfg : SliceCfg :=
  { quota := 4096, cap := 4096, shLattice := 1023, shHash := 1023, shCode := 1023, shClassical := 1023,
    shCipher := 1023, queues := 16, maskOrder := 1, auditLevel := 0 }

/-- The life-cycle resolved (step 3). -/
def startLife (d : Dev) : Dev :=
  let (o, resumed, scrap) := lcResolve d.otp
  let d := if resumed then eraseVault d else d
  let d := { d with otp := o, link := { d.link with resumed := resumed, scrapped := scrap } }
  if scrap then raiseFault 405 0 0 none d else d

/-- The battery domain read (step 4, R407, R408 [14]). -/
def startBattery (d : Dev) : Dev :=
  let d := if d.prot.latched then { d with prot := { d.prot with st := .latched } } else d
  let l := d.prot.batLog.filter (fun e => e.getLsbD 63)
  let d := forEach l (fun e d => logEvent 8 (bits e.toNat 61 59) (bits e.toNat 55 48) (leBytes 8 e.toNat) d) d
  if l.isEmpty then d else raisePf0 325 d

/-- Every unit of a class in service. -/
def unitsIn (k : UnitClass) (d : Dev) : Dev :=
  forEach (List.range (unitCount k)) (fun u d => d.modUnit k u (fun _ =>
    { st := .inService, faults := 0, joinAt := 0, waiter := [], testEnd := 0, outAfter := false, testFor := none })) d

/-- Engines tested (step 6, R504 [14]): a unit that fails comes up OUT by fault, without an escalation timer;
entropy sources that fail their start-up tests stay failed (R508), and the DRBGs are instantiated. -/
def startUnits (badUnits : List (Nat × Nat)) (badEntropy : List Nat) (d : Dev) : Dev :=
  let d := forEach allUnitClasses unitsIn d
  let d := forEach badUnits (fun e d =>
    match uclassOf e.1 with
    | some k => if e.2 < unitCount k then raiseFaultT false (unitSource k + e.2) 0 0 none d else d
    | none => d) d
  let d := drawSlots (List.range 262) { d with dma := { d.dma with slotKeys := [], zeroing := [] } }
  startDrbgs (forEach badEntropy (fun i d => if i < 4 then raiseFault 407 0 0 none (entropyFail i d) else d) d)

/-- Keys and identities of the boot (step 7): R141, R146, R170, R173 [05], R458 [16]. -/
def startKeys (d : Dev) : Dev :=
  let d := { d with led := { d.led with vaultKey := vaultKeyOf d } }
  let bad := d.cust.any (fun e => (chooseMaster (copiesOf d e.1).1 (copiesOf d e.1).2).2)
  let d := if bad then raiseFault 406 0 0 none d else d
  let (b, d) := draw 8 d
  let d := { d with led := { Ledger.reset with vaultKey := d.led.vaultKey, boot := d.led.boot + 1, bootId := b, keyHeld := true }
                    linen := { d.linen with sdu := { d.linen.sdu with keyHeld := true } } }
  (attachMaster 0 d).2

/-- The time base after start-up (R338, R341, R354 [12]). -/
def startBoard (d : Dev) : Dev :=
  if d.board.key.isNone then
    { d with board := { d.board with lock := .master, masterPos := d.link.boardId.toNat, member := .unbound } }
  else { d with board := { d.board with lock := .unlocked, member := .linkDown, silentFrom := d.clk } }

/-- Slice 0 (R64 [02]) with its START record (R391 [13]); DEVICE_STARTING lifted (R15). -/
def startSlice0 (d : Dev) : Dev :=
  let d := d.setSlice 0 { Slice.reset with st := .active, cfg := slice0Cfg }
  let d := auditStart 0 (d.mkId 0) d
  let req := decide (floorOf d.otp > 1)
  { d with link := { d.link with started := true, startAt := d.clk }
           micro := { d.micro with patchRequired := req }
           sched := { d.sched with lastRound := d.clk }
           linen := { d.linen with wdogAt := d.clk } }

/-- STARTUP: the release of the later reset, or the end of the internal supply reset (R451, R486). `straps` is
BOARD_ID as sampled (R491); `badUnits` and `badEntropy` fail their start-up tests. -/
def execStartup (straps : BitVec 3) (badUnits : List (Nat × Nat)) (badEntropy : List Nat) (s : State) : Out :=
  onBoth (fun d m =>
    if d.link.started || !d.link.mainPower || (d.link.supplyReset && decide (d.clk < d.link.startAt + 1000000)) then (d, m)
    else
      let d := { d with devTime := 0, link := { d.link with porstLow := false, perstLow := false,
                                                            supplyReset := false, boardId := straps } }
      let d := startBattery (startLife d)
      (startSlice0 (startBoard (startKeys (startUnits badUnits badEntropy d))), Memory.zero)) s

/-! SPDM, IDE, ATS, test access port. -/

/-- The image in force in a bank; one without a patch or module set has nothing. -/
def noImage : Image :=
  { version := 0, svn := 0, fndsaRev := 0, hqcRev := 0, raiseFloor := false, matches_ := [], dispatch := [],
    words := [], digest := [], modules := [] }

/-- The vendor image in force (R421 [15]). -/
def Dev.patch (d : Dev) : Image := tget noImage d.micro.vendor d.micro.vendorBank

/-- The module set in force. -/
def Dev.modset (d : Dev) : Image := tget noImage d.micro.ext d.micro.extBank

/-- SPDM measurements by index (R87 [02]). The section names what each index measures and gives no encoding: a version
is 2 bytes, little-endian, a digest 32 bytes, a state its code in 1 byte, and the firmware digest is SHA3-256 of the
mask ROM image (DESIGN CHOICE, log 40). -/
def measurement (d : Dev) : Nat → Bytes
  | 1 => leBytes 2 0x0A01
  | 2 => leBytes 2 d.patch.version ++ fit 32 d.patch.digest
  | 3 => fit 32 d.modset.digest
  | 4 => sha3_256 (fit 65536 (Config.rom 0))
  | 5 => match d.linen.policy with
    | some p => fit 32 p.digest
    | none => zeros 32
  | 6 => leBytes 1 d.lc
  | 7 => leBytes 1 d.otp.mode
  | _ => []

/-- ATS_INVALIDATE (R49): the translations leave the cache, and the invalidation completes. -/
def execAtsInvalidate (pasid : BitVec 20) (pages : List Nat) : State → Out :=
  onDev (fun d =>
    if !d.powered then d
    else
      let keep := d.dma.ats.filter (fun (e : Nat × Nat) => !(e.1 == pasid.toNat && pages.contains e.2))
      emit (.atsInvalidated pasid.toNat) { d with dma := { d.dma with ats := keep } })

/-- Working keys erased exactly as a T3 response does (R366 [13]). -/
def eraseAsT3 (d : Dev) : Dev :=
  let d := eraseKeys (enterHold true d)
  if d.prot.st = .latched then d else raisePf0 322 { d with prot := { d.prot with st := .erased } }

/-- TAP_INSTRUCTION (R365, R366 [13], R494 [18]): what the life-cycle lets through. -/
def execTapInstruction (ti : TapInstr) (s : State) : Out :=
  onBoth (fun d m =>
    let opened := d.lc = 0 || isTestUnlocked d.lc || d.link.debugOpen
    let pub := d.lc != 21
    match ti with
    | .bypass => (d, m)
    | .samplePreload => (d, m)
    | .idcode => if d.powered && pub then (emit (.readData (leBytes 4 0x09720A8F)) d, m) else (d, m)
    | .extest =>
      if d.powered && (d.lc = 18 || d.lc = 19) then (eraseAsT3 d, { m with scr := [] }) else (d, m)
    | _ =>
      if d.powered && opened then ({ d with link := { d.link with tapOpen := true } }, m) else (d, m)) s

/-- RTC_ALARM (R449 [16]): Linen vector 23. -/
def execRtcAlarm : State → Out := onDev (fun d => if d.powered then linenPend 23 d else d)

end Sys2Proof.Machine
end

