-- ==== Sys2Proof/Machine/Slices.lean ====
section
/-!
DEFINITION. Slices: administration commands, PASIDs, exchange windows, mailboxes, interrupts, IDE_CTRL (R56 to
R89, R505 [02]).
-/
namespace Sys2Proof.Machine

/-- The page and the window of the slice answer (R57): the slice is ACTIVE or PAUSED. -/
def Dev.open_ (d : Dev) (s : Nat) : Bool :=
  d.reachable && ((d.slice s).st == .active || (d.slice s).st == .paused)

/-- The moment of a scheduling round: the round's own, or 1 µs after the last one (R30 [01]). -/
def Dev.atRound (d : Dev) : Bool := d.clk == d.sched.lastRound || decide (d.sched.lastRound + 1000 ≤ d.clk)

/-! Exchange windows (R80). -/

/-- The command names page `n` of its slice's window. -/
def namesPage (c : Cmd) (n : Nat) : Bool :=
  c.pkt.descs.any (fun x => x.space == 1 && x.len != 0 && decide (x.addr / 4096 ≤ n)
    && decide (n ≤ (x.addr + x.len - 1) / 4096))

/-- XW_PAGE of page `n` of a slice. -/
def Slice.page (x : Slice) (n : Nat) : XwPage := tget ⟨false, false⟩ x.xw n

/-- XW_PAGE.BUSY: an admitted command of the slice names the page. The manual does not say whether a command whose
outputs are written and whose record waits in the reorder pool still counts: it does not (DESIGN CHOICE, log 42). -/
def pageBusy (d : Dev) (s n : Nat) : Bool := d.cmds.any (fun c => c.slice == s && c.inFlight && namesPage c n)

/-- The device with a page changed. -/
def modPage (s n : Nat) (f : XwPage → XwPage) (d : Dev) : Dev :=
  d.modSlice s (fun x => { x with xw := tset x.xw n (f (x.page n)) })

/-- XW_OWNER_WRITE (R80): a reclaim of a busy page is held; a write of 1 cancels it. -/
def execXwOwnerWrite (sl : Fin 256) (page : Fin 16) (v : BitVec 32) : State → Out :=
  onDev (fun d =>
    if !d.open_ sl then d
    else modPage sl page (fun p =>
      if v.getLsbD 0 then { owner := true, reclaim := false }
      else if p.owner && pageBusy d sl page then { p with reclaim := true }
      else { owner := false, reclaim := false }) d)

/-- XW_RECLAIM_APPLY (R80): once BUSY is 0. -/
def execXwReclaimApply (sl : Fin 256) (page : Fin 16) : State → Out :=
  onDev (fun d =>
    if ((d.slice sl).page page).reclaim && !pageBusy d sl page then
      modPage sl page (fun _ => { owner := false, reclaim := false }) d
    else d)

/-- BAR2 reaches the byte at offset `a` of BAR2: its slice exists and the page is the tenant's (R57, R80). -/
def bar2Open (d : Dev) (a : Nat) : Bool :=
  d.open_ (a / 65536) && !((d.slice (a / 65536)).page (a % 65536 / 4096)).owner

/-- A byte read through BAR2: all ones where it is not reached, or where the memory cannot be read (R479). -/
def bar2Byte (d : Dev) (m : Memory) (a : Nat) : Byte :=
  if bar2Open d a && hbmOk d (a / 65536) then memGet m.hbm (xwBase 0 + a) else 0xFF

/-- Bytes written through BAR2 from offset `a` of BAR2. -/
def bar2Write (d : Dev) (m : Memory) (a : Nat) : Bytes → Memory
  | [] => m
  | x :: xs =>
    bar2Write d (if bar2Open d a && hbmOk d (a / 65536)
      then { m with hbm := memPut m.hbm (xwBase 0 + a) x } else m) (a + 1) xs

/-- An access through BAR2 to memory that cannot be read raises the CONTAINED fault of its stack, and MASTER_ID names
the slice (R479). -/
def bar2Fault (a : Nat) (write : Bool) (d : Dev) : Dev :=
  if bar2Open d a && !hbmOk d (a / 65536) then
    let x := xwBase 0 + a
    raiseFaultBy true (some (a / 65536 * 256)) (268 + x / 4096 % 2) x (if write then 5 else 4) none d
  else d

/-- XW_BAR2_ACCESS (R80): a read of `width` bytes, or a write of them. An address beyond BAR2 does not exist. -/
def execXwBar2Access (sl : Fin 256) (off : Nat) (width : Nat) (wr : Option Nat) (s : State) : Out :=
  let a := sl.val * 65536 + off
  if a + width > 0x1000000 then .fault .outsideBar
  else
    onBoth (fun d m =>
      match wr with
      | some v => (bar2Fault a true d, bar2Write d m a (leBytes width v))
      | none => (bar2Fault a false (emit (.readData ((List.range width).map (fun i => bar2Byte d m (a + i)))) d), m)) s

/-! Mailboxes (R78, R79) and interrupts (R84, R85). -/

/-- T2M_POST: discarded while T2M_FULL is 1. -/
def execT2mPost (sl : Fin 256) : State → Out :=
  onDev (fun d =>
    if d.open_ sl && !(d.slice sl).t2mFull then
      raisePf0 sl (d.modSlice sl (fun x => { x with t2mFull := true }))
    else d)

/-- M2T_ACK. -/
def execM2tAck (sl : Fin 256) : State → Out :=
  onDev (fun d => if d.open_ sl then d.modSlice sl (fun x => { x with m2tFull := false }) else d)

/-- M2T_POST: discarded while M2T_FULL is 1. -/
def execM2tPost (sl : Fin 256) : State → Out :=
  onDev (fun d =>
    if d.reachable && !(d.slice sl).m2tFull then
      raiseSlice sl 1 (d.modSlice sl (fun x => { x with m2tFull := true }))
    else d)

/-- T2M_ACK: no effect while T2M_FULL is 0. -/
def execT2mAck (sl : Fin 256) : State → Out :=
  onDev (fun d =>
    if d.reachable && (d.slice sl).t2mFull then
      raiseSlice sl 1 (d.modSlice sl (fun x => { x with t2mFull := false }))
    else d)

/-- INT_MASK_WRITE: a vector unmasked while its bit is pending sends its message. -/
def execIntMaskWrite (sl : Fin 256) (v : BitVec 32) : State → Out :=
  onDev (fun d =>
    if d.open_ sl then
      forEach (List.range 4) (sendSliceMsg sl) (d.modSlice sl (fun x => { x with intMask := v.setWidth 4 }))
    else d)

/-- INT_PENDING_CLEAR: write 1 to clear; the next event may send its message again. -/
def execIntPendingClear (sl : Fin 256) (v : BitVec 32) : State → Out :=
  onDev (fun d =>
    if d.open_ sl then
      d.modSlice sl (fun x => { x with intPend := x.intPend &&& ~~~(v.setWidth 4),
                                       intSent := x.intSent &&& ~~~(v.setWidth 4) })
    else d)

/-- IDE_CTRL_WRITE (R89): IDE_REQUIRED under LOCK, LOCK only set. -/
def execIdeCtrlWrite (v : BitVec 32) : State → Out :=
  onDev (fun d =>
    if !d.reachable then d
    else { d with link := { d.link with
      ideRequired := if d.link.ideLock then d.link.ideRequired else v.getLsbD 0
      ideLock := d.link.ideLock || v.getLsbD 31 } })

/-! Slice configuration (R69 to R71). -/

/-- A configuration block as applied (R69). -/
def SliceCfg.block (c : SliceCfg) : Bytes :=
  leBytes 4 c.quota ++ leBytes 4 c.cap ++ leBytes 2 c.shLattice ++ leBytes 2 c.shHash ++ leBytes 2 c.shCode
    ++ leBytes 2 c.shClassical ++ leBytes 2 c.shCipher ++ leBytes 1 c.queues ++ leBytes 1 c.maskOrder
    ++ leBytes 1 c.auditLevel ++ zeros 11

/-- The configuration a slice has, or will have at the next round. -/
def Slice.newest (x : Slice) : SliceCfg := x.nextCfg.getD x.cfg

/-- Quotas of all other slices. -/
def otherQuotas (d : Dev) (s : Nat) : Nat :=
  ((d.slices.filter (fun e => e.1 != s && e.2.st != .free)).map (·.2.newest.quota)).sum

/-- A value clamped to a range. -/
def clampTo (lo hi v : Nat) : Nat := if v > hi then hi else if v < lo then lo else v

/-- MASK_ORDER as accepted (R69). -/
def clampMask (test : Bool) (v : Nat) : Nat := if v = 0 then (if test then 0 else 1) else min v 2

/-- A configuration block checked and clamped (R69, R70): a status that refuses it, or CLAMP_MASK and the
configuration. -/
def clampCfg (d : Dev) (s : Nat) (b : Bytes) : Status ⊕ (Nat × SliceCfg) :=
  if !allZero (seg b 0x15 11) then .inl .packetMalformed
  else if field b 0x14 1 > 1 then .inl .fieldRejected
  else
    let c : SliceCfg :=
      { quota := clampTo (ledgerUsed d s) (131072 - otherQuotas d s) (field b 0 4),
        cap := clampTo 64 65536 (field b 4 4), shLattice := min 1023 (field b 8 2),
        shHash := min 1023 (field b 0xA 2), shCode := min 1023 (field b 0xC 2),
        shClassical := min 1023 (field b 0xE 2), shCipher := min 1023 (field b 0x10 2),
        queues := clampTo 1 16 (field b 0x12 1), maskOrder := clampMask (isTestUnlocked d.lc) (field b 0x13 1),
        auditLevel := field b 0x14 1 }
    let mask := b2n (c.quota != field b 0 4) + 2 * b2n (c.cap != field b 4 4)
      + 4 * b2n (c.shLattice != field b 8 2) + 8 * b2n (c.shHash != field b 0xA 2)
      + 16 * b2n (c.shCode != field b 0xC 2) + 32 * b2n (c.shClassical != field b 0xE 2)
      + 64 * b2n (c.shCipher != field b 0x10 2) + 128 * b2n (c.queues != field b 0x12 1)
      + 256 * b2n (c.maskOrder != field b 0x13 1)
    .inr (mask, c)

/-- A lowered QUEUES leaves out a queue or a ring that is not DISABLED (R71). -/
def queuesInUse (x : Slice) (n : Nat) : Bool :=
  (List.range 16).any (fun q => decide (n ≤ q) && ((x.sq q).st != .disabled || (x.cq q).st != .disabled))

/-- Clamp report (R70). -/
def clampReport (mask : Nat) (c : SliceCfg) : Bytes := leBytes 4 mask ++ zeros 4 ++ c.block

/-- OK or OK_CLAMPED. -/
def clampStatus (mask : Nat) : Status := if mask = 0 then .ok else .okClamped

/-- SLICE_CREATE is refused by the tenancy mode or the life cycle (R65; R365 [13]). -/
def createRefused (d : Dev) (s : Nat) : Bool :=
  if d.lc = 0 || d.lc = 17 || d.lc = 20 then true
  else if isTest d.lc then false
  else d.otp.mode == 1 && s != 1

/-- A slice made ACTIVE with a configuration due at the next round (R59, R66, R391 [13]); what R67 leaves of an
earlier one of its number stays. -/
def createSlice (s : Nat) (c : SliceCfg) (d : Dev) : Bool × Dev :=
  let (att, d) := attachMaster s d
  let x := d.slice s
  let d := d.setSlice s { Slice.reset with st := .active, nextCfg := some c, intMsg := x.intMsg,
                                           intMask := x.intMask, intPend := x.intPend, intSent := x.intSent, xw := x.xw,
                                           m2t := x.m2t, m2tFull := x.m2tFull }
  let d := drawSlots [s] d
  (att, auditStart s (d.mkId s) d)

/-- The exchange window of slice `s` is still to be zeroised (R478 [17]). -/
def windowOwed (d : Dev) (s : Nat) : Bool := d.dma.zeroing.contains none || d.dma.zeroing.contains (some s)

/-- SLICE_CREATE (R61 to R66, R70). While the slice's exchange window is still being zeroised, it waits (R480
[17]). Which status wins where several apply the manual leaves open: the configuration block is checked first, then
what may be created, then the slice's state (DESIGN CHOICE, log 43); so do SLICE_CONFIGURE, PASID_BIND and
PASID_UNBIND. -/
def execSliceCreate (id : Nat) : State → Out :=
  execOp .sliceCreate id (fun m c d =>
    let s := c.prm
    match clampCfg d s (inp m d c 0) with
    | .inl st => failWith st id d
    | .inr (mask, cfg) =>
      if s = 0 then failWith .sliceStateInvalid id d
      else if createRefused d s then failWith .modeRefused id d
      else if (d.slice s).st != .free then failWith .sliceStateInvalid id d
      else
        let (att, d) := createSlice s cfg d
        let o : Outcome := { status := clampStatus mask, result := [],
                             outs := [(1, clampReport mask cfg), (2, leBytes 4 (b2n att))] }
        if windowOwed d s then setCmd { c with stage := .waiting, outcome := some o } d
        else outcomeIs o id d)

/-- SLICE_CONFIGURE (R61, R70, R71). -/
def execSliceConfigure (id : Nat) : State → Out :=
  execOp .sliceConfigure id (fun m c d =>
    let s := c.prm
    let x := d.slice s
    match clampCfg d s (inp m d c 0) with
    | .inl st => failWith st id d
    | .inr (mask, cfg) =>
      if x.st == .free || x.st == .destroying then failWith .sliceStateInvalid id d
      else if cfg.queues < x.newest.queues && queuesInUse x cfg.queues then failWith .sliceStateInvalid id d
      else outcomeIs { status := clampStatus mask, outs := [(1, clampReport mask cfg)], result := [] } id
        (d.modSlice s (fun x => { x with nextCfg := some cfg })))

/-- Steps 2 to 6 of R67: commands aborted, entries and their material gone, the HBM key destroyed, the vault
records erased, mailboxes, push window and queues cleared, the slice FREE. -/
def destroySlice (s : Nat) (d : Dev) : Dev :=
  let d := dropWhere (fun c => c.slice == s) d
  let d := freeWhere (fun e => e.owner == s) d
  let d := d.modCust s (fun _ => Custody.reset)
  let x := d.slice s
  let d := d.setSlice s { Slice.reset with intMsg := x.intMsg, intMask := x.intMask, intPend := x.intPend,
                                           intSent := x.intSent, xw := x.xw }
  { d with dma := { d.dma with slotKeys := tdel d.dma.slotKeys s,
                               zeroing := (d.dma.zeroing ++ [some s]).eraseDups } }

/-- SLICE_DESTROY (R63, R67); its admission has set DESTROYING. Of a FREE slice the manual states no status: it is
SLICE_STATE_INVALID (DESIGN CHOICE, log 44). -/
def execSliceDestroy (id : Nat) : State → Out :=
  execOp .sliceDestroy id (fun _ c d =>
    if c.prm = 0 || (d.slice c.prm).st == .free then failWith .sliceStateInvalid id d
    else failWith .ok id (destroySlice c.prm d))

/-- SLICE_PAUSE (R59, R62, R63). -/
def execSlicePause (id : Nat) : State → Out :=
  execOp .slicePause id (fun _ c d =>
    if c.prm != 0 && (d.slice c.prm).st == .active then
      failWith .ok id (d.modSlice c.prm (fun x => { x with st := .paused }))
    else failWith .sliceStateInvalid id d)

/-- A slice ACTIVE again: fetch resumes at the next scheduling round, and posted push slots with it (R59). -/
def resumed (d : Dev) (x : Slice) : Slice := { x with st := .active, fetchFrom := d.sched.rounds + 1 }

/-- SLICE_RESUME (R59, R62, R63). -/
def execSliceResume (id : Nat) : State → Out :=
  execOp .sliceResume id (fun _ c d =>
    if c.prm != 0 && (d.slice c.prm).st == .paused then
      failWith .ok id (d.modSlice c.prm (resumed d))
    else failWith .sliceStateInvalid id d)

/-! PASIDs (R73 to R76). -/

/-- PASID slot `n` of slice `s`. -/
def Dev.pslot (d : Dev) (s n : Nat) : PasidSlot := (d.slice s).pasids.getD n ⟨false, 0, false⟩

/-- A PASID is bound to some slot of some slice (R74). -/
def pasidUsed (d : Dev) (p : BitVec 20) : Bool :=
  d.slices.any (fun e => e.2.pasids.any (fun x => x.valid && x.pasid == p))

/-- The slice is not there for PASID commands (R61, R505). -/
def noPasids (d : Dev) (s : Nat) : Bool :=
  s == 0 || (d.slice s).st == .free || (d.slice s).st == .destroying

/-- PASID_BIND (R61, R73, R74). -/
def execPasidBind (id : Nat) : State → Out :=
  execOp .pasidBind id (fun m c d =>
    let b := inp m d c 0
    let s := c.prm
    let n := field b 0 1
    let p := field b 4 4
    if !allZero (seg b 1 3) || p ≥ 2 ^ 20 then failWith .packetMalformed id d
    else if n > 3 then failWith .fieldRejected id d
    else if noPasids d s then failWith .sliceStateInvalid id d
    else if (d.pslot s n).valid || pasidUsed d (BitVec.ofNat 20 p) then failWith .pasidInUse id d
    else failWith .ok id (d.modSlice s (fun x => { x with
      pasids := x.pasids.set n ⟨true, BitVec.ofNat 20 p, false⟩ })))

/-- An enabled queue or ring of the slice uses the slot (R76). -/
def slotQueued (x : Slice) (n : Nat) : Bool :=
  x.sqs.any (fun e => e.2.st != .disabled && e.2.pasidSlot == n)
    || x.cqs.any (fun e => e.2.st != .disabled && e.2.pasidSlot == n)

/-- PASID_UNBIND (R76): the slot closes; the command waits for those that name it. -/
def execPasidUnbind (id : Nat) : State → Out :=
  execOp .pasidUnbind id (fun m c d =>
    let b := inp m d c 0
    let s := c.prm
    let n := field b 0 1
    if !allZero (b.drop 1) then failWith .packetMalformed id d
    else if n > 3 then failWith .fieldRejected id d
    else if noPasids d s then failWith .sliceStateInvalid id d
    else if !(d.pslot s n).valid then failWith .ok id d
    else if slotQueued (d.slice s) n then failWith .pasidInUse id d
    else
      let close (p : PasidSlot) : PasidSlot := { p with closing := true }
      setCmd { c with stage := .waiting } (d.modSlice s (fun x => { x with
        pasids := x.pasids.modify n close })))

/-- The command names PASID slot `n` in a descriptor. -/
def namesSlot (c : Cmd) (n : Nat) : Bool :=
  c.pkt.descs.any (fun x => x.space == 0 && x.pslot == n)

/-- PASID_UNBIND_DONE (R76): no admitted command whose record is not released names the slot; it is empty, its
translations are gone, and the commands that waited complete. -/
def execPasidUnbindDone (sl : Fin 256) (slot : Fin 4) : State → Out :=
  onDevM (fun m d =>
    let p := d.pslot sl slot
    if !p.closing || d.cmds.any (fun c => c.slice == sl.val && !c.refused && namesSlot c slot) then d
    else
      let w := d.cmds.filter (fun c => c.op == .pasidUnbind && c.stage == .waiting && c.prm == sl.val
        && field (inp m d c 0) 0 1 == slot.val)
      let d := d.modSlice sl (fun x => { x with pasids := x.pasids.set slot ⟨false, 0, false⟩ })
      let keep := d.dma.ats.filter (fun (e : Nat × Nat) => e.1 != p.pasid.toNat)
      let d := emit (.atsInvalidated p.pasid.toNat) { d with dma := { d.dma with ats := keep } }
      forEach (w.map (·.id)) (fun i d => conclude i (bare .ok) d) d)

end Sys2Proof.Machine
end

