-- ==== Sys2Proof/Machine/Form.lean ====
section
/-!
DEFINITION. What an opcode's own rules say of its packets: the key fields, the descriptors and their lengths
(R122 to R126, R129 [04]), and the parts of its engine work (R17, R30, R34 [01]).
-/
namespace Sys2Proof.Machine

/-- Roles of descriptors. -/
inductive Role where
  | kar | ek | pk2 | ct | ss | pk | report | ctx | msg | sig | digest | mac | params | nStr | sStr | opts
  | label | area | blob | restr | attr | context | iv | aad | src | dst | tag | seed | info | peer
  | block | block2 | pan | table | in0 | in1 | in2 | out0 | out1 | out2
deriving DecidableEq, Repr

/-- A descriptor of a form: its role, its direction, the lengths it may have, and whether it must be inline. -/
structure Arg where
  role : Role
  out : Bool
  lo : Nat
  hi : Nat
  inl : Bool := false

/-- An input of `lo` to `hi` bytes. -/
def inArg (r : Role) (lo hi : Nat) : Arg := { role := r, out := false, lo := lo, hi := hi }

/-- An input that must be inline. -/
def inlArg (r : Role) (lo hi : Nat) : Arg := { role := r, out := false, lo := lo, hi := hi, inl := true }

/-- An output of `n` bytes. -/
def outArg (r : Role) (n : Nat) : Arg := { role := r, out := true, lo := n, hi := n }

/-- A packet's form. -/
structure Form where
  /-- PARAM is defined (R126). -/
  param : Bool := true
  /-- Key fields that must be used, and further ones that may be (R125). -/
  need : List Nat := []
  may : List Nat := []
  args : List Arg := []
  /-- What an inline block that admission reads fails with (item 6 of R503). -/
  block : Option Status := none
  /-- Length rules beside those of the descriptors. -/
  lens : Bool := true
  /-- Data input and output that may be one buffer (R130). -/
  inplace : Option (Nat × Nat) := none

/-- LEN of descriptor `i`. -/
def Packet.dlen (p : Packet) (i : Nat) : Nat := if i < p.ndesc then (p.desc i).len else 0

/-- PARAM as a number. -/
def Packet.prm (p : Packet) : Nat := p.param.toNat

/-- A key field is used. -/
def Packet.hasKey (p : Packet) (i : Nat) : Bool := p.keys.getD i 0 != 0

/-- Required descriptors, then as many optional ones as NDESC says. -/
def withOpt (p : Packet) (base opts : List Arg) : List Arg := base ++ opts.take (p.ndesc - base.length)

/-- Descriptors present under a condition. -/
def onlyIf (b : Bool) (l : List Arg) : List Arg := if b then l else []

/-- Position of a role. -/
def Form.ix (f : Form) (r : Role) : Option Nat := f.args.findIdx? (fun a => a.role == r)

/-- Bytes of the input in a role; empty where the form has none. -/
def Form.get (f : Form) (m : Memory) (d : Dev) (c : Cmd) (r : Role) : Bytes :=
  match f.ix r with
  | some i => inp m d c i
  | none => []

/-- LEN of the descriptor in a role. -/
def Form.len (f : Form) (p : Packet) (r : Role) : Nat :=
  match f.ix r with
  | some i => p.dlen i
  | none => 0

/-- Bytes for the output in a role, where the packet has it. -/
def Form.put (f : Form) (r : Role) (b : Bytes) : List (Nat × Bytes) :=
  match f.ix r with
  | some i => [(i, b)]
  | none => []

/-- Inline bytes of descriptor `i`, as admission reads them. -/
def Packet.inlineOf (p : Packet) (i : Nat) : Bytes :=
  if i < p.ndesc && (p.desc i).space == 2 then seg p.inline (p.desc i).addr (p.desc i).len else []

/-- Bytes of descriptor `i` that key resolution reads: inline, or read ahead with the entry. -/
def Cmd.early (c : Cmd) (i : Nat) : Bytes :=
  if i < c.pkt.ndesc then
    if (c.pkt.desc i).space = 2 then c.pkt.inlineOf i else (tfind c.inputs i).getD []
  else []

/-- A part of a command's engine work: the class, its credits, the time they are held, and what is charged. -/
structure Part where
  cls : EngClass
  credits : Nat
  hold : Nat
  charge : Nat

/-- A part charged credits × time (R30). -/
def part (k : EngClass) (n t : Nat) : Part := { cls := k, credits := n, hold := t, charge := n * t }

/-- The key resolved for a key field. -/
def Cmd.key (c : Cmd) (i : Nat) : Option Entry := (c.keys.find? (fun k => k.field == i)).map (·.ent)

/-- Material of the key in a field. -/
def Cmd.mat (c : Cmd) (i : Nat) : Bytes := ((c.key i).map (·.material)).getD []

/-- Public-key encoding of the key in a field. -/
def Cmd.pub (c : Cmd) (i : Nat) : Bytes := ((c.key i).map (·.pub)).getD []

/-- TYPE of the key in a field. -/
def Cmd.typ (c : Cmd) (i : Nat) : Nat := ((c.key i).map (·.typ)).getD 0

/-- Masking order of a command's slice (R69 [02], R182 [06]). -/
def orderOf (d : Dev) (c : Cmd) : Nat :=
  match c.foreign with
  | some f => f.req.maskOrder
  | none => (d.slice c.slice).cfg.maskOrder

/-- Number of started blocks of a message beyond what a service time covers (R186 [06], R226 [07]). -/
def extraBlocks (len covered block : Nat) : Nat := cdiv (len - covered) block

/-- The device-wide generator can serve (R183 [06]): some DRBG instance passes its health tests. -/
def entropyOk (d : Dev) : Bool := !d.prot.entropy.all (·.failed)

/-- A CONTAINED fault of the first unit of a class that a command holds (R197 [06], R281 [09]). -/
def faultOfUnit (k : UnitClass) (c : Cmd) (d : Dev) : Dev :=
  match c.units.find? (fun h => h.cls == k) with
  | some h => raiseFault (unitSource k + h.unit) 0 0 none d
  | none => d

/-- A result withheld by an end-of-job check: INVARIANT_FAIL at the end of the service time, with a CONTAINED fault of the
unit (R185, R197 [06], R227 [07], R263, R281 [09]). -/
def invariantFail (k : UnitClass) (id : Nat) (d : Dev) (result : Bytes := []) : Dev :=
  outcomeIs { status := .invariantFail, outs := [], result := result, fault := some k } id d

/-! Engine memories (R178 [06], R212 [07], R240 [08], R259 [09], R285 [10]). -/

/-- Engine memory of a job at its start: wiped. -/
def jobZero : JobMem :=
  { order := 0, started := false, slots := [], keccak := [], damask := ⟨[], [], []⟩, lane := ⟨[], [], []⟩,
    tweed := ⟨[], [], [], [], [], [], []⟩, operand := [], modulus := 0, modWords := 0, acc := 0, hashUnit := [],
    blinding := [], satin := ⟨[], [], [], [], [], [], []⟩, pay := [],
    holding := [] }

/-- Engine memory of job `id`. -/
def Dev.job (d : Dev) (id : Nat) : JobMem := tget jobZero d.micro.jobs id

/-- The device with a job's memory replaced. -/
def setJob (id : Nat) (j : JobMem) (d : Dev) : Dev :=
  { d with micro := { d.micro with jobs := tset d.micro.jobs id j } }

/-- `n + 1` Boolean shares of a value: all but the last are drawn, and their exclusive or is the value (log 14). -/
def xorShares (b : Bytes) : Nat → Dev → List Bytes × Dev
  | 0, d => ([b], d)
  | n + 1, d =>
    let (r, d) := draw b.length d
    let (l, d) := xorShares (xorB b r) n d
    (r :: l, d)

/-- The shares of a value at a masking order; at order 0, two with the mask share zero (R183, R184 [06]). -/
def sharesOf (b : Bytes) (order : Nat) (d : Dev) : List Bytes × Dev :=
  if order = 0 then ([zeros b.length, b], d) else xorShares b order d

/-- Byte strings in consecutive slots of 1 KiB from slot 0, each from a slot of its own. -/
def slotsOf (l : List Bytes) : TMap Bytes :=
  let b := l.flatMap (fun x => fit (1024 * cdiv x.length 1024) x)
  (List.range (min 64 (cdiv b.length 1024))).foldl (fun t i => tset t i (seg b (1024 * i) 1024)) []

/-- A byte string as 64-bit words of operand memory, as many as `n`. -/
def wordsOf (n : Nat) (b : Bytes) : TMap Word64 :=
  (List.range (min n (cdiv b.length 8))).foldl (fun t i => tset t i (BitVec.ofNat 64 (field b (8 * i) 8))) []

/-- What the dispatch of a command puts into the memories of its engines (DESIGN CHOICE, log 54): the unwrap unit delivers
the key, as shares where the engine masks (R180, R183 [06], R242 [08], R285 [10]); the mask generator, blinding generator
and random source are seeded from a DRBG (`rnd`; R178, R262 [09], R287 [10]); a Tweed job draws the key of its working
region, once for each attempt (R241, R252); a job that goes on takes up its saved context (R220, R300). A module gets no
key (R211). -/
def loadJob (c : Cmd) (rnd : Bool) (d : Dev) : Dev :=
  let has (k : EngClass) : Bool := c.classes.contains k && c.op != .moduleOp
  let (seed, d) := if rnd then draw 48 d else ([], d)
  let (lat, d) := if has .lattice then (if rnd then sharesOf (c.mat 0) c.order d else ([c.pub 0], d)) else ([], d)
  let (two, d) := if has .code || has .cipher then xorShares (c.mat 0) 1 d else ([], d)
  let (rkey, d) := if has .code then draw (32 * max 1 c.draws) d else ([], d)
  let words := 256 * ((c.units.filter (fun h => h.cls == .classical)).map (·.n)).sum
  let slot := c.saved.getD ⟨0, [], [], []⟩
  setJob c.id { jobZero with
    order := c.order
    slots := slotsOf lat
    damask := { jobZero.damask with masks := if c.classes.contains .lattice then seed else [] }
    lane := if has .hash then { buf := [], key := c.mat 0, chain := slot.chaining } else jobZero.lane
    tweed := if has .code then { jobZero.tweed with secret := two, regionKey := rkey.drop (rkey.length - 32) } else jobZero.tweed
    operand := if has .classical then wordsOf words (if has .lattice then c.mat 1 else c.mat 0) else []
    blinding := if c.classes.contains .classical then seed else []
    satin := if has .cipher then
        { jobZero.satin with key := two, random := seed, chaining := slot.chaining, counter := slot.counter,
                             ghash := slot.acc }
      else jobZero.satin } d

/-! Streamed messages (R131 to R133 [04], R219 [07], R299 [10]). -/

/-- A descriptor list by kind of segment: the heads come with the first segment, `data` with every one, the
`tail` with the final one. -/
def segArgs (p : Packet) (heads data tail : List Arg) : List Arg :=
  match p.segf with
  | 0 => heads ++ data ++ tail
  | 1 => heads ++ data
  | 2 => data
  | _ => data ++ tail

/-- A message descriptor: of a segment, 1 byte or more (R132). -/
def msgArg (p : Packet) : Arg := inArg .msg (if p.segf = 0 then 0 else 1) 16777216

/-- The small inputs that precede the message: the command's own, or those the stream keeps. -/
def headsOf (m : Memory) (d : Dev) (c : Cmd) (n : Nat) : List Bytes :=
  if c.pkt.segf ≤ 1 then (List.range n).map (inp m d c)
  else
    match streamOf d c with
    | some t => t.heads
    | none => []

/-- Message bytes that earlier segments have brought. -/
def dataOf (d : Dev) (c : Cmd) : Bytes :=
  match streamOf d c with
  | some t => if c.pkt.segf = 1 then [] else t.data
  | none => []

/-- The stream takes a segment's bytes, and the heads of a first one. -/
def streamTake (c : Cmd) (heads : List Bytes) (msg : Bytes) (d : Dev) : Dev :=
  d.modSlice c.slice (fun x => { x with streams := x.streams.map (fun t =>
    if t.sid = c.pkt.sid && t.queue = c.qk then { t with heads := heads, data := t.data ++ msg } else t) })

/-- A non-final segment processed: SEGMENT_ACCEPTED, with the bytes accepted so far as RESULT (R132, R135). -/
def segAccepted (id : Nat) (outs : List (Nat × Bytes)) (heads : List Bytes) (msg : Bytes) (c : Cmd) (d : Dev) :
    Dev :=
  outcomeIs { status := .segmentAccepted, outs := outs,
              result := leBytes 8 ((dataOf d c).length + msg.length) } id (streamTake c heads msg d)

end Sys2Proof.Machine
end

