-- ==== Sys2Proof/Machine/Keys.lean ====
section
/-!
DEFINITION. Key types, their lengths, usages and check values; key attribute requests; making a ledger key
(R146 to R152, R156 [05]; R188 [06]; R223, R228 to R230 [07]; R244 to R246 [08]; R266 [09]).
-/
namespace Sys2Proof.Machine

/-- Bytes of a symmetric algorithm's key, TYPE 0x01 to 0x05. -/
def symLen : Nat → Nat
  | 1 => 16
  | 2 => 24
  | 3 => 32
  | 4 => 16
  | 5 => 24
  | _ => 0

/-! Stateful parameter codes (R228 [07]). -/

/-- A stateful parameter set: levels (or layers), height of each, n, and, of LMS, W. -/
structure TreeSet where
  layers : Nat
  h : Nat
  n : Nat
  w : Nat

/-- Total height H. -/
def TreeSet.total (t : TreeSet) : Nat := t.layers * t.h

/-- The LMS or HSS set of a SUBTYPE. -/
def lmsSet (s : Nat) : Option TreeSet :=
  let t : TreeSet := { layers := bits s 7 6 + 1, h := 5 * (bits s 2 0 + 1), n := if bit s 5 then 24 else 32,
                       w := 2 ^ bits s 4 3 }
  if bits s 2 0 > 4 || t.total > 40 then none else some t

/-- The XMSS (MT 0) or XMSS^MT (MT 1) set of a SUBTYPE. -/
def xmssSet (s : Nat) : Option TreeSet :=
  let n := if bit s 4 then 24 else 32
  let mk (l h : Nat) : Option TreeSet := some { layers := l, h := h, n := n, w := 0 }
  if bits s 6 5 != 0 || bit s 3 then none
  else if bit s 7 then
    match bits s 2 0 with
    | 0 => mk 2 10
    | 1 => mk 4 5
    | 2 => mk 2 20
    | 3 => mk 4 10
    | 4 => mk 8 5
    | _ => none
  else
    match bits s 2 0 with
    | 0 => mk 1 10
    | 1 => mk 1 16
    | 2 => mk 1 20
    | _ => none

/-- The stateful set of a TYPE and SUBTYPE. -/
def treeSet (typ s : Nat) : Option TreeSet :=
  if typ = 0x30 then lmsSet s
  else if typ = 0x31 && !bit s 7 then xmssSet s
  else if typ = 0x32 && bit s 7 then xmssSet s
  else none

/-- SLH-DSA n by set code. -/
def slhN (code : Nat) : Nat := 16 + 8 * (code / 4)

/-- Field length of a prime-order curve code, and key length of the others (R266). -/
def curveLen (code : Nat) : Nat := [32, 48, 66, 32, 48, 64, 0, 0, 32, 57, 32, 56].getD code 0

/-- MATERIAL_LEN and public-key length of a TYPE and SUBTYPE; none where R148 reserves them. -/
def typeLens (t s : Nat) : Option (Nat × Nat) :=
  if 1 ≤ t && t ≤ 5 then if s = 0 then some (symLen t, 0) else none
  else if t = 6 then if 1 ≤ s % 16 && s % 16 ≤ 5 && 1 ≤ s / 16 then some (8 * (s / 16 + 1), 0) else none
  else if 0x10 ≤ t && t ≤ 0x12 && s = 0 then some ([(1632, 800), (2400, 1184), (3168, 1568)].getD (t - 0x10) (0, 0))
  else if 0x14 ≤ t && t ≤ 0x16 && s = 0 then some ([(3872, 1312), (5984, 1952), (7488, 2592)].getD (t - 0x14) (0, 0))
  else if 0x18 ≤ t && t ≤ 0x19 && s = 0 then some ([(2178, 897), (4098, 1793)].getD (t - 0x18) (0, 0))
  else if 0x20 ≤ t && t ≤ 0x2B && s = 0 then some (4 * slhN (t - 0x20), 2 * slhN (t - 0x20))
  else if t = 0x30 then (treeSet t s).map (fun x => (16 + x.n, 28 + x.n))
  else if t = 0x31 || t = 0x32 then (treeSet t s).map (fun x => (4 * x.n, 4 + 2 * x.n))
  else if 0x38 ≤ t && t ≤ 0x3A && s = 0 then some ([(2305, 2249), (4586, 4522), (7317, 7245)].getD (t - 0x38) (0, 0))
  else if 0x3C ≤ t && t ≤ 0x40 && s = 0 then
    some ([(6492, 261120), (13608, 524160), (13932, 1044992), (13948, 1047319), (14120, 1357824)].getD (t - 0x3C) (0, 0))
  else if t = 0x48 then if 0x0F ≤ s && s ≤ 0xFF then some (36 * (s + 1) + 32, 8 * (s + 1) + 32) else none
  else if 0x50 ≤ t && t ≤ 0x55 && s = 0 then some (1 + 3 * curveLen (t - 0x50), 1 + 2 * curveLen (t - 0x50))
  else if 0x58 ≤ t && t ≤ 0x5B && s = 0 then some (2 * curveLen (t - 0x50), curveLen (t - 0x50))
  else if 0x60 ≤ t && t ≤ 0x66 then if 1 ≤ s && s ≤ 5 then some (symLen s, 0) else none
  else none

/-- An asymmetric TYPE. -/
def isAsym (t : Nat) : Bool := decide (0x10 ≤ t) && decide (t ≤ 0x5F)

/-- A stateful TYPE. -/
def isTree (t : Nat) : Bool := decide (0x30 ≤ t) && decide (t ≤ 0x32)

/-- A Classic McEliece TYPE, whose public key is a companion of the private one (R246). -/
def isMce (t : Nat) : Bool := decide (0x3C ≤ t) && decide (t ≤ 0x40)

/-- Base algorithm of a symmetric or payment key, as a TYPE 0x01 to 0x06. -/
def baseAlg (t s : Nat) : Nat := if 0x60 ≤ t then s else t

/-- The engine class of a TYPE's algorithm (R137 [04]). -/
def typeClass (t : Nat) : EngClass :=
  if t = 6 then .hash
  else if 0x10 ≤ t && t ≤ 0x1F then .lattice
  else if 0x20 ≤ t && t ≤ 0x37 then .hash
  else if 0x38 ≤ t && t ≤ 0x47 then .code
  else if 0x48 ≤ t && t ≤ 0x5F then .classical
  else .cipher

/-- A mask with the bits listed. -/
def maskOf (l : List Nat) : Nat := (l.map (fun i => 2 ^ i)).sum

/-- Usage bits a family permits (R150). -/
def familyUsage (t : Nat) : Nat :=
  if 1 ≤ t && t ≤ 3 then maskOf [0, 1, 4, 5, 6, 7, 8, 12, 13, 14]
  else if t ≤ 5 then maskOf [0, 1, 4, 5, 6, 7, 12, 13, 14]
  else if t = 6 then maskOf [4, 5, 8, 12, 13, 14]
  else if t ≤ 0x12 || (0x38 ≤ t && t ≤ 0x40) then maskOf [9, 10, 12, 13, 14]
  else if t ≤ 0x2B then maskOf [2, 3, 12, 13, 14]
  else if t ≤ 0x32 then maskOf [2, 3, 12]
  else if t = 0x48 then maskOf [0, 1, 2, 3, 12, 13, 14]
  else if t ≤ 0x55 then maskOf [2, 3, 11, 12, 13, 14]
  else if t ≤ 0x59 then maskOf [2, 3, 12, 13, 14]
  else if t ≤ 0x5B then maskOf [11, 12, 13, 14]
  else if t ≤ 0x61 then maskOf [24, 12, 13, 14]
  else if t = 0x62 then maskOf [16, 17, 12, 13, 14]
  else if t = 0x63 then maskOf [25, 26, 12, 13, 14]
  else if t = 0x64 then maskOf [18, 19, 12, 13, 14]
  else if t = 0x65 then maskOf [20, 21, 12, 13, 14]
  else maskOf [22, 23, 12, 13, 14]

/-- Some bit of `b` is in `a`. -/
def anyBit (a b : Nat) : Bool := a &&& b != 0

/-- USAGE breaks a rule of R150. -/
def usageBad (t usage limit : Nat) (pubOnly : Bool) : Bool :=
  anyBit usage (2 ^ 32 - 1 - familyUsage t)
    || (anyBit usage (maskOf [6, 7]) && anyBit usage (maskOf [0, 1, 4, 5]))
    || (t == 0x48 && bit usage 2 && bit usage 1)
    || (decide (0x50 ≤ t) && decide (t ≤ 0x55) && bit usage 2 && bit usage 11)
    || (pubOnly && anyBit usage (2 ^ 32 - 1 - maskOf [0, 3, 9, 14]))
    || (limit != 0 && anyBit usage (maskOf [12, 13, 14]))

/-- A key attribute request (R151). -/
structure Req where
  typ : Nat
  sub : Nat
  flags : BitVec 16
  usage : Nat
  limit : Nat
  act : Nat
  exp : Nat

/-- The fields of a KAR. -/
def reqOf (b : Bytes) : Req :=
  { typ := field b 0 1, sub := field b 1 1, flags := BitVec.ofNat 16 (field b 2 2), usage := field b 4 4,
    limit := field b 8 4, act := field b 16 8, exp := field b 24 8 }

/-- Why a KAR is refused (R152): reserved bytes and bits, then its fields. -/
def karCheck (d : Dev) (b : Bytes) (pubOnly : Bool) : Option Status :=
  let r := reqOf b
  let cacheable := (0x10 ≤ r.typ && r.typ ≤ 0x12) || (0x14 ≤ r.typ && r.typ ≤ 0x16)
  if field b 12 4 != 0 || field b 2 2 > 3 then some .packetMalformed
  else if (typeLens r.typ r.sub).isNone || (r.flags.getLsbD 1 && !cacheable)
    || usageBad r.typ r.usage r.limit pubOnly
    || (r.exp != 0 && (decide (r.exp ≤ r.act) || decide (r.exp ≤ d.devTime))) then some .fieldRejected
  else none

/-! Material. -/

/-- The generation function of a TYPE. -/
def keygenStd (t : Nat) : Std :=
  if t ≤ 0x12 then .mlkemKeygen
  else if t ≤ 0x16 then .mldsaKeygen
  else if t ≤ 0x19 then .fndsaKeygen
  else if t ≤ 0x2B then .slhKeygen
  else if t = 0x30 then .lmsKeygen
  else if t ≤ 0x32 then .xmssKeygen
  else if t ≤ 0x3A then .hqcKeygen
  else if t ≤ 0x40 then .mceKeygen
  else if t = 0x48 then .rsaKeygen
  else .ecKeygen

/-- `a` to the power `e` modulo `n`; `fuel` is at least the number of bits of `e`. -/
def powModAux (n : Nat) : Nat → Nat → Nat → Nat
  | 0, _, _ => 1 % n
  | fuel + 1, a, e =>
    let r := powModAux n fuel (a * a % n) (e / 2)
    if e % 2 = 1 then a * r % n else r

/-- `a` to the power `e` modulo `n`. -/
def powMod (a e n : Nat) : Nat := powModAux n (e.log2 + 1) (a % n) e

/-- Extended Euclid: the coefficient of `a` in a gcd of `a` and `m`. -/
def bezout : Nat → Nat → Nat → Int → Int → Int
  | 0, _, _, s, _ => s
  | fuel + 1, a, b, s, t => if b = 0 then s else bezout fuel b (a % b) t (s - (a / b : Nat) * t)

/-- The inverse of `a` modulo `m`, where they have no common divisor. -/
def invMod (a m : Nat) : Nat := (bezout (2 * m.log2 + 4) (a % m) m 1 0 % (m : Int)).toNat

/-- A candidate of a prime of `h` bytes: the top two bits and the low bit are set (R272). -/
def rsaCandidate (h : Nat) (b : Bytes) : Nat :=
  Nat.lor (beNat b % 2 ^ (8 * h)) (2 ^ (8 * h - 1) + 2 ^ (8 * h - 2) + 1)

/-- Material of an RSA key of two primes and an exponent, in the order of R266. -/
def rsaMat (k p q e : Nat) : Bytes :=
  let h := k / 2
  let d := invMod e (Nat.lcm (p - 1) (q - 1))
  beBytes k (p * q) ++ beBytes 32 e ++ beBytes k d ++ beBytes h p ++ beBytes h q ++ beBytes h (d % (p - 1))
    ++ beBytes h (d % (q - 1)) ++ beBytes h (invMod q p)

/-- A generated RSA key (R266, R272): e = 65,537, and primes of half the modulus length, each the candidate at which its
search ends. -/
def rsaMaterial (s : Nat) (d : Dev) : Bytes × Dev :=
  let k := 8 * (s + 1)
  let (x, d) := draw (k / 2) d
  let (y, d) := draw (k / 2) d
  let prime (b : Bytes) : Nat := rsaCandidate (k / 2) (std .rsaPrime (k / 2) [] [b])
  (rsaMat k (prime x) (prime y) 65537, d)

/-- The public point of a scalar of a prime-order curve, uncompressed: 0x04 ‖ X ‖ Y (R265). -/
def ecPoint (code v : Nat) : Bytes := [0x04] ++ std .ecMul (2 * curveLen code) [code] [beBytes (curveLen code) v]

/-- A generated curve key (R266): d ‖ Q with d in [1, n − 1], or the private bytes and their public key. -/
def ecMaterial (code : Nat) (d : Dev) : Bytes × Dev :=
  let n := curveLen code
  if code ≤ 5 then
    let (r, d) := draw (n + 8) d
    let v := 1 + beNat r % (Config.curveNum code 1 - 1)
    (beBytes n v ++ ecPoint code v, d)
  else
    let (r, d) := draw n d
    (r ++ std .pubOf n [0x50 + code, 0] [r], d)

/-- The seed of a McEliece attempt, from the first of the sequence (R252). -/
def mceSeed (t : Nat) : Nat → Bytes → Bytes
  | 0, r => r
  | n + 1, r => mceSeed t n (std .mceSeed 32 [t] [r])

/-- New material of a TYPE: random bytes, or what its key generation makes of random bytes. A McEliece key comes of the
seed of its last attempt, in the form that bit F selects (R252); an HQC key of the revision in force (R243). -/
def newMaterial (c : Cmd) (t s : Nat) (d : Dev) : Bytes × Dev :=
  let n := ((typeLens t s).getD (0, 0)).1
  if t = 0x48 then rsaMaterial s d
  else if 0x50 ≤ t && t ≤ 0x5B then ecMaterial (t - 0x50) d
  else if isMce t then
    let (r, d) := draw 32 d
    let f := b2n (c.op == .mceKeygen && bit c.pkt.prm 3)
    (std .mceKeygen n [t, f] [mceSeed t (c.draws - 1) r], d)
  else if isAsym t && t != 0x30 then
    let (r, d) := draw 64 d
    (std (keygenStd t) n [t, s, if t ≤ 0x37 then 0 else c.revs.2] [r], d)
  else draw n d

/-- The public-key encoding that key-pair material holds or gives (R188, R223, R244 to R246, R266). -/
def pubOfMat (t s : Nat) (mat : Bytes) : Bytes :=
  let n := ((typeLens t s).getD (0, 0)).2
  if !isAsym t then []
  else if t ≤ 0x12 then seg mat (mat.length - 64 - n) n
  else if t = 0x48 then mat.take n
  else if isTree t || isMce t then std .pubOf n [t, s] [mat]
  else mat.drop (mat.length - n)

/-- Key check value (R156). -/
def kcvOf (t s : Nat) (mat pub : Bytes) : Bytes :=
  if isAsym t then (sha3_256 pub).take 3
  else
    match baseAlg t s with
    | 4 => (std .tdes 8 [0] [mat, zeros 8]).take 3
    | 5 => (std .tdes 8 [0] [mat, zeros 8]).take 3
    | 6 => (std .hmac 64 [s % 16] [mat, zeros 16]).take 3
    | _ => (std .cmac 16 [] [mat, zeros 16]).take 3

/-- The RSA checks of R267 on key-pair material, but for the round trip. -/
def rsaConsistent (s : Nat) (m : Bytes) : Bool :=
  let k := 8 * (s + 1)
  let h := k / 2
  let at_ (o l : Nat) : Nat := beNat (seg m o l)
  let n := at_ 0 k
  let e := at_ k 32
  let d := at_ (k + 32) k
  let p := at_ (2 * k + 32) h
  let q := at_ (2 * k + 32 + h) h
  let lam := Nat.lcm (p - 1) (q - 1)
  n == p * q && decide (2 ^ (8 * k - 1) ≤ n) && e % 2 == 1 && decide (65537 ≤ e) && e * d % lam == 1 % lam
    && at_ (2 * k + 32 + 2 * h) h == d % (p - 1) && at_ (2 * k + 32 + 3 * h) h == d % (q - 1)
    && at_ (2 * k + 32 + 4 * h) h * q % p == 1 % p

/-- The curve checks of R267 on key-pair material, but for the round trip: the scalar's range, and the public key
recomputed. -/
def ecConsistent (code : Nat) (mat pub : Bytes) : Bool :=
  let n := curveLen code
  let v := beNat (mat.take n)
  if code ≤ 5 then decide (1 ≤ v) && decide (v < Config.curveNum code 1) && pub == ecPoint code v
  else pub == std .pubOf n [0x50 + code, 0] [mat.take n]

/-- The recomputations of R189 and R247 on key-pair material, but for the round trip: the hash of FIPS 203, and the public
key remade from the private part. -/
def privConsistent (t : Nat) (mat pub : Bytes) : Bool :=
  if t ≤ 0x12 then seg mat (mat.length - 64) 32 == sha3_256 pub
  else if t ≤ 0x19 || (0x38 ≤ t && t ≤ 0x3A) then pub == std .pubOf pub.length [t, 0] [mat.take (mat.length - pub.length)]
  else true

/-- The verification of an asymmetric key pair (R159, R189, R227, R247, R267): its family's checks, then a round trip by
its usage. -/
def pairOk (t s usage : Nat) (mat pub : Bytes) : Bool :=
  !isAsym t ||
    ((if t = 0x48 then rsaConsistent s mat else if 0x50 ≤ t then ecConsistent (t - 0x50) mat pub else privConsistent t mat pub)
      && Config.stdOk .pubValid [0, t, s, b2n (bit usage 2)] [mat, pub])

/-- The 12-bit coefficients of an ML-KEM key of `3 * n` bytes of them, least significant bit first (R188). -/
def coefs12 (b : Bytes) : Nat → List Nat
  | 0 => []
  | n + 1 => field b 0 2 % 4096 :: field b 1 2 / 16 :: coefs12 (b.drop 3) n

/-- The 14-bit coefficients of an FN-DSA public key, most significant bit first (PRESUMED: the FN-DSA encoding, log 55). -/
def coefs14 (b : Bytes) : Nat → List Nat
  | 0 => []
  | n + 1 =>
    let v := beNat (b.take 7)
    [v / 2 ^ 42, v / 2 ^ 28 % 2 ^ 14, v / 2 ^ 14 % 2 ^ 14, v % 2 ^ 14] ++ coefs14 (b.drop 7) n

/-- The padding bits of every HQC public key, and of each row of the mceliece6960119 one, are 0 (R245, R247). -/
def paddingOk (t : Nat) (b : Bytes) : Bool :=
  let high (i n : Nat) : Bool := decide ((b.getD i 0).toNat < 2 ^ n)
  if 0x38 ≤ t && t ≤ 0x3A then high (b.length - 1) ([5, 3, 5].getD (t - 0x38) 0)
  else if t = 0x3F then (List.range 1547).all (fun r => high (677 * r + 676) 5)
  else true

/-- The rules of R280 on an RSA public key of size code `s`: n odd, of the code's length, e as R267 has it. -/
def rsaPubOk (s : Nat) (b : Bytes) : Bool :=
  let k := 8 * (s + 1)
  let n := beNat (b.take k)
  let e := beNat (b.drop k)
  n % 2 == 1 && decide (2 ^ (8 * k - 1) ≤ n) && e % 2 == 1 && decide (65537 ≤ e)

/-- The rules of R280 on a curve public key: an uncompressed point of the curve; a canonical EdDSA key of no small order;
an X25519 or X448 key has none. -/
def ecPubOk (code : Nat) (b : Bytes) : Bool :=
  let n := curveLen code
  let p := Config.curveNum code 0
  if code ≤ 5 then
    b.head? == some 0x04 && decide (beNat (seg b 1 n) < p) && decide (beNat (seg b (1 + n) n) < p)
      && Config.stdOk .ecPoint [code] [b]
  else if code = 8 || code = 9 then Config.stdOk .edPoint [code, 1] [b]
  else true

/-- A public-key encoding passes the rules of its engine chapter (R189, R227, R247, R280); of a stateful key, its type
fields agree with its SUBTYPE (R231). -/
def pubOk (t s : Nat) (pub : Bytes) : Bool :=
  if t ≤ 0x12 then (coefs12 pub ((pub.length - 32) / 3)).all (fun x => decide (x < 3329))
  else if t ≤ 0x16 then true
  else if t ≤ 0x19 then
    pub.head? == some (if t = 0x18 then 0x09 else 0x0A)
      && (coefs14 (pub.drop 1) ((pub.length - 1) / 7)).all (fun x => decide (x < 12289))
  else if t ≤ 0x2B then true
  else if t ≤ 0x32 then Config.stdOk .pubValid [1, t, s] [pub]
  else if t ≤ 0x40 then paddingOk t pub
  else if t = 0x48 then rsaPubOk s pub
  else ecPubOk (t - 0x50) pub

/-- LMOTS chain count p (R230). -/
def lmotsP (t : TreeSet) : Nat :=
  let i := if t.w = 1 then 0 else if t.w = 2 then 1 else if t.w = 4 then 2 else 3
  if t.n = 32 then [265, 133, 67, 34].getD i 0 else [200, 101, 51, 26].getD i 0

/-- Bytes of the signature of a lower-level root: an LMS signature, or one layer of XMSS^MT (R230). -/
def rootSigLen (typ : Nat) (x : TreeSet) : Nat :=
  if typ = 0x30 then 8 + (4 + x.n * (lmotsP x + 1)) + x.h * x.n
  else ((if x.n = 32 then 67 else 51) + x.h) * x.n

/-- Bytes that a stateful key caches (R229): each level's current tree and the next of the lowest, and the
signatures of the lower-level roots. -/
def treeBytes (typ : Nat) (x : TreeSet) : Nat :=
  (x.layers + b2n (x.layers > 1)) * (2 ^ (x.h + 1) * x.n) + (if x.layers > 1 then x.layers * rootSigLen typ x else 0)

/-- Units of the large-key store a new key takes (R146, R147, R229, R246). -/
def unitsFor (t s : Nat) (pubOnly : Bool) : Nat :=
  let l := (typeLens t s).getD (0, 0)
  if pubOnly then bigUnits l.2
  else bigUnits l.1 + (if isMce t then bigUnits l.2 else 0)
    + (match treeSet t s with
       | some x => cdiv (treeBytes t x) 4096
       | none => 0)

/-- The entry a request describes, with its material. -/
def entryOf (r : Req) (mat pub : Bytes) (pubOnly : Bool) : Entry :=
  let m := if pubOnly then pub else mat
  let ext := decide (m.length > 64)
  { blankEntry 1 with
    typ := r.typ, subtype := r.sub, usage := r.usage,
    flags := r.flags ||| (if ext then fExternal else 0) ||| (if pubOnly then fPublicOnly else 0)
      ||| (if isTree r.typ && !pubOnly then fStateful else 0),
    useLimit := r.limit, activation := r.act, expiry := r.exp, kcv := kcvOf r.typ r.sub mat pub, material := m,
    pub := pub, matLen := m.length, units := unitsFor r.typ r.sub pubOnly,
    cache := isTree r.typ && !pubOnly, treeTo := 1 }

/-- The entry made a child of the key in a field, as it was resolved (R160, R190, R276). -/
def childOf (c : Cmd) (i : Nat) (e : Entry) : Entry :=
  { e with parent := ((c.keys.find? (fun k => k.field == i)).map (·.handle)).getD 0, depth := ((c.key i).map (·.depth)).getD 0 + 1 }

/-- A parent at DEPTH 8 takes no child (R160). -/
def tooDeep (c : Cmd) (i : Nat) : Bool := decide (((c.key i).map (·.depth)).getD 0 ≥ 8)

/-- Room for a new entry of so many units: the quota, and the large-key allowance (R147, R152). -/
def roomFor (d : Dev) (s units : Nat) : Bool :=
  decide (ledgerUsed d s < (d.slice s).cfg.quota) && (nextFree d).isSome
    && decide (unitsUsed d s + units ≤ unitsAllowed d s)

/-- Room for the command's new entry: the one it holds since its dispatch, or the quota and the allowance (R152). -/
def roomLeft (d : Dev) (c : Cmd) (units : Nat) : Bool := c.entry.isSome || roomFor d c.slice units

/-- The PENDING entry of the command with its material: the one reserved at dispatch, or a new one; none where quota or
allowance lack room (R143, R147, R152). A child of a parent that a cascade has marked is itself marked (R165). -/
def pendingEntry (c : Cmd) (e : Entry) (d : Dev) : Option (Nat × Dev) :=
  let e := { e with cascaded := parentMarked d e }
  match c.entry with
  | some i =>
    if unitsUsed d c.slice - (d.ent i).units + e.units ≤ unitsAllowed d c.slice then
      some (i, setEnt i { e with st := .pending, gen := (d.ent i).gen, owner := c.slice } d)
    else none
  | none => if roomFor d c.slice e.units then allocEnt c.slice e d else none

/-- RESULT of a command that makes a key (R135 [04]). -/
def keyResult (h : Nat) (kcv : Bytes) (b7 : Nat) : Bytes := leBytes 4 h ++ fit 3 kcv ++ leBytes 1 b7

/-- The command's new key becomes PENDING while its material is verified, and its outcome is OK with the key's RESULT,
or `bad`, KEY_CHECK_FAIL, which frees the entry when the verification ends (R143, R159). -/
def makeKey (id : Nat) (e : Entry) (ok : Bool) (b7 : Nat) (outs : List (Nat × Bytes)) (d : Dev)
    (bad : Outcome := bare .keyCheckFail) : Dev :=
  match findCmd d id with
  | none => d
  | some c =>
    match pendingEntry c e d with
    | none => failWith .resourceQuota id d
    | some (i, d) =>
      let h := handleOf i (d.ent i).gen
      outcomeIs (if ok then { status := .ok, outs := outs, result := keyResult h e.kcv b7 } else bad) id
        (setCmd { c with entry := some i } d)

/-- Why a key-generation opcode refuses its KAR: `typ` and `sub` are those it must give (R152, R191, R209 [06]). -/
def genRefusal (d : Dev) (c : Cmd) (kar : Bytes) (typ sub : Nat) : Option Status :=
  let r := reqOf kar
  match karCheck d kar false with
  | some st => some st
  | none =>
    if r.typ != typ || r.sub != sub then some .fieldRejected
    else if !roomLeft d c (unitsFor typ sub false) then some .resourceQuota
    else none

/-- What a key-generation opcode does with its KAR. -/
def genKey (id : Nat) (kar : Bytes) (typ sub : Nat) (b7 : Nat) (outs : Bytes → List (Nat × Bytes)) (d : Dev)
    (bad : Outcome := bare .keyCheckFail) : Dev :=
  match findCmd d id with
  | none => d
  | some c =>
    match genRefusal d c kar typ sub with
    | some st => failWith st id d
    | none =>
      let r := reqOf kar
      let (mat, d) := newMaterial c typ sub d
      let pub := pubOfMat typ sub mat
      makeKey id (entryOf r mat pub false) (pairOk typ sub r.usage mat pub) b7 (outs pub) d bad

/-- Where a shared secret goes (R190 [06], R249 [08]): a new HMAC key, a child of KEY0 where `par` says so, or
the output in role `ss`. -/
def placeSecret (id : Nat) (f : Form) (clear par : Bool) (kar ss : Bytes)
    (outs : List (Nat × Bytes)) (d : Dev) : Dev :=
  match findCmd d id with
  | none => d
  | some c =>
    if clear then okOuts (outs ++ f.put .ss ss) id d
    else
      let e := entryOf (reqOf kar) ss [] false
      makeKey id (if par then childOf c 0 e else e) true 0 outs d

/-- Why the KAR for a shared secret is refused (R190, R249). -/
def secretKar (d : Dev) (c : Cmd) (clear par : Bool) (sub : Nat) (kar : Bytes) : Option Status :=
  if clear then none
  else
    match karCheck d kar false with
    | some st => some st
    | none =>
      if (reqOf kar).typ != 6 || (reqOf kar).sub != sub then some .fieldRejected
      else if par && tooDeep c 0 then some .policyRefused
      else if !roomLeft d c 0 then some .resourceQuota
      else none

/-- The shared value of a key agreement by curve code (R276 [09]); none where R280 refuses the peer's key or
the result. -/
def agree (code : Nat) (mat peer : Bytes) : Option Bytes :=
  let n := curveLen code
  let priv := mat.take n
  if code ≤ 5 then
    if pubOk (0x50 + code) 0 peer then some (std .ecdh n [code] [priv, peer]) else none
  else
    let z := std .xdh n [code] [priv, peer]
    if allZero z then none else some z

/-- The entry's expanded matrix counted as used, and cached on first use within the slice's allowance, the
least recently used ones of the slice making room (R175, R208 [06]). Sizes are in KiB. -/
def touchMatrix (i : Nat) (d : Dev) : Dev :=
  let e := d.ent i
  let size := match e.typ with
    | 0x10 => 4
    | 0x11 => 9
    | 0x12 => 16
    | 0x14 => 16
    | 0x15 => 30
    | 0x16 => 56
    | _ => 0
  if e.st != .active || !e.has fCacheMatrix || size = 0 then d
  else
    let others := d.led.matrix.filter (fun (x : Nat × Nat) => x.1 != i)
    let room := 16 * (d.slice e.owner).cfg.quota
    let drop (l : List (Nat × Nat)) : List (Nat × Nat) :=
      let mine := l.filter (fun (x : Nat × Nat) => (d.ent x.1).owner == e.owner)
      if (mine.map (·.2)).sum + size ≤ room then l
      else
        match mine.head? with
        | some x => l.filter (fun (y : Nat × Nat) => y.1 != x.1)
        | none => l
    let kept := others.foldl (fun l _ => drop l) others
    if size ≤ room then { d with led := { d.led with matrix := kept ++ [(i, size)] } } else d

/-- The first command that resolves a key has its matrix expanded into the cache; a later one finds it there (R208). The
lattice commands use it. -/
def noteMatrix (c : Cmd) (d : Dev) : Cmd × Dev :=
  if c.pkt.opcode / 256 != 3 then (c, d)
  else
    let hit (k : KeyRes) : Bool := d.led.matrix.any (fun (x : Nat × Nat) => x.1 == k.idx)
    ({ c with hits := (c.keys.filter hit).map (·.field) }, forEach (c.keys.map (·.idx)) touchMatrix d)

/-- A cached matrix that fails its tag is discarded and expanded afresh: the command takes the miss time (R208). -/
def dropMatrix (c : Cmd) (d : Dev) : Cmd × Dev :=
  if hbmOk d c.slice || c.hits.isEmpty then (c, d)
  else ({ c with hits := [] }, { d with led := { d.led with
    matrix := d.led.matrix.filter (fun (x : Nat × Nat) => !c.keys.any (fun k => k.idx == x.1)) } })

/-- An ECDSA verification: r and s in [1, n − 1], then the standard's equation (R275, R280 [09]). -/
def ecdsaOk (code : Nat) (ps : List Nat) (pk x sig : Bytes) : Bool :=
  let n := Config.curveNum code 1
  let r := beNat (sig.take (sig.length / 2))
  let s := beNat (sig.drop (sig.length / 2))
  decide (1 ≤ r) && decide (r < n) && decide (1 ≤ s) && decide (s < n) && Config.stdOk .ecdsaVerify (code :: ps) [pk, x, sig]

/-- An EdDSA verification by the cofactorless equation [S]B = R + [k]A, with R canonical and S below the group order
(R275, R280 [09]); k is the standard's hash of the variant, context, R, A and message. -/
def eddsaOk (code variant : Nat) (pk ctx msg sig : Bytes) : Bool :=
  let h := sig.length / 2
  let k := std .edHash sig.length [code, variant] [ctx, sig.take h, pk, msg]
  decide (leNat (sig.drop h) < Config.curveNum code 1) && Config.stdOk .edPoint [code, 0] [sig.take h]
    && Config.stdOk .edEquation [code] [sig.drop h, sig.take h, k, pk]

/-- The key pair or public key in field `i` is of a TYPE and may be used so (check 3 of R27 [01]). -/
def Entry.fits (e : Entry) (typ use : Nat) (pair : Bool) : Bool :=
  e.typ == typ && e.may use && !(pair && e.has fPublicOnly)

end Sys2Proof.Machine
end

