-- ==== Sys2Proof/Machine/Blob.lean ====
section
/-!
DEFINITION. Ornath key blobs: size classes, headers, sealing and opening (R157, R167 to R169 [05], R233 [07]).
-/
namespace Sys2Proof.Machine

/-- Area of a size class (R157). -/
def classArea (c : Nat) : Nat := [64, 256, 1024, 4096, 16384, 2097152].getD c 0

/-- Length of a wrapped blob, and of a clear public record. -/
def blobLen (c : Nat) : Nat := classArea c + 48
def recordLen (c : Nat) : Nat := classArea c + 32

/-- A blob header (R167). -/
structure BlobHdr where
  version : Nat
  typ : Nat
  sub : Nat
  flags : Nat
  masterGen : Nat
  usage : Nat
  stateWord : Nat
  matLen : Nat
  kcv : Bytes
  cls : Nat
  bootId : Bytes

/-- The 32 bytes of a header. -/
def BlobHdr.bytes (h : BlobHdr) : Bytes :=
  leBytes 2 0xA7C3 ++ leBytes 1 h.version ++ leBytes 1 h.typ ++ leBytes 1 h.sub ++ leBytes 1 h.flags
    ++ leBytes 2 h.masterGen ++ leBytes 4 h.usage ++ leBytes 4 h.stateWord ++ leBytes 4 h.matLen
    ++ fit 3 h.kcv ++ leBytes 1 h.cls ++ fit 8 h.bootId

/-- The header in a blob. -/
def hdrOf (b : Bytes) : BlobHdr :=
  { version := field b 2 1, typ := field b 3 1, sub := field b 4 1, flags := field b 5 1,
    masterGen := field b 6 2, usage := field b 8 4, stateWord := field b 12 4, matLen := field b 16 4,
    kcv := seg b 20 3, cls := field b 23 1, bootId := seg b 24 8 }

/-- The 64-byte sealing key (R168). -/
def wrapKey (k hdr : Bytes) (transport : Bool) : Bytes :=
  kmac256 k (hdr.take 8) 64 (if transport then "ORNATH-XPORT" else "ORNATH-WRAP")

/-- The synthetic IV: S2V of RFC 5297 under the first half of the key, over strings of which the plaintext is the
last. -/
def s2v (key : Bytes) (strings : List Bytes) : Bytes := std .siv 16 [2] (key.take (key.length / 2) :: strings)

/-- CTR under the second half of the key, from the synthetic IV. -/
def sivCtr (key iv x : Bytes) : Bytes := std .siv x.length [3] [key.drop (key.length / 2), iv, x]

/-- An area sealed, its header the only associated data: ciphertext, then the synthetic IV as the tag (R168). -/
def sivSeal (key hdr area : Bytes) : Bytes :=
  let iv := s2v key [hdr, area]
  sivCtr key iv area ++ iv

/-- A sealed area opened; none when its tag fails. -/
def sivOpen (key hdr body : Bytes) : Option Bytes :=
  let n := body.length - 16
  let iv := body.drop n
  let area := sivCtr key iv (body.take n)
  if s2v key [hdr, area] == iv then some area else none

/-! Time on a Satin lane (R302 [10]), in ns. -/

/-- `n` parallel blocks, port-bound. -/
def parNs (n : Nat) : Nat := n * 1067 / 100

/-- A lane's time: parallel blocks, and `serial` blocks of `per` ns, each with its dummies. The sum of the dummy
counts is free (R287 [10]); the charge takes 3.5 a block (R302). -/
def lanePart (par serial per draws : Nat) : Part :=
  { cls := .cipher, credits := 1,
    hold := 43 + parNs par + serial * per + 2 * (draws % (7 * serial + 1)),
    charge := 43 + parNs par + serial * (per + 7) }

/-- Serial blocks of AES-SIV: associated data, nonce, plaintext. -/
def sivSerial (aad nonce p : Nat) : Nat := 1 + max 1 (cdiv aad 16) + cdiv nonce 16 + max 1 (cdiv p 16)

/-- Sealing or opening a blob of an area. -/
def sealPart (area draws : Nat) : Part := lanePart (cdiv area 16) (sivSerial 32 0 area) 18 draws

/-- Unit of a stateful reservation, 2^G (R233). -/
def treeUnit (t : TreeSet) : Nat := if t.total > 26 then 2 ^ (t.total - 26) else 1

/-- STATE_WORD of a ceiling (R233). -/
def stateWord (t : TreeSet) (ceil : Nat) : Nat :=
  (if t.total > 26 then t.total - 26 else 0) * 2 ^ 27 + ceil / treeUnit t

/-- The ceiling in a STATE_WORD. -/
def ceilingOf (w : Nat) : Nat := bits w 26 0 * 2 ^ bits w 31 27

/-- PENDING of a stateful entry. -/
def Entry.pending (e : Entry) : Nat := e.pend.getD e.ceiling

/-- Header of the entry's blob: version 1 of its slice, or 2 for transport; FLAGS keep EXPIRE_ON_RESET,
PUBLIC_ONLY and STATEFUL. -/
def entryHdr (d : Dev) (e : Entry) (version cls : Nat) : BlobHdr :=
  let gen := match (d.custody e.owner).master with
    | some k => k.gen
    | none => 0
  { version := version, typ := e.typ, sub := e.subtype, flags := (e.flags &&& 0x89).toNat,
    masterGen := if version = 1 then gen else 0, usage := e.usage,
    stateWord := match treeSet e.typ e.subtype with
      | some t => if e.has fStateful then stateWord t e.pending else 0
      | none => 0
    matLen := e.matLen, kcv := e.kcv, cls := cls,
    bootId := if e.has fExpireOnReset then d.led.bootId else zeros 8 }

/-- The slice's master key material. -/
def masterOf (d : Dev) (s : Nat) : Bytes :=
  match (d.custody s).master with
  | some k => k.key
  | none => []

/-- The entry sealed under a key (R168). -/
def sealEntry (d : Dev) (e : Entry) (version cls : Nat) (k : Bytes) : Bytes :=
  let h := (entryHdr d e version cls).bytes
  h ++ sivSeal (wrapKey k h (version == 2)) h (fit (classArea cls) e.material)

/-- The entry's slice blob. -/
def sliceBlob (d : Dev) (e : Entry) (cls : Nat) : Bytes := sealEntry d e 1 cls (masterOf d e.owner)

/-- The entry's clear public record (R167): PUBLIC_ONLY, and so never STATEFUL. -/
def publicRecord (d : Dev) (e : Entry) (cls : Nat) : Bytes :=
  let h := entryHdr d e 3 cls
  { h with flags := h.flags % 2 + 8, matLen := e.pub.length, stateWord := 0 }.bytes ++ fit (classArea cls) e.pub

/-- An opened blob: its header and its material. -/
structure Opened where
  hdr : BlobHdr
  mat : Bytes

/-- Checks 2 to 5 of R169 on a blob: `version` 1 slice, 2 transport, 3 clear; `k` the sealing key. -/
def openBlob (d : Dev) (s version cls : Nat) (k b : Bytes) : Option Opened :=
  let h := hdrOf b
  let pubOnly := version == 3 || bit h.flags 3
  let stateful := isTree h.typ && !pubOnly
  let lens := (typeLens h.typ h.sub).getD (0, 0)
  let gen := match (d.custody s).master with
    | some k => k.gen
    | none => 0
  if field b 0 2 != 0xA7C3 || h.version != version || h.cls != cls || (typeLens h.typ h.sub).isNone
    || h.matLen != (if pubOnly then lens.2 else lens.1) || h.matLen > classArea cls || h.matLen = 0
    || h.flags &&& 0x76 != 0 || (version == 3 && !bit h.flags 3) || bit h.flags 7 != stateful
    || (!stateful && h.stateWord != 0) then none
  else if version = 1 && h.masterGen != gen then none
  else if bit h.flags 0 && h.bootId != d.led.bootId then none
  else if version = 3 then
    if allZero ((b.drop 32).drop h.matLen) then some ⟨h, seg b 32 h.matLen⟩ else none
  else
    match sivOpen (wrapKey k (b.take 32) (version == 2)) (b.take 32) (b.drop 32) with
    | some a => if allZero (a.drop h.matLen) then some ⟨h, a.take h.matLen⟩ else none
    | none => none

/-- The public-key encoding of an opened blob (R167, R246). -/
def Opened.pub (o : Opened) : Bytes :=
  if bit o.hdr.flags 3 then o.mat else pubOfMat o.hdr.typ o.hdr.sub o.mat

/-- Verification of opened material (R159, R189, R227, R247, R267): its KCV is the header's, and a key pair is
consistent. -/
def Opened.verified (o : Opened) : Bool :=
  kcvOf o.hdr.typ o.hdr.sub o.mat o.pub == o.hdr.kcv
    && (bit o.hdr.flags 3 || pairOk o.hdr.typ o.hdr.sub o.hdr.usage o.mat o.pub)

end Sys2Proof.Machine
end

