-- ==== Sys2Proof/Machine/Lattice.lean ====
section
/-!
DEFINITION. The commands of the Damask cores: ML-KEM, ML-DSA, FN-DSA, hybrid KEMs and composite signatures (R182
to R209 [06]).
-/
namespace Sys2Proof.Machine

/-- Entry `i` of a table. -/
def tab (l : List Nat) (i : Nat) : Nat := l.getD i 0

/-- SET of a lattice PARAM. -/
def Packet.set2 (p : Packet) : Nat := bits p.prm 1 0

/-- CLEAR_SS. -/
def Packet.css (p : Packet) : Bool := bit p.prm 7

def kemCt (set : Nat) : Nat := tab [768, 1088, 1568] set
def kemPk (set : Nat) : Nat := tab [800, 1184, 1568] set
def dsaPk (set : Nat) : Nat := tab [1312, 1952, 2592] set
def dsaSig (set : Nat) : Nat := tab [2420, 3309, 4627] set
def fnPk (set : Nat) : Nat := tab [897, 1793] set
def fnSig (set : Nat) : Nat := tab [666, 1280] set

/-- Digest length of a pre-hash code of R194. -/
def phLen (ph : Nat) : Nat := tab [32, 48, 64, 32, 64, 32, 64] ph

/-- DER object identifier of a pre-hash function; the last arc is what FIPS 204 gives it (log 17). -/
def phOid (ph : Nat) : Bytes :=
  [0x06, 0x09, 0x60, 0x86, 0x48, 0x01, 0x65, 0x03, 0x04, 0x02] ++ leBytes 1 (tab [1, 2, 3, 8, 10, 11, 12] ph)

/-- MODE and PH of a signature PARAM are defined (R194): at most `modes` modes, PH only with pre-hash. -/
def modeOk (p : Packet) (modes : Nat) : Bool :=
  decide (bits p.prm 4 3 < modes) && (if bits p.prm 4 3 = 1 then bits p.prm 7 5 != 7 else bits p.prm 7 5 == 0)

/-- ctx and message descriptors of a signature (R195). -/
def msgArgs (p : Packet) : List Arg :=
  match bits p.prm 4 3 with
  | 0 => [inArg .ctx 0 255, inArg .msg 0 16777216]
  | 1 => [inArg .ctx 0 255, inArg .msg (phLen (bits p.prm 7 5)) (phLen (bits p.prm 7 5))]
  | _ => [inArg .ctx 0 0, inArg .msg 64 64]

/-- The signed string of R195; with external μ, μ itself. -/
def signedStr (p : Packet) (ctx msg : Bytes) : Bytes :=
  match bits p.prm 4 3 with
  | 0 => leBytes 1 0 ++ leBytes 1 ctx.length ++ ctx ++ msg
  | 1 => leBytes 1 1 ++ leBytes 1 ctx.length ++ ctx ++ phOid (bits p.prm 7 5) ++ msg
  | _ => msg

/-- Length of M′ for R186. -/
def signedLen (p : Packet) (ctx msg : Nat) : Nat :=
  match bits p.prm 4 3 with
  | 0 => 2 + ctx + msg
  | 1 => 13 + ctx + msg
  | _ => 0

/-- A hybrid's halves (R201): ML-KEM set, curve code, classical public key length. -/
def hybrid (x : Nat) : Nat × Nat × Nat :=
  [(1, 0xA, 32), (2, 0xA, 32), (2, 0xB, 56), (1, 0, 65), (2, 1, 97)].getD x (0, 0, 0)

/-- A composite's halves (R205): lattice TYPE, curve code, classical public key and signature lengths. -/
def composite (x : Nat) : Nat × Nat × Nat × Nat :=
  [(0x14, 0, 65, 64), (0x15, 1, 97, 96), (0x16, 1, 97, 96), (0x16, 9, 57, 114), (0x18, 0, 65, 64),
   (0x19, 2, 133, 132)].getD x (0, 0, 0, 0)

/-- Signature and public-key lengths of a lattice signature TYPE. -/
def latSig (t : Nat) : Nat := if t ≤ 0x16 then dsaSig (t - 0x14) else fnSig (t - 0x18)
def latPk (t : Nat) : Nat := if t ≤ 0x16 then dsaPk (t - 0x14) else fnPk (t - 0x18)

def karArg : Arg := inArg .kar 32 32

/-- Forms of the lattice opcodes (R191, R194 to R196, R199, R201, R203, R205, R207). -/
def latForm (p : Packet) (o : Op) : Form :=
  let s := p.set2
  let kem := decide (s ≤ 2) && bits p.prm 6 2 == 0
  let noKey0 := !p.hasKey 0
  let noKey1 := !p.hasKey 1
  match o with
  | .mlkemKeygen => { param := kem && !p.css, args := withOpt p [karArg] [outArg .pk (kemPk s)] }
  | .mlkemEncaps =>
    { param := kem, may := [0],
      args := onlyIf (!p.css) [karArg] ++ onlyIf noKey0 [inArg .ek (kemPk s) (kemPk s)]
        ++ [outArg .ct (kemCt s)] ++ onlyIf p.css [outArg .ss 32] }
  | .mlkemDecaps =>
    { param := kem, need := [0],
      args := onlyIf (!p.css) [karArg] ++ [inArg .ct (kemCt s) (kemCt s)] ++ onlyIf p.css [outArg .ss 32] }
  | .mldsaKeygen =>
    { param := decide (s ≤ 2) && bits p.prm 7 2 == 0, args := withOpt p [karArg] [outArg .pk (dsaPk s)] }
  | .mldsaSign =>
    { param := decide (s ≤ 2) && modeOk p 3, need := [0], args := msgArgs p ++ [outArg .sig (dsaSig s)] }
  | .mldsaVerify =>
    { param := decide (s ≤ 2) && modeOk p 3 && !bit p.prm 2, may := [0],
      args := onlyIf noKey0 [inArg .ek (dsaPk s) (dsaPk s)] ++ msgArgs p
        ++ [inArg .sig (dsaSig s) (dsaSig s)] }
  | .fndsaKeygen =>
    { param := decide (s ≤ 1) && modeOk p 2 && !bit p.prm 2,
      args := withOpt p [karArg] [outArg .pk (fnPk s), outArg .report 8] }
  | .fndsaSign =>
    { param := decide (s ≤ 1) && modeOk p 2 && !bit p.prm 2, need := [0],
      args := msgArgs p ++ [outArg .sig (fnSig s)] }
  | .fndsaVerify =>
    { param := decide (s ≤ 1) && modeOk p 2 && !bit p.prm 2, may := [0],
      args := onlyIf noKey0 [inArg .ek (fnPk s) (fnPk s)] ++ msgArgs p ++ [inArg .sig (fnSig s) (fnSig s)] }
  | .hybridKemEncaps =>
    let (k, _, n) := hybrid (bits p.prm 6 0)
    { param := decide (bits p.prm 6 0 ≤ 4), may := [0, 1],
      args := onlyIf (!p.css) [karArg] ++ onlyIf noKey0 [inArg .ek (kemPk k) (kemPk k)]
        ++ onlyIf noKey1 [inArg .pk2 n n] ++ [outArg .ct (kemCt k + n)] ++ onlyIf p.css [outArg .ss 32] }
  | .hybridKemDecaps =>
    let (k, _, n) := hybrid (bits p.prm 6 0)
    { param := decide (bits p.prm 6 0 ≤ 4), need := [0, 1],
      args := onlyIf (!p.css) [karArg] ++ [inArg .ct (kemCt k + n) (kemCt k + n)]
        ++ onlyIf p.css [outArg .ss 32] }
  | .compositeSign =>
    let (t, _, _, n) := composite p.prm
    { param := decide (p.prm ≤ 5), need := [0, 1],
      args := [inArg .ctx 0 255, inArg .msg 0 16777216, outArg .sig (latSig t + n)] }
  | _ =>
    let (t, _, pn, n) := composite p.prm
    { param := decide (p.prm ≤ 5), may := [0, 1],
      args := onlyIf noKey0 [inArg .ek (latPk t) (latPk t)] ++ onlyIf noKey1 [inArg .pk2 pn pn]
        ++ [inArg .ctx 0 255, inArg .msg 0 16777216, inArg .sig (latSig t + n) (latSig t + n)] }

/-- TYPE and usage of the keys of the lattice opcodes (check 3 of R27 [01], R126 [04]). -/
def latKey (c : Cmd) (i : Nat) (e : Entry) : Bool :=
  let s := c.pkt.set2
  let (k, hc, _) := hybrid (bits c.prm 6 0)
  let (t, cc, _, _) := composite c.prm
  match c.op with
  | .mlkemEncaps => e.fits (0x10 + s) uENCAPS false
  | .mlkemDecaps => e.fits (0x10 + s) uDECAPS true
  | .mldsaSign => e.fits (0x14 + s) uSIGN true
  | .mldsaVerify => e.fits (0x14 + s) uVERIFY false
  | .fndsaSign => e.fits (0x18 + s) uSIGN true
  | .fndsaVerify => e.fits (0x18 + s) uVERIFY false
  | .hybridKemEncaps => if i = 0 then e.fits (0x10 + k) uENCAPS false else e.typ == 0x50 + hc
  | .hybridKemDecaps => if i = 0 then e.fits (0x10 + k) uDECAPS true else e.fits (0x50 + hc) uAGREE true
  | .compositeSign => e.fits (if i = 0 then t else 0x50 + cc) uSIGN true
  | .compositeVerify => e.fits (if i = 0 then t else 0x50 + cc) uVERIFY false
  | _ => true

/-- A time of R187 at masking order 1 (and 0), or 2. -/
def byOrder (order a b : Nat) : Nat := if order = 2 then b else a

/-- Key generation time of a lattice TYPE, the fixed part for FN-DSA (R185, R187). -/
def latKeygen (o t : Nat) : Nat :=
  if t ≤ 0x12 then byOrder o (tab [15000, 21800, 32000] (t - 0x10)) (tab [33300, 48500, 71100] (t - 0x10))
  else if t ≤ 0x16 then
    byOrder o (tab [40000, 60000, 96000] (t - 0x14)) (tab [88900, 133300, 213300] (t - 0x14))
  else byOrder o (tab [400000, 1200000] (t - 0x18)) (tab [889000, 2667000] (t - 0x18))

/-- Service time on the core (R185 to R187). -/
def latTime (d : Dev) (c : Cmd) : Nat :=
  let s := c.pkt.set2
  let f := latForm c.pkt c.op
  let o := orderOf d c
  let a := c.draws
  let (k, _, _) := hybrid (bits c.prm 6 0)
  let (t, _, _, _) := composite c.prm
  let enc (s : Nat) := byOrder o (tab [10000, 13300, 20000] s) (tab [22200, 29600, 44400] s)
  let dec (s : Nat) := byOrder o (tab [15000, 20000, 30000] s) (tab [33300, 44400, 66700] s)
  let dsign (s : Nat) := byOrder o (tab [29000, 40000, 80000] s + a * tab [8000, 11000, 16000] s)
    (tab [64400, 88900, 177800] s + a * tab [17800, 24400, 35600] s)
  let dver (s : Nat) := if c.hits.contains 0 then tab [18500, 26400, 41000] s else tab [24000, 34300, 53300] s
  let fsign (s : Nat) := byOrder o (tab [10000, 20000] s + a * tab [188000, 412000] s)
    (tab [22200, 44400] s + a * tab [417800, 915600] s)
  let inc := 16 * extraBlocks (signedLen c.pkt (f.len c.pkt .ctx) (f.len c.pkt .msg)) 1088 136
  let incM := 16 * extraBlocks (f.len c.pkt .msg) 1088 136
  match c.op with
  | .mlkemKeygen => latKeygen o (0x10 + s)
  | .mlkemEncaps => enc s
  | .mlkemDecaps => dec s
  | .mldsaKeygen => latKeygen o (0x14 + s)
  | .mldsaSign => dsign s + inc
  | .mldsaVerify => dver s + inc
  | .fndsaKeygen => latKeygen o (0x18 + s) + a * byOrder o (tab [3000000, 9000000] s) (tab [6667000, 20000000] s)
  | .fndsaSign => fsign s + inc
  | .fndsaVerify => tab [20000, 40000] s + inc
  | .hybridKemEncaps => enc k + byOrder o 2000 4400
  | .hybridKemDecaps => dec k + byOrder o 2000 4400
  | .compositeSign => (if t ≤ 0x16 then dsign (t - 0x14) else fsign (t - 0x18)) + incM
  | _ => (if t ≤ 0x16 then dver (t - 0x14) else tab [20000, 40000] (t - 0x18)) + incM

/-- Curve service times of R278 in ns, by curve code, and credits. -/
def curveCredits (code : Nat) : Nat := if code = 2 then 2 else 1
def curveKeygen (code : Nat) : Nat :=
  tab [840000, 2058700, 2305400, 1008000, 2520000, 5040000, 0, 0, 708600, 2500000, 480000, 1745500] code
def curveSign (code : Nat) : Nat :=
  tab [213330, 512000, 581820, 256000, 640000, 1280000, 0, 0, 182860, 640000] code
def curveVerify (code : Nat) : Nat :=
  tab [426670, 1066670, 1163640, 512000, 1280000, 2560000, 0, 0, 365710, 1280000] code
def curveAgree (code : Nat) : Nat :=
  tab [200000, 480000, 560000, 240000, 600000, 1200000, 0, 0, 0, 0, 160000, 581820] code

/-- Parts of a lattice command (R179, R204, R206). -/
def latParts (d : Dev) (c : Cmd) : List Part :=
  let o := orderOf d c
  let (_, hc, _) := hybrid (bits c.prm 6 0)
  let (_, cc, _, _) := composite c.prm
  let l := part .lattice 1 (latTime d c)
  match c.op with
  | .hybridKemEncaps => [l, part .classical (curveCredits hc) (curveAgree hc * byOrder o 24 30 / 10)]
  | .hybridKemDecaps => [l, part .classical (curveCredits hc) (curveAgree hc * byOrder o 16 22 / 10)]
  | .compositeSign => [l, part .classical (curveCredits cc) (curveSign cc)]
  | .compositeVerify => [l, part .classical (curveCredits cc) (curveVerify cc)]
  | _ => [l]

/-- The command needs a DRBG at dispatch (R182, R183, R262 [09]). -/
def latDrbg (o : Op) : Bool := o != .mldsaVerify && o != .fndsaVerify && o != .compositeVerify

/-! Executions. -/

/-- MLKEM_KEYGEN (R191). -/
def execMlkemKeygen (id : Nat) : State → Out :=
  execOp .mlkemKeygen id (fun m c d =>
    let f := latForm c.pkt c.op
    genKey id (f.get m d c .kar) (0x10 + c.pkt.set2) 0 0 (f.put .pk) d)

/-- ML-KEM encapsulation: ciphertext and secret, from fresh randomness (R191). -/
def kemEncaps (set : Nat) (ek : Bytes) (d : Dev) : Bytes × Bytes × Dev :=
  let (r, d) := draw 32 d
  let x := std .mlkemEncaps (kemCt set + 32) [set] [ek, r]
  (x.take (kemCt set), x.drop (kemCt set), d)

/-- ML-KEM decapsulation; rejection is implicit (R193). -/
def kemDecaps (set : Nat) (mat ct : Bytes) : Bytes := std .mlkemDecaps 32 [set] [mat, ct]

/-- MLKEM_ENCAPS (R190 to R192). -/
def execMlkemEncaps (id : Nat) : State → Out :=
  execOp .mlkemEncaps id (fun m c d =>
    let f := latForm c.pkt c.op
    let s := c.pkt.set2
    let kar := f.get m d c .kar
    let ek := if c.pkt.hasKey 0 then c.pub 0 else f.get m d c .ek
    match secretKar d c c.pkt.css false 0x34 kar with
    | some st => failWith st id d
    | none =>
      if !c.pkt.hasKey 0 && !pubOk (0x10 + s) 0 ek then failWith .inputInvalid id d
      else
        let (ct, ss, d) := kemEncaps s ek d
        placeSecret id f c.pkt.css false kar ss (f.put .ct ct) d)

/-- MLKEM_DECAPS (R190, R193). -/
def execMlkemDecaps (id : Nat) : State → Out :=
  execOp .mlkemDecaps id (fun m c d =>
    let f := latForm c.pkt c.op
    let kar := f.get m d c .kar
    match secretKar d c c.pkt.css true 0x34 kar with
    | some st => failWith st id d
    | none =>
      placeSecret id f c.pkt.css true kar (kemDecaps c.pkt.set2 (c.mat 0) (f.get m d c .ct)) [] d)

/-- MLDSA_KEYGEN (R196). -/
def execMldsaKeygen (id : Nat) : State → Out :=
  execOp .mldsaKeygen id (fun m c d =>
    let f := latForm c.pkt c.op
    genKey id (f.get m d c .kar) (0x14 + c.pkt.set2) 0 0 (f.put .pk) d)

/-- Header byte of an FN-DSA signature (R200). -/
def fnHead (t : Nat) : Byte := if t = 0x18 then 0x39 else 0x3A

/-- The format of an FN-DSA signature (R200): its header byte, and zeros after its compressed encoding, whose length is what
the standard's decoding takes. -/
def fnFormatOk (t : Nat) (sig : Bytes) : Bool :=
  sig.head? == some (fnHead t) && allZero (sig.drop (41 + beNat (std .fndsaVerify 2 [t - 0x18, 1] [sig])))

/-- An ML-DSA or FN-DSA signature by TYPE over a signed string, or over μ where `mu` says so. -/
def latSignBytes (t : Nat) (mu : Bool) (mat str rnd : Bytes) : Bytes :=
  if t ≤ 0x16 then std .mldsaSign (dsaSig (t - 0x14)) [t - 0x14, b2n mu] [mat, str, rnd]
  else [fnHead t] ++ std .fndsaSign (fnSig (t - 0x18) - 1) [t - 0x18] [mat, str, rnd]

/-- Its verification. -/
def latVerifyOk (t : Nat) (mu : Bool) (pk str sig : Bytes) : Bool :=
  if t ≤ 0x16 then Config.stdOk .mldsaVerify [t - 0x14, b2n mu] [pk, str, sig]
  else fnFormatOk t sig && Config.stdOk .fndsaVerify [t - 0x18] [pk, str, sig]

/-- A signature of TYPE `t` checked before its release (R197, R200). The revision `rev` follows the attempt count in the
record (R181). -/
def latSignCmd (id t : Nat) (m : Memory) (c : Cmd) (d : Dev) (rnd rev : Bytes) : Dev :=
  let f := latForm c.pkt c.op
  let str := signedStr c.pkt (f.get m d c .ctx) (f.get m d c .msg)
  let mu := bits c.prm 4 3 == 2
  let sig := latSignBytes t mu (c.mat 0) str rnd
  if c.draws > 65535 then outcomeIs { status := .invariantFail, outs := [], result := zeros 2 ++ rev } id d
  else if !latVerifyOk t mu (c.pub 0) str sig then invariantFail .lattice id d (zeros 2 ++ rev)
  else outcomeIs { status := .ok, outs := f.put .sig sig, result := leBytes 2 c.draws ++ rev } id d

/-- MLDSA_SIGN (R194, R195, R197). -/
def execMldsaSign (id : Nat) : State → Out :=
  execOp .mldsaSign id (fun m c d =>
    let (r, d) := if bit c.prm 2 then (zeros 32, d) else draw 32 d
    latSignCmd id (0x14 + c.pkt.set2) m c d r [])

/-- A verification of TYPE `t` (R198, R200): a supplied FN-DSA key that breaks R189 gives INPUT_INVALID. -/
def latVerifyCmd (id t : Nat) (m : Memory) (c : Cmd) (result : Bytes) (d : Dev) : Dev :=
  let f := latForm c.pkt c.op
  let pk := if c.pkt.hasKey 0 then c.pub 0 else f.get m d c .ek
  let str := signedStr c.pkt (f.get m d c .ctx) (f.get m d c .msg)
  let ok := latVerifyOk t (bits c.prm 4 3 == 2) pk str (f.get m d c .sig)
  let bad := !c.pkt.hasKey 0 && decide (0x18 ≤ t) && !pubOk t 0 pk
  outcomeIs { status := if bad then .inputInvalid else if ok then .ok else .verifyFail, outs := [],
              result := result } id d

/-- MLDSA_VERIFY (R198). -/
def execMldsaVerify (id : Nat) : State → Out :=
  execOp .mldsaVerify id (fun m c d => latVerifyCmd id (0x14 + c.pkt.set2) m c [] d)

/-- FNDSA_KEYGEN (R199, R181). -/
def execFndsaKeygen (id : Nat) : State → Out :=
  execOp .fndsaKeygen id (fun m c d =>
    let f := latForm c.pkt c.op
    let rev := c.revs.1
    let rep := leBytes 4 c.draws ++ leBytes 1 rev ++ zeros 3
    genKey id (f.get m d c .kar) (0x18 + c.pkt.set2) 0 rev
      (fun pk => f.put .pk pk ++ f.put .report rep) d
      { status := .keyCheckFail, outs := [], result := zeros 7 ++ leBytes 1 rev })

/-- FNDSA_SIGN (R199, R200, R181). -/
def execFndsaSign (id : Nat) : State → Out :=
  execOp .fndsaSign id (fun m c d =>
    let (r, d) := draw 40 d
    latSignCmd id (0x18 + c.pkt.set2) m c d r (leBytes 1 c.revs.1))

/-- FNDSA_VERIFY (R200, R181). -/
def execFndsaVerify (id : Nat) : State → Out :=
  execOp .fndsaVerify id (fun m c d =>
    latVerifyCmd id (0x18 + c.pkt.set2) m c (zeros 2 ++ leBytes 1 c.revs.1) d)

/-- The combined secret of R202. -/
def hybridSecret (x : Nat) (sq sc cq cc : Bytes) : Bytes :=
  sha3_256 (sq ++ sc ++ cq ++ cc ++ ascii "ORNATH-HKEM-1" ++ leBytes 1 x)

/-- HYBRID_KEM_ENCAPS (R201 to R203). -/
def execHybridKemEncaps (id : Nat) : State → Out :=
  execOp .hybridKemEncaps id (fun m c d =>
    let f := latForm c.pkt c.op
    let x := bits c.prm 6 0
    let (k, hc, n) := hybrid x
    let kar := f.get m d c .kar
    let ek := if c.pkt.hasKey 0 then c.pub 0 else f.get m d c .ek
    let pk := if c.pkt.hasKey 1 then c.pub 1 else f.get m d c .pk2
    match secretKar d c c.pkt.css false 0x34 kar with
    | some st => failWith st id d
    | none =>
      let (e, d) := ecMaterial hc d
      match agree hc e pk with
      | none => failWith .inputInvalid id d
      | some z =>
        if !c.pkt.hasKey 0 && !pubOk (0x10 + k) 0 ek then failWith .inputInvalid id d
        else
          let (ct, ss, d) := kemEncaps k ek d
          let cc := fit n (e.drop (curveLen hc))
          placeSecret id f c.pkt.css false kar (hybridSecret x ss z ct cc) (f.put .ct (ct ++ cc)) d)

/-- HYBRID_KEM_DECAPS (R201 to R203). -/
def execHybridKemDecaps (id : Nat) : State → Out :=
  execOp .hybridKemDecaps id (fun m c d =>
    let f := latForm c.pkt c.op
    let x := bits c.prm 6 0
    let (k, hc, _) := hybrid x
    let kar := f.get m d c .kar
    let ct := (f.get m d c .ct).take (kemCt k)
    let cc := (f.get m d c .ct).drop (kemCt k)
    match secretKar d c c.pkt.css true 0x34 kar with
    | some st => failWith st id d
    | none =>
      match agree hc (c.mat 1) cc with
      | none => failWith .inputInvalid id d
      | some z =>
        placeSecret id f c.pkt.css true kar (hybridSecret x (kemDecaps k (c.mat 0) ct) z ct cc) [] d)

/-- The string both halves of a composite sign (R206). -/
def compositeStr (x : Nat) (ctx msg : Bytes) : Bytes :=
  ascii "ORNATH-COMPOSITE-1" ++ leBytes 1 x ++ leBytes 1 ctx.length ++ ctx ++ std .shake 64 [256] [msg]

/-- Digest hash of a composite's ECDSA half, as a code of R274. -/
def compositeHash (x : Nat) : Nat := tab [3, 4, 4, 0, 3, 5] x

/-- The classical half's signature. -/
def compositeClSign (x code n : Nat) (mat str rnd : Bytes) : Bytes :=
  if code = 9 then std .eddsaSign n [9, 0] [mat, [], str]
  else std .ecdsaSign n [code, compositeHash x, 1] [mat, str, rnd]

/-- Its verification. -/
def compositeClOk (x code : Nat) (pk str sig : Bytes) : Bool :=
  if code = 9 then eddsaOk 9 0 pk [] str sig else ecdsaOk code [compositeHash x, 1] pk str sig

/-- Revision of FN-DSA in byte 0x12 of a composite that uses it (R181). -/
def compositeRev (c : Cmd) (x : Nat) : Bytes := if x ≤ 3 then [0] else leBytes 1 c.revs.1

/-- COMPOSITE_SIGN (R206, R207). -/
def execCompositeSign (id : Nat) : State → Out :=
  execOp .compositeSign id (fun m c d =>
    let f := latForm c.pkt c.op
    let (t, cc, _, n) := composite c.prm
    let str := compositeStr c.prm (f.get m d c .ctx) (f.get m d c .msg)
    let (r, d) := draw 40 d
    let (k, d) := draw 64 d
    let s1 := latSignBytes t false (c.mat 0) (zeros 2 ++ str) (if t ≤ 0x16 then r.take 32 else r)
    let s2 := compositeClSign c.prm cc n (c.mat 1) str k
    let held := zeros 2 ++ compositeRev c c.prm
    if c.draws > 65535 then outcomeIs { status := .invariantFail, outs := [], result := held } id d
    else if !latVerifyOk t false (c.pub 0) (zeros 2 ++ str) s1 then invariantFail .lattice id d held
    else if !compositeClOk c.prm cc (c.pub 1) str s2 then invariantFail .classical id d held
    else outcomeIs { status := .ok, outs := f.put .sig (s1 ++ s2),
                     result := leBytes 2 c.draws ++ compositeRev c c.prm } id d)

/-- COMPOSITE_VERIFY (R206, R207): which half failed is in byte 0x10. -/
def execCompositeVerify (id : Nat) : State → Out :=
  execOp .compositeVerify id (fun m c d =>
    let f := latForm c.pkt c.op
    let (t, cc, _, _) := composite c.prm
    let str := compositeStr c.prm (f.get m d c .ctx) (f.get m d c .msg)
    let pk1 := if c.pkt.hasKey 0 then c.pub 0 else f.get m d c .ek
    let pk2 := if c.pkt.hasKey 1 then c.pub 1 else f.get m d c .pk2
    let sig := f.get m d c .sig
    let ok1 := latVerifyOk t false pk1 (zeros 2 ++ str) (sig.take (latSig t))
    let ok2 := compositeClOk c.prm cc pk2 str (sig.drop (latSig t))
    let bad := (!c.pkt.hasKey 1 && !pubOk (0x50 + cc) 0 pk2)
      || (!c.pkt.hasKey 0 && decide (0x18 ≤ t) && !pubOk t 0 pk1)
    let rev := [0] ++ compositeRev c c.prm
    let o : Outcome :=
      if bad then { status := .inputInvalid, outs := [], result := [0] ++ rev }
      else { status := if ok1 && ok2 then .ok else .verifyFail, outs := [],
             result := leBytes 1 (b2n (!ok1) + 2 * b2n (!ok2)) ++ rev }
    outcomeIs o id d)

end Sys2Proof.Machine
end

