-- ==== Sys2Proof/Machine/HashFam.lean ====
section
/-!
DEFINITION. The commands of the Muslin lanes: digests, XOFs and MACs, SLH-DSA, and the stateful signatures with
their reservations (R212 to R239 [07]).
-/
namespace Sys2Proof.Machine

/-! Generic commands (R215 to R219). -/

/-- Output and block bytes of a hash code (R215). -/
def hashLen (c : Nat) : Nat := tab [0, 32, 48, 64, 32, 64, 28, 32, 28, 48] c
def hashBlk (c : Nat) : Nat := tab [0, 64, 128, 128, 136, 72, 64, 128, 144, 104] c

/-- The Keccak codes. -/
def isKeccak (c : Nat) : Bool := c == 4 || c == 5 || c == 8 || c == 9

/-- Bytes of an HMAC tag. -/
def hmacTag (p : Packet) : Nat := if bits p.prm 7 4 = 0 then hashLen (bits p.prm 3 0) else 4 * bits p.prm 7 4

/-- The inputs before the message. -/
def hashHeads (p : Packet) (o : Op) : List Arg :=
  match o with
  | .xof => inArg .params 8 8 :: onlyIf (decide (p.prm ≥ 3)) [inArg .nStr 0 255, inArg .sStr 0 255]
  | .kmacGen => [inArg .params 8 8, inArg .sStr 0 255]
  | .kmacVerify => [inArg .sStr 0 255]
  | _ => []

/-- Forms of the generic opcodes (R216, R219). -/
def hashForm (p : Packet) (o : Op) : Form :=
  let fits (tail : List Arg) : List Arg := segArgs p (hashHeads p o) [msgArg p] tail
  let hm := decide (1 ≤ bits p.prm 3 0) && decide (bits p.prm 3 0 ≤ 5)
    && decide (4 * bits p.prm 7 4 ≤ hashLen (bits p.prm 3 0))
  let km := p.prm == 1 || p.prm == 2 || p.prm == 5 || p.prm == 6
  match o with
  | .hash => { param := decide (1 ≤ p.prm) && decide (p.prm ≤ 9), args := fits [outArg .digest (hashLen p.prm)] }
  | .xof =>
    { param := decide (1 ≤ p.prm) && decide (p.prm ≤ 4),
      args := fits [{ role := .digest, out := true, lo := 1, hi := 16777216 }] }
  | .hmacGen => { param := hm, need := [0], args := fits [outArg .mac (hmacTag p)] }
  | .hmacVerify => { param := hm, need := [0], args := fits [inArg .mac (hmacTag p) (hmacTag p)] }
  | .kmacGen =>
    { param := km, need := [0], args := fits [{ role := .mac, out := true, lo := 4, hi := 4096 }] }
  | _ => { param := km, need := [0], args := fits [inArg .mac 4 4096] }

/-- TYPE and usage of the key of a generic opcode. -/
def hashKey (c : Cmd) (e : Entry) : Bool :=
  let use := if c.op == .hmacGen || c.op == .kmacGen then uMACGEN else uMACVERIFY
  if c.op == .hmacGen || c.op == .hmacVerify then
    e.typ == 6 && e.subtype % 16 == bits c.prm 3 0 && e.may use
  else (e.typ == 3 || e.typ == 6) && e.may use

/-- The command carries a parameter block. -/
def hasParamBlock (c : Cmd) : Bool := (c.op == .xof || c.op == .kmacGen) && decide (c.pkt.segf ≤ 1)

/-- OUT_LEN of the parameter block, which admission reads (R216). -/
def outLenOf (c : Cmd) : Nat := field (c.early 0) 0 4

/-- Reserved bytes of the parameter block (R216). -/
def hashBlock (c : Cmd) : Option Status :=
  if hasParamBlock c && decide (c.pkt.dlen 0 = 8) && field (c.early 0) 4 4 != 0 then some .packetMalformed
  else none

/-- The length rules of OUT_LEN (R216, R219): its range, and the output that must match it. -/
def hashLenOk (d : Dev) (c : Cmd) : Bool :=
  let f := hashForm c.pkt c.op
  let out := if c.op == .xof then f.len c.pkt .digest else f.len c.pkt .mac
  let lo := if c.op == .xof then 1 else 4
  let hi := if c.op == .xof then 16777216 else 4096
  if c.op != .xof && c.op != .kmacGen then true
  else if hasParamBlock c then
    decide (lo ≤ outLenOf c) && decide (outLenOf c ≤ hi) && (c.pkt.segf == 1 || out == outLenOf c)
  else if c.pkt.segf = 3 then
    match streamOf d c with
    | some t => t.outLen == some out
    | none => true
  else true

/-- Bytes of left_encode and right_encode of a number, and of encode_string (SP 800-185). -/
def encLen (x : Nat) : Nat := if x < 256 then 2 else if x < 65536 then 3 else if x < 16777216 then 4 else 5
def strEnc (n : Nat) : Nat := encLen (8 * n) + n

/-- What R218 counts blocks from: rate, whether Keccak, prefix bytes, padding bytes, blocks after the message. -/
structure HashGeom where
  rate : Nat
  keccak : Bool
  pre : Nat
  pad : Nat
  post : Nat

/-- The geometry of a generic command, from declared lengths. -/
def hashGeom (p : Packet) (o : Op) (nLen sLen out : Nat) : HashGeom :=
  let xr := if p.prm % 2 = 1 then 168 else 136
  let squeeze := cdiv out xr - 1
  match o with
  | .xof =>
    let pre := if p.prm ≥ 3 && nLen + sLen != 0 then cdiv (encLen xr + strEnc nLen + strEnc sLen) xr * xr else 0
    { rate := xr, keccak := true, pre := pre, pad := 1, post := squeeze }
  | .kmacGen | .kmacVerify =>
    { rate := xr, keccak := true, pre := (cdiv (encLen xr + strEnc 4 + strEnc sLen) xr + 1) * xr,
      pad := encLen (if p.prm < 5 then 8 * out else 0) + 1, post := squeeze }
  | _ =>
    let c := if o = .hash then p.prm else bits p.prm 3 0
    let r := hashBlk c
    let pad := if isKeccak c then 1 else if r = 64 then 9 else 17
    if o = .hash then { rate := r, keccak := isKeccak c, pre := 0, pad := pad, post := 0 }
    else { rate := r, keccak := isKeccak c, pre := r, pad := pad, post := cdiv (r + hashLen c + pad) r }

/-- Service time of a generic command: 150 ns and its own blocks, 100 ns more for a segment (R218, R219). -/
def hashTime (d : Dev) (c : Cmd) : Nat :=
  let f := hashForm c.pkt c.op
  let n := (hashHeads c.pkt c.op).length
  let hl (i : Nat) : Nat :=
    if c.pkt.segf ≤ 1 then c.pkt.dlen i else (((streamOf d c).map (·.heads)).getD []).getD i [] |>.length
  let nLen := if c.op = .xof && n = 3 then hl 1 else 0
  let sLen := if c.op = .xof then (if n = 3 then hl 2 else 0) else if n = 0 then 0 else hl (n - 1)
  let out := f.len c.pkt (if c.op = .xof then .digest else .mac)
  let g := hashGeom c.pkt c.op nLen sLen out
  let had := if c.pkt.segf ≤ 1 then 0 else (dataOf d c).length
  let m := f.len c.pkt .msg
  let full (x : Nat) : Nat := if x = 0 then 0 else (g.pre + x) / g.rate
  let all := cdiv (g.pre + had + m + g.pad) g.rate + g.post
  let own := match c.pkt.segf with
    | 0 => all
    | 3 => all - full had
    | _ => full (had + m) - full had
  150 + (if g.keccak then own * g.rate * 4 / 15 else own * g.rate / 5) + (if c.pkt.segf = 0 then 0 else 100)

/-- One execution step of a generic command: `fin` computes from the heads, the whole message and the length of
the output or tag. A verify compares the tag. -/
def hashCmd (o : Op) (id : Nat) (fin : Cmd → List Bytes → Bytes → Nat → Bytes) : State → Out :=
  execOp o id (fun m c d =>
    let f := hashForm c.pkt o
    let heads := headsOf m d c (hashHeads c.pkt o).length
    let msg := f.get m d c .msg
    if c.pkt.segf = 1 || c.pkt.segf = 2 then segAccepted id [] heads msg c d
    else
      let role := if o = .hash || o = .xof then Role.digest else Role.mac
      let x := fin c heads (dataOf d c ++ msg) (f.len c.pkt role)
      if o = .hmacVerify || o = .kmacVerify then
        failWith (if x == f.get m d c role then .ok else .verifyFail) id d
      else okOuts (f.put role x) id d)

/-- HASH. -/
def execHash (id : Nat) : State → Out := hashCmd .hash id (fun c _ x n => std .sha n [c.prm] [x])

/-- XOF: SHAKE, or cSHAKE with N and S. -/
def execXof (id : Nat) : State → Out :=
  hashCmd .xof id (fun c hs x n =>
    let w := if c.prm % 2 = 1 then 128 else 256
    if c.prm ≤ 2 then std .shake n [w] [x] else std .cshake n [w] [x, hs.getD 1 [], hs.getD 2 []])

/-- The HMAC tag. -/
def hmacOf (c : Cmd) (x : Bytes) (n : Nat) : Bytes := std .hmac n [bits c.prm 3 0] [c.mat 0, x]

/-- HMAC_GEN. -/
def execHmacGen (id : Nat) : State → Out := hashCmd .hmacGen id (fun c _ x n => hmacOf c x n)

/-- HMAC_VERIFY (R217). -/
def execHmacVerify (id : Nat) : State → Out := hashCmd .hmacVerify id (fun c _ x n => hmacOf c x n)

/-- The KMAC tag: its length is an argument of KMAC, and 0 stands there for KMACXOF. -/
def kmacOf (c : Cmd) (s x : Bytes) (n : Nat) : Bytes :=
  std .kmac n [if c.prm % 2 = 1 then 128 else 256, if c.prm < 5 then n else 0] [c.mat 0, x, s]

/-- KMAC_GEN. -/
def execKmacGen (id : Nat) : State → Out :=
  hashCmd .kmacGen id (fun c hs x n => kmacOf c (hs.getD 1 []) x n)

/-- KMAC_VERIFY (R217). -/
def execKmacVerify (id : Nat) : State → Out :=
  hashCmd .kmacVerify id (fun c hs x n => kmacOf c (hs.getD 0 []) x n)

/-! SLH-DSA (R223 to R227). -/

def slhPk (s : Nat) : Nat := 2 * slhN s
def slhSigLen (s : Nat) : Nat := tab [7856, 17088, 16224, 35664, 29792, 49856] (s / 2)

/-- A fast set: 16 sign lanes; a small one has 32. -/
def slhFast (s : Nat) : Bool := s / 2 % 2 == 1

/-- SET, and PH with 0 for pure (R224). -/
def Packet.slhSet (p : Packet) : Nat := bits p.prm 3 0
def Packet.slhPh (p : Packet) : Nat := bits p.prm 7 5

/-- ctx and message of an SLH-DSA signature. -/
def slhMsg (p : Packet) : List Arg :=
  let n := phLen (p.slhPh - 1)
  [inArg .ctx 0 255, if p.slhPh = 0 then inArg .msg 0 16777216 else inArg .msg n n]

/-- The signed string M′. -/
def slhStr (p : Packet) (ctx msg : Bytes) : Bytes :=
  if p.slhPh = 0 then leBytes 1 0 ++ leBytes 1 ctx.length ++ ctx ++ msg
  else leBytes 1 1 ++ leBytes 1 ctx.length ++ ctx ++ phOid (p.slhPh - 1) ++ msg

/-- Forms of the SLH-DSA opcodes (R225). -/
def slhForm (p : Packet) (o : Op) : Form :=
  let s := p.slhSet
  match o with
  | .slhdsaKeygen =>
    { param := decide (s ≤ 11) && bits p.prm 7 4 == 0, args := withOpt p [karArg] [outArg .pk (slhPk s)] }
  | .slhdsaSign =>
    { param := decide (s ≤ 11), need := [0], args := slhMsg p ++ [outArg .sig (slhSigLen s)] }
  | _ =>
    { param := decide (s ≤ 11) && !bit p.prm 4, may := [0],
      args := onlyIf (!p.hasKey 0) [inArg .ek (slhPk s) (slhPk s)] ++ slhMsg p
        ++ [inArg .sig (slhSigLen s) (slhSigLen s)] }

/-- Lanes and time of a key generation (R225, R226). -/
def slhKeygenPart (s : Nat) : Part :=
  part .hash (if slhFast s then 16 else 32)
    (1000 * tab [230, 329, 10, 14, 430, 615, 17, 24, 750, 1073, 47, 67] s)

/-- Lanes and time of an SLH-DSA command (R225, R226). -/
def slhPart (c : Cmd) : Part :=
  let s := c.pkt.slhSet
  let f := slhForm c.pkt c.op
  let ml := 2 + f.len c.pkt .ctx + (if c.pkt.slhPh = 0 then 0 else 11) + f.len c.pkt .msg
  let shake := s % 2 == 1
  let ex := extraBlocks ml 1088 (if shake then 136 else 64)
  let lanes := if slhFast s then 16 else 32
  match c.op with
  | .slhdsaKeygen => slhKeygenPart s
  | .slhdsaSign =>
    part .hash lanes (1000 * tab [1600, 2290, 200, 286, 3000, 4290, 364, 520, 6000, 8570, 800, 1143] s
      + ex * (if shake then 725 else 256) / 10)
  | _ =>
    part .hash 4 (1000 * tab [30, 43, 80, 114, 45, 64, 120, 172, 70, 100, 130, 186] s
      + ex * (if shake then 363 else 128) / 10)

/-- SLHDSA_KEYGEN (R225). -/
def execSlhdsaKeygen (id : Nat) : State → Out :=
  execOp .slhdsaKeygen id (fun m c d =>
    let f := slhForm c.pkt c.op
    genKey id (f.get m d c .kar) (0x20 + c.pkt.slhSet) 0 0 (f.put .pk) d)

/-- SLHDSA_SIGN: the root is recomputed from the signature before its release (R224, R227). -/
def execSlhdsaSign (id : Nat) : State → Out :=
  execOp .slhdsaSign id (fun m c d =>
    let f := slhForm c.pkt c.op
    let s := c.pkt.slhSet
    let str := slhStr c.pkt (f.get m d c .ctx) (f.get m d c .msg)
    let (r, d) := if bit c.prm 4 then (seg (c.mat 0) (2 * slhN s) (slhN s), d) else draw (slhN s) d
    let sig := std .slhSign (slhSigLen s) [s] [c.mat 0, str, r]
    if Config.stdOk .slhVerify [s] [c.pub 0, str, sig] then okOuts (f.put .sig sig) id d
    else invariantFail .hash id d)

/-- SLHDSA_VERIFY (R227). -/
def execSlhdsaVerify (id : Nat) : State → Out :=
  execOp .slhdsaVerify id (fun m c d =>
    let f := slhForm c.pkt c.op
    let str := slhStr c.pkt (f.get m d c .ctx) (f.get m d c .msg)
    let pk := if c.pkt.hasKey 0 then c.pub 0 else f.get m d c .ek
    failWith (if Config.stdOk .slhVerify [c.pkt.slhSet] [pk, str, f.get m d c .sig] then .ok else .verifyFail)
      id d)

/-! LMS, HSS, XMSS and XMSS^MT (R228 to R237). -/

/-- The opcode is one of the LMS group. -/
def isLmsOp (o : Op) : Bool := o == .lmsKeygen || o == .lmsSign || o == .lmsVerify || o == .lmsReserve

/-- TYPE that a PARAM names for a SIGN or VERIFY opcode. -/
def treeType (o : Op) (sub : Nat) : Nat := if isLmsOp o then 0x30 else if bit sub 7 then 0x32 else 0x31

/-- Signature bytes by TYPE (R230). -/
def treeSigLen (typ : Nat) (t : TreeSet) : Nat :=
  let len := if t.n = 32 then 67 else 51
  if typ = 0x30 then
    let s := 8 + (4 + t.n * (lmotsP t + 1)) + t.h * t.n
    4 + (t.layers - 1) * (s + 24 + t.n) + s
  else if typ = 0x31 then 4 + t.n + (len + t.h) * t.n
  else cdiv t.total 8 + t.n + (len * t.layers + t.total) * t.n

/-- Public-key bytes by TYPE. -/
def treePkLen (typ : Nat) (t : TreeSet) : Nat := if typ = 0x30 then 28 + t.n else 4 + 2 * t.n

/-- Forms of the stateful opcodes (R231). The public-key output of a KEYGEN depends on the KAR. -/
def treeForm (p : Packet) (o : Op) : Form :=
  let typ := treeType o p.prm
  let ts := treeSet typ p.prm
  let sg := (ts.map (treeSigLen typ)).getD 0
  let pk := (ts.map (treePkLen typ)).getD 0
  match o with
  | .lmsKeygen => { param := p.prm == 0, args := withOpt p [karArg] [{ role := .pk, out := true, lo := 52, hi := 60 }] }
  | .xmssKeygen => { param := p.prm == 0, args := withOpt p [karArg] [{ role := .pk, out := true, lo := 52, hi := 68 }] }
  | .lmsSign | .xmssSign =>
    { param := ts.isSome, need := [0], args := [inArg .msg 0 16777216, outArg .sig sg] }
  | .lmsVerify | .xmssVerify =>
    { param := ts.isSome, may := [0],
      args := onlyIf (!p.hasKey 0) [inArg .ek pk pk] ++ [inArg .msg 0 16777216, inArg .sig sg sg] }
  | _ =>
    { param := decide (bits p.prm 3 0 ≤ 5) && bits p.prm 6 4 == 0, need := [0],
      args := [inArg .params 16 16, outArg .report 24]
        ++ onlyIf (!bit p.prm 7) [outArg .blob (blobLen (bits p.prm 3 0))] }

/-- TYPE, SUBTYPE and usage of the keys of the stateful opcodes; a blob's class must hold the key (R157 [05]). -/
def treeKey (c : Cmd) (e : Entry) : Bool :=
  let typ := treeType c.op c.prm
  match c.op with
  | .lmsSign | .xmssSign => e.fits typ uSIGN true && e.subtype == c.prm
  | .lmsVerify | .xmssVerify => e.fits typ uVERIFY false && e.subtype == c.prm
  | _ =>
    isTree e.typ && (e.typ == 0x30) == (c.op == .lmsReserve) && e.may uSIGN && !e.has fPublicOnly
      && (bit c.prm 7 || decide (e.matLen ≤ classArea (bits c.prm 3 0)))

/-- Time of one one-time signature: T_L, or T_X (R235). -/
def otsTime (typ : Nat) (t : TreeSet) : Nat :=
  if typ = 0x30 then (lmotsP t * (2 ^ t.w - 1) + t.h + 14) * 128 / 10
  else (if t.n = 32 then 124600 else 95000) + 170 * t.h

/-- Time of one tree build (R235). -/
def buildTime (typ : Nat) (t : TreeSet) : Nat :=
  if typ = 0x30 then 2 ^ t.h * (lmotsP t * (2 ^ t.w - 1) + 4) * 128 / 320
  else 2 ^ t.h * (if t.n = 32 then 124600 else 95000) / 32

/-- Time of a verification. -/
def treeVerifyTime (typ : Nat) (t : TreeSet) : Nat :=
  if typ = 0x30 then 3 * t.layers * otsTime typ t
  else t.layers * (34 * (if t.n = 32 then 124600 else 95000) / 10 + 130 * t.h)

/-- Time to make a key: a build per level and of the next lowest tree, and a signature per lower-level root
(R235). -/
def treeKeygenTime (typ : Nat) (t : TreeSet) : Nat :=
  (t.layers + b2n (t.layers > 1)) * buildTime typ t
    + (if t.layers > 1 then t.layers * otsTime typ t else 0)

/-- Number of the lowest-layer tree that holds index `i`. -/
def treeOf (t : TreeSet) (i : Nat) : Nat := i / 2 ^ t.h

/-- New trees, over all layers below the top, for the lowest-layer trees up to `to` where those up to `have`
are cached. -/
def newTrees (t : TreeSet) (cached dest : Nat) : Nat :=
  ((List.range (t.layers - 1)).map (fun k => dest / 2 ^ (t.h * k) - cached / 2 ^ (t.h * k))).sum

/-- What a RESERVE with COMMIT 0 asks of the entry: the new PENDING, rounded up to the unit (R233, R234). -/
def newPending (t : TreeSet) (e : Entry) (v : Nat) : Nat :=
  cdiv (e.pending + v) (treeUnit t) * treeUnit t

/-- Lowest-layer tree the new range reaches. -/
def reachOf (t : TreeSet) (np : Nat) : Nat := treeOf t (np - 1)

/-- Trees that a RESERVE builds: those its range enters, and all of them when the cache was lost. -/
def reserveBuilds (t : TreeSet) (e : Entry) (np : Nat) : Nat :=
  if !e.cache then t.layers + b2n (t.layers > 1)
  else if t.layers = 1 || np ≤ e.ceiling then 0 else newTrees t e.treeTo (reachOf t np)

/-- Lower-level roots that a RESERVE signs: of every tree it builds but the top one (R235). -/
def reserveRoots (t : TreeSet) (e : Entry) (np : Nat) : Nat :=
  if !e.cache then (if t.layers > 1 then t.layers else 0) else reserveBuilds t e np

/-- Parts of a stateful command (R235). The request and the KAR are among the inputs read ahead. -/
def treeParts (d : Dev) (c : Cmd) : List Part :=
  let f := treeForm c.pkt c.op
  let inc := 128 * extraBlocks (f.len c.pkt .msg) 1088 64 / 10
  let typ := treeType c.op c.prm
  match c.op with
  | .lmsKeygen | .xmssKeygen =>
    let r := reqOf (c.early 0)
    match treeSet r.typ r.sub with
    | some t => [part .hash 32 (treeKeygenTime r.typ t)]
    | none => [part .hash 32 0]
  | .lmsReserve | .xmssReserve =>
    match c.keys.head? with
    | some k =>
      let e := d.ent k.idx
      match treeSet e.typ e.subtype with
      | some t =>
        if bit c.prm 7 then [part .hash 1 3000]
        else
          let n := reserveBuilds t e (newPending t e (field (c.early 0) 0 8))
          [part .hash (if n = 0 then 1 else 32) (3000 + n * buildTime e.typ t
             + reserveRoots t e (newPending t e (field (c.early 0) 0 8)) * otsTime e.typ t),
           sealPart (classArea (bits c.prm 3 0)) c.draws]
      | none => [part .hash 1 3000]
    | none => [part .hash 1 3000]
  | .lmsSign | .xmssSign =>
    match treeSet typ c.prm with
    | some t => [part .hash 1 (otsTime typ t + inc)]
    | none => []
  | _ =>
    match treeSet typ c.prm with
    | some t => [part .hash 1 (treeVerifyTime typ t + inc)]
    | none => []

/-- TYPE that a stateful KEYGEN's KAR must give; 0 where it gives another's. -/
def treeKarType (o : Op) (typ : Nat) : Nat :=
  if (if o = .lmsKeygen then typ == 0x30 else typ == 0x31 || typ == 0x32) then typ else 0

/-- What LMS_KEYGEN and XMSS_KEYGEN refuse: a public-key output of another length than the set's gives LENGTH_MISMATCH. -/
def treeKeygenRefusal (d : Dev) (c : Cmd) (kar : Bytes) : Option Status :=
  let f := treeForm c.pkt c.op
  let r := reqOf kar
  let long := match treeSet r.typ r.sub with
    | some t => treeKarType c.op r.typ != 0 && f.len c.pkt .pk != treePkLen r.typ t && c.pkt.ndesc == 2
    | none => false
  if long then some .lengthMismatch else genRefusal d c kar (treeKarType c.op r.typ) r.sub

/-- LMS_KEYGEN and XMSS_KEYGEN. -/
def treeKeygen (id : Nat) (m : Memory) (c : Cmd) (d : Dev) : Dev :=
  let f := treeForm c.pkt c.op
  let kar := f.get m d c .kar
  match treeKeygenRefusal d c kar with
  | some st => failWith st id d
  | none => genKey id kar (treeKarType c.op (reqOf kar).typ) (reqOf kar).sub 0 (f.put .pk) d

/-- LMS_KEYGEN. -/
def execLmsKeygen (id : Nat) : State → Out := execOp .lmsKeygen id (treeKeygen id)

/-- XMSS_KEYGEN. -/
def execXmssKeygen (id : Nat) : State → Out := execOp .xmssKeygen id (treeKeygen id)

/-- A cached tree that fails its tag is discarded (R237): the entry's cache is lost. -/
def loseCache (c : Cmd) (d : Dev) : Dev :=
  match c.keys.head? with
  | some k => modEnt k.idx (fun e => { e with cache := false }) d
  | none => d

/-- The trees of the command's key can be used. -/
def treesOk (d : Dev) (c : Cmd) : Bool :=
  hbmOk d c.slice && (match c.keys.head? with
    | some k => (d.ent k.idx).cache
    | none => false)

/-- The key material of each level's tree that holds index `i`: the top-level key, and of HSS the lower-level keys
I ‖ SEED derived from its SEED (R229). -/
def levelKeys (typ : Nat) (t : TreeSet) (mat : Bytes) (i : Nat) : List Bytes :=
  let lower (l : Nat) : Bytes :=
    kmac256 (mat.drop 16) (leBytes 1 l ++ beBytes 8 (i / 2 ^ (t.h * (t.layers + 1 - l)))) (16 + t.n) "ORNATH-HSS"
  mat :: (if typ = 0x30 then (List.range (t.layers - 1)).map (fun k => lower (k + 2)) else [])

/-- A stateful signature at the index taken at resolution (R232, R237); RESULT is the index. The randomiser of
LMS comes from the number drawn at dispatch, which a repetition under CAUTION keeps (R239). -/
def treeSign (id : Nat) (m : Memory) (c : Cmd) (d : Dev) : Dev :=
  let f := treeForm c.pkt c.op
  let i := c.otIndex.getD 0
  let typ := treeType c.op c.prm
  let msg := f.get m d c .msg
  let fs : Std × Std := if typ = 0x30 then (.lmsSign, .lmsVerify) else (.xmssSign, .xmssVerify)
  match treeSet typ c.prm with
  | none => d
  | some t =>
    if !treesOk d c then failWith .faultDetected id (if hbmOk d c.slice then d else loseCache c d)
    else
      let r := std .drbg 32 [c.draws] []
      let sig := std fs.1 (treeSigLen typ t) [typ, c.prm, i] (msg :: r :: levelKeys typ t (c.mat 0) i)
      if Config.stdOk fs.2 [typ, c.prm] [c.pub 0, msg, sig] then
        outcomeIs { status := .ok, outs := f.put .sig sig, result := leBytes 8 i } id d
      else invariantFail .hash id d

/-- LMS_SIGN. -/
def execLmsSign (id : Nat) : State → Out := execOp .lmsSign id (treeSign id)

/-- XMSS_SIGN. -/
def execXmssSign (id : Nat) : State → Out := execOp .xmssSign id (treeSign id)

/-- A stateful verification: a supplied key whose type fields disagree with PARAM gives INPUT_INVALID (R231). -/
def treeVerify (id : Nat) (m : Memory) (c : Cmd) (d : Dev) : Dev :=
  let f := treeForm c.pkt c.op
  let typ := treeType c.op c.prm
  let pk := if c.pkt.hasKey 0 then c.pub 0 else f.get m d c .ek
  let fn : Std := if typ = 0x30 then .lmsVerify else .xmssVerify
  if !c.pkt.hasKey 0 && !pubOk typ c.prm pk then failWith .inputInvalid id d
  else
    failWith (if Config.stdOk fn [typ, c.prm] [pk, f.get m d c .msg, f.get m d c .sig] then .ok else .verifyFail)
      id d

/-- LMS_VERIFY. -/
def execLmsVerify (id : Nat) : State → Out := execOp .lmsVerify id (treeVerify id)

/-- XMSS_VERIFY. -/
def execXmssVerify (id : Nat) : State → Out := execOp .xmssVerify id (treeVerify id)

/-- The 24-byte status block of a stateful entry (R231). -/
def treeStatus (e : Entry) : Bytes := leBytes 8 e.next ++ leBytes 8 e.ceiling ++ leBytes 8 e.pending

/-- What a RESERVE refuses (R231, R234). -/
def reserveRefusal (e : Entry) (c : Cmd) (req : Bytes) : Option Status :=
  let v := field req 0 8
  match treeSet e.typ e.subtype with
  | none => none
  | some t =>
    let np := newPending t e v
    let last := if t.layers = 1 then 2 ^ t.total else (treeOf t e.next + 2) * 2 ^ t.h
    if field req 8 8 != 0 then some .packetMalformed
    else if bit c.prm 7 then (if v != e.pending || e.pending ≤ e.ceiling then some .policyRefused else none)
    else if e.ceiling = 2 ^ t.total then some .keySigExhausted
    else if np > 2 ^ t.total || (v != 0 && np > last) then some .fieldRejected
    else none

/-- LMS_RESERVE and XMSS_RESERVE (R234), on the entry as it is now. -/
def treeReserve (id : Nat) (m : Memory) (c : Cmd) (d : Dev) : Dev :=
  let f := treeForm c.pkt c.op
  let req := f.get m d c .params
  match c.keys.head? with
  | none => d
  | some k =>
    let e := d.ent k.idx
    match treeSet e.typ e.subtype, reserveRefusal e c req with
    | none, _ => d
    | some _, some st => failWith st id d
    | some t, none =>
      let held := setCmd { c with undo := some (k.idx, e) } d
      if bit c.prm 7 then
        let e := { e with ceiling := e.pending, pend := none }
        okOuts (f.put .report (treeStatus e)) id (setEnt k.idx e held)
      else if !hbmOk d c.slice then failWith .faultDetected id (loseCache c d)
      else
        let np := newPending t e (field req 0 8)
        let e := { e with pend := some np, cache := true, treeTo := max e.treeTo (reachOf t np) }
        okOuts (f.put .report (treeStatus e) ++ f.put .blob (sliceBlob d e (bits c.prm 3 0))) id (setEnt k.idx e held)

/-- LMS_RESERVE. -/
def execLmsReserve (id : Nat) : State → Out := execOp .lmsReserve id (treeReserve id)

/-- XMSS_RESERVE. -/
def execXmssReserve (id : Nat) : State → Out := execOp .xmssReserve id (treeReserve id)

end Sys2Proof.Machine
end

