-- ==== Sys2Proof/Machine/Code.lean ====
section
/-!
DEFINITION. The commands of the Tweed engines: HQC and Classic McEliece (R240 to R258 [08]).
-/
namespace Sys2Proof.Machine

/-- SET of a Tweed PARAM (R248). -/
def Packet.set3 (p : Packet) : Nat := bits p.prm 2 0

/-- The HQC group. -/
def isHqc (o : Op) : Bool := o == .hqcKeygen || o == .hqcEncaps || o == .hqcDecaps

/-- TYPE of a set (R244, R245). -/
def codeType (o : Op) (s : Nat) : Nat := (if isHqc o then 0x38 else 0x3C) + s

/-- Public key, ciphertext and shared-secret bytes. -/
def codePk (o : Op) (s : Nat) : Nat := ((typeLens (codeType o s) 0).getD (0, 0)).2
def codeCt (o : Op) (s : Nat) : Nat := if isHqc o then tab [4433, 8978, 14421] s else tab [96, 156, 208, 194, 208] s
def codeSs (o : Op) : Nat := if isHqc o then 64 else 32

/-- SUBTYPE of the HMAC key that a secret becomes (R249). -/
def codeSub (o : Op) : Nat := if isHqc o then 0x75 else 0x34

/-- Forms of the Tweed opcodes (R248, R250). -/
def codeForm (p : Packet) (o : Op) : Form :=
  let s := p.set3
  let ok := decide (s ≤ (if isHqc o then 2 else 4)) && bits p.prm 6 4 == 0 && (o == .mceKeygen || !bit p.prm 3)
  let kar := onlyIf (!p.css) [karArg]
  let ss := onlyIf p.css [outArg .ss (codeSs o)]
  match o with
  | .hqcKeygen => { param := ok && !p.css, args := withOpt p [karArg] [outArg .pk (codePk o s)] }
  | .mceKeygen =>
    { param := ok && !p.css, args := withOpt p [karArg] [outArg .pk (codePk o s), outArg .report 8] }
  | .hqcEncaps | .mceEncaps =>
    { param := ok, may := [0],
      args := kar ++ onlyIf (!p.hasKey 0) [inArg .ek (codePk o s) (codePk o s)] ++ [outArg .ct (codeCt o s)]
        ++ ss }
  | _ => { param := ok, need := [0], args := kar ++ [inArg .ct (codeCt o s) (codeCt o s)] ++ ss }

/-- TYPE and usage of the key of a Tweed opcode. -/
def codeKey (c : Cmd) (e : Entry) : Bool :=
  if c.op == .hqcEncaps || c.op == .mceEncaps then e.fits (codeType c.op c.pkt.set3) uENCAPS false
  else e.fits (codeType c.op c.pkt.set3) uDECAPS true

/-- Key generation time in ns for `a` attempts (R254). -/
def mceKeygenTime (s a : Nat) (f : Bool) : Nat :=
  let per := tab [500000, 1000000, 1580000, 1600000, 2000000] s
  tab [270000, 600000, 1100000, 1130000, 1400000] s + a * (if f then per * 105 / 100 else per)

/-- Service time of a Tweed command (R254). -/
def codeTime (c : Cmd) : Nat :=
  let s := c.pkt.set3
  match c.op with
  | .hqcKeygen => tab [10000, 22000, 40000] s
  | .hqcEncaps => tab [12500, 28570, 57140] s
  | .hqcDecaps => tab [20000, 44440, 88890] s
  | .mceKeygen => mceKeygenTime s (min 512 c.draws) (bit c.prm 3)
  | .mceEncaps => tab [8000, 15000, 26400, 26670, 34000] s
  | _ => tab [20000, 40000, 70000, 66670, 82000] s

/-- A public key in the large-key store cannot be read (R257): its memory key is gone. One that has failed its tag is
`Entry.tagBad`. -/
def companionFails (d : Dev) (c : Cmd) : Bool :=
  c.pkt.hasKey 0 && decide (0x38 ≤ c.typ 0) && decide (c.typ 0 ≤ 0x40)
    && !hbmOk d ((c.foreign.map (·.req.slice)).getD c.slice)

/-- Parameters of a Tweed function of the standards: the set and, of HQC, the revision in force (R243). -/
def codeParams (c : Cmd) : List Nat := c.pkt.set3 :: (if isHqc c.op then [c.revs.2] else [])

/-- The padding bits of a mceliece6960119 ciphertext, 1,547 bits in 194 bytes, are 0 (R245, R256). -/
def ctPadOk (o : Op) (s : Nat) (ct : Bytes) : Bool :=
  isHqc o || s != 3 || decide ((ct.getD 193 0).toNat < 8)

/-- The secret of a decapsulation (R256): the real one, or the rejection secret where the padding is not 0 or the
ciphertext does not decode under the revision in force. -/
def codeSecret (c : Cmd) (ct : Bytes) : Bytes :=
  let fn : Std := if isHqc c.op then .hqcDecaps else .mceDecaps
  let real := ctPadOk c.op c.pkt.set3 ct && Config.stdOk fn (codeParams c) [c.mat 0, ct]
  std fn (codeSs c.op) (b2n real :: codeParams c) [c.mat 0, ct]

/-- HQC_KEYGEN. -/
def execHqcKeygen (id : Nat) : State → Out :=
  execOp .hqcKeygen id (fun m c d =>
    let f := codeForm c.pkt c.op
    genKey id (f.get m d c .kar) (codeType c.op c.pkt.set3) 0 0 (f.put .pk) d)

/-- MCE_KEYGEN (R252): 512 failed attempts end it with INVARIANT_FAIL. -/
def execMceKeygen (id : Nat) : State → Out :=
  execOp .mceKeygen id (fun m c d =>
    let f := codeForm c.pkt c.op
    if c.draws > 512 then failWith .invariantFail id d
    else
      genKey id (f.get m d c .kar) (codeType c.op c.pkt.set3) 0 0
        (fun pk => f.put .pk pk ++ f.put .report (leBytes 4 c.draws ++ zeros 4)) d)

/-- An encapsulation (R249, R250, R255). -/
def codeEncaps (id : Nat) (m : Memory) (c : Cmd) (d : Dev) : Dev :=
  let f := codeForm c.pkt c.op
  let s := c.pkt.set3
  let kar := f.get m d c .kar
  let ek := if c.pkt.hasKey 0 then c.pub 0 else f.get m d c .ek
  let pubOnly := !c.pkt.hasKey 0 || ((c.key 0).map (fun e => e.has fPublicOnly)).getD false
  let fn : Std := if isHqc c.op then .hqcEncaps else .mceEncaps
  match secretKar d c c.pkt.css false (codeSub c.op) kar with
  | some st => failWith st id d
  | none =>
    if companionFails d c then failWith .faultDetected id d
    else if pubOnly && !pubOk (codeType c.op s) 0 ek then failWith .inputInvalid id d
    else
      let (r, d) := draw 64 d
      let x := std fn (codeCt c.op s + codeSs c.op) (codeParams c) [ek, r]
      if !isHqc c.op && !Config.stdOk fn [s] [ek, r] then failWith .invariantFail id d
      else placeSecret id f c.pkt.css false kar (x.drop (codeCt c.op s)) (f.put .ct (x.take (codeCt c.op s))) d

/-- A decapsulation; rejection is implicit (R256). -/
def codeDecaps (id : Nat) (m : Memory) (c : Cmd) (d : Dev) : Dev :=
  let f := codeForm c.pkt c.op
  let kar := f.get m d c .kar
  match secretKar d c c.pkt.css true (codeSub c.op) kar with
  | some st => failWith st id d
  | none =>
    if companionFails d c then failWith .faultDetected id d
    else placeSecret id f c.pkt.css true kar (codeSecret c (f.get m d c .ct)) [] d

/-- HQC_ENCAPS. -/
def execHqcEncaps (id : Nat) : State → Out := execOp .hqcEncaps id (codeEncaps id)

/-- HQC_DECAPS. -/
def execHqcDecaps (id : Nat) : State → Out := execOp .hqcDecaps id (codeDecaps id)

/-- MCE_ENCAPS. -/
def execMceEncaps (id : Nat) : State → Out := execOp .mceEncaps id (codeEncaps id)

/-- MCE_DECAPS. -/
def execMceDecaps (id : Nat) : State → Out := execOp .mceDecaps id (codeDecaps id)

end Sys2Proof.Machine
end

