-- ==== Sys2Proof/Machine/Classical.lean ====
section
/-!
DEFINITION. The commands of the Serge cores: RSA and elliptic curves (R259 to R282 [09]).
-/
namespace Sys2Proof.Machine

/-! RSA (R268 to R272). -/

/-- Modulus bytes of a PARAM. -/
def rsaK (prm : Nat) : Nat := 8 * (prm + 1)

/-- The options block, which is inline (R268). -/
structure RsaOpts where
  scheme : Nat
  hash : Nat
  mgf : Nat
  salt : Nat
  exp : Nat

/-- The options of a packet. -/
def Packet.rsaOpts (p : Packet) : RsaOpts :=
  let b := p.inlineOf 0
  { scheme := field b 0 1, hash := field b 1 1, mgf := field b 2 1, salt := field b 3 1, exp := field b 4 1 }

/-- What the options block fails with (R268). -/
def rsaBlock (p : Packet) (o : Op) : Option Status :=
  let b := p.inlineOf 0
  let x := p.rsaOpts
  let signs := o == .rsaSign || o == .rsaVerify
  let mask := x.scheme == 0 || x.scheme == 2
  if o = .rsaKeygen || p.dlen 0 != 8 then none
  else if !(if signs then decide (x.scheme ≤ 1) else x.scheme == 2 || x.scheme == 3) then some .paramUnsupported
  else if !(if x.scheme = 3 then x.hash == 0 else decide (1 ≤ x.hash) && decide (x.hash ≤ 9)) then
    some .paramUnsupported
  else if !(if mask then decide (x.mgf ≤ 9) else x.mgf == 0) then some .paramUnsupported
  else if x.salt > 64 || (x.scheme == 0 && decide (x.salt + hashLen x.hash + 2 > rsaK p.prm)) then
    some .lengthMismatch
  else if x.scheme != 0 && x.salt != 0 then some .paramUnsupported
  else if x.exp > 1 || (x.exp == 1 && o != .rsaVerify && o != .rsaEncrypt) || field b 5 3 != 0 then
    some .packetMalformed
  else none

/-- The longest message of an encryption scheme. -/
def rsaMax (p : Packet) : Nat :=
  if p.rsaOpts.scheme = 2 then rsaK p.prm - 2 * hashLen p.rsaOpts.hash - 2 else rsaK p.prm - 11

/-- Forms of the RSA opcodes (R269). -/
def rsaForm (p : Packet) (o : Op) : Form :=
  let k := rsaK p.prm
  let x := p.rsaOpts
  let h := hashLen x.hash
  let opts := inlArg .opts 8 8
  let pk := onlyIf (!p.hasKey 0) [inArg .ek (k + 32) (k + 32)]
  let label := onlyIf (x.scheme == 2) [inArg .label 0 256]
  let fits := x.scheme != 2 || decide (2 * h + 2 ≤ k)
  let ok := decide (0x0F ≤ p.prm)
  match o with
  | .rsaKeygen => { param := ok, args := withOpt p [karArg] [outArg .pk (k + 32), outArg .report 8] }
  | .rsaSign =>
    { param := ok, need := [0], args := [opts, inArg .digest h h, outArg .sig k], block := rsaBlock p o }
  | .rsaVerify =>
    { param := ok, may := [0], args := opts :: pk ++ [inArg .digest h h, inArg .sig k k],
      block := rsaBlock p o }
  | .rsaEncrypt =>
    { param := ok, may := [0], args := opts :: pk ++ label ++ [inArg .msg 0 (rsaMax p), outArg .ct k],
      block := rsaBlock p o, lens := fits }
  | _ =>
    { param := ok, need := [0], args := opts :: label ++ [inArg .ct k k, outArg .area (2 + rsaMax p)],
      block := rsaBlock p o, lens := fits }

/-- SUBTYPE and usage of an RSA key. -/
def rsaKey (c : Cmd) (e : Entry) : Bool :=
  e.subtype == c.prm && (match c.op with
    | .rsaSign => e.fits 0x48 uSIGN true
    | .rsaVerify => e.fits 0x48 uVERIFY false
    | .rsaEncrypt => e.fits 0x48 uENCRYPT false
    | _ => e.fits 0x48 uDECRYPT true)

/-- Class of a modulus (R277). -/
def rsaClass (prm : Nat) : Nat :=
  if prm ≤ 0x0F then 0 else if prm ≤ 0x1F then 1 else if prm ≤ 0x2F then 2 else if prm ≤ 0x3F then 3
  else if prm ≤ 0x7F then 4 else 5

/-- Credits of a modulus: one per 512 bits, at most 8 (R17 [01]). -/
def rsaCredits (prm : Nat) : Nat := min 8 (cdiv (64 * (prm + 1)) 512)

/-- Fixed part of a key generation. -/
def rsaFixed (prm : Nat) : Nat := tab [400000, 1000000, 2000000, 4500000, 30000000, 220000000] (rsaClass prm)

/-- Service time (R277). -/
def rsaTime (c : Cmd) : Nat :=
  let k := rsaClass c.prm
  match c.op with
  | .rsaKeygen =>
    rsaFixed c.prm + min 65536 c.draws * tab [12000, 30000, 70000, 160000, 1200000, 9000000] k
  | .rsaSign | .rsaDecrypt => tab [30000, 106670, 145450, 355560, 2666700, 20000000] k
  | _ =>
    if bit c.pkt.rsaOpts.exp 0 then tab [80000, 213300, 320000, 600000, 4000000, 30000000] k
    else tab [4000, 10670, 16000, 30000, 200000, 1500000] k

/-- The parameters of a scheme, as the standard functions take them. -/
def rsaParams (c : Cmd) : List Nat :=
  let x := c.pkt.rsaOpts
  [c.prm, x.scheme, x.hash, if x.mgf = 0 then x.hash else x.mgf, x.salt]

/-- Modulus and exponent of a public-key encoding n ‖ e. -/
def rsaN (prm : Nat) (pk : Bytes) : Nat := beNat (pk.take (rsaK prm))
def rsaE (prm : Nat) (pk : Bytes) : Nat := beNat (pk.drop (rsaK prm))

/-- A public key that a public operation refuses (R280); `given` says that a descriptor supplied it. -/
def rsaPkBad (c : Cmd) (given : Bool) (pk : Bytes) : Bool :=
  let n := rsaN c.prm pk
  let e := rsaE c.prm pk
  (given && (n % 2 == 0 || decide (n < 2 ^ (64 * (c.prm + 1) - 1)) || e % 2 == 0 || decide (e < 65537)))
    || (!bit c.pkt.rsaOpts.exp 0 && e != 65537)

/-- A representative out of range: 0, 1, n − 1, or at or above n (R280). -/
def repBad (n v : Nat) : Bool := decide (v ≤ 1) || decide (v + 1 ≥ n)

/-- The public operation on a representative, in `k` bytes (R265). -/
def rsaPublic (prm : Nat) (pk b : Bytes) : Bytes := beBytes (rsaK prm) (powMod (beNat b) (rsaE prm pk) (rsaN prm pk))

/-- The private operation on a representative: the CRT halves, recombined (R262, R266). Blinding leaves the value as it
is. -/
def rsaPrivate (prm : Nat) (mat b : Bytes) : Bytes :=
  let k := rsaK prm
  let at_ (i : Nat) : Nat := beNat (seg mat (2 * k + 32 + i * (k / 2)) (k / 2))
  let m1 := powMod (beNat b) (at_ 2) (at_ 0)
  let m2 := powMod (beNat b) (at_ 3) (at_ 1)
  beBytes k (m2 + (m1 + at_ 0 - m2 % at_ 0) * at_ 4 % at_ 0 * at_ 1)

/-- A failed verification of a generated key pair: KEY_CHECK_FAIL (R267), with the CONTAINED fault of R281 (log 53). -/
def classicalBad : Outcome := { status := .keyCheckFail, outs := [], result := [], fault := some .classical }

/-- RSA_KEYGEN (R269, R272); admission has refused a short key. -/
def execRsaKeygen (id : Nat) : State → Out :=
  execOp .rsaKeygen id (fun m c d =>
    let f := rsaForm c.pkt c.op
    if c.draws ≥ 65536 then failWith .invariantFail id d
    else
      genKey id (f.get m d c .kar) 0x48 c.prm 0
        (fun pk => f.put .pk pk ++ f.put .report (leBytes 4 c.draws ++ zeros 4)) d classicalBad)

/-- RSA_SIGN, checked before its release (R270, R281). -/
def execRsaSign (id : Nat) : State → Out :=
  execOp .rsaSign id (fun m c d =>
    let f := rsaForm c.pkt c.op
    let (r, d) := draw c.pkt.rsaOpts.salt d
    let dig := f.get m d c .digest
    let em := std .rsaSign (rsaK c.prm) (rsaParams c) [dig, r]
    let sig := rsaPrivate c.prm (c.mat 0) em
    if rsaPublic c.prm (c.pub 0) sig == em then okOuts (f.put .sig sig) id d
    else invariantFail .classical id d)

/-- RSA_VERIFY (R270, R280). -/
def execRsaVerify (id : Nat) : State → Out :=
  execOp .rsaVerify id (fun m c d =>
    let f := rsaForm c.pkt c.op
    let given := !c.pkt.hasKey 0
    let pk := if given then f.get m d c .ek else c.pub 0
    let sig := f.get m d c .sig
    if rsaPkBad c given pk || repBad (rsaN c.prm pk) (beNat sig) then failWith .inputInvalid id d
    else
      failWith (if Config.stdOk .rsaVerify (rsaParams c) [f.get m d c .digest, rsaPublic c.prm pk sig] then .ok
        else .verifyFail) id d)

/-- RSA_ENCRYPT (R270, R280). -/
def execRsaEncrypt (id : Nat) : State → Out :=
  execOp .rsaEncrypt id (fun m c d =>
    let f := rsaForm c.pkt c.op
    let given := !c.pkt.hasKey 0
    let pk := if given then f.get m d c .ek else c.pub 0
    if rsaPkBad c given pk then failWith .inputInvalid id d
    else
      let msg := f.get m d c .msg
      let (r, d) := draw (if c.pkt.rsaOpts.scheme = 2 then hashLen c.pkt.rsaOpts.hash
        else rsaK c.prm - 3 - msg.length) d
      let em := std .rsaEncrypt (rsaK c.prm) (rsaParams c) [f.get m d c .label, msg, r]
      okOuts (f.put .ct (rsaPublic c.prm pk em)) id d)

/-- The message area: MLEN and the message, zeros after it (R269). -/
def rsaArea (p : Packet) (msg : Bytes) : Bytes := leBytes 2 msg.length ++ fit (rsaMax p) msg

/-- The synthetic message of a padding failure (R271). -/
def rsaSynthetic (c : Cmd) (ct : Bytes) : Bytes :=
  let k := rsaK c.prm
  let kdk := kmac256 (seg (c.mat 0) (k + 32) k) [] 32 "ORNATH-RSA-IR"
  let t := kmac256 kdk ct (2 + rsaMax c.pkt) "ORNATH-RSA-MSG"
  (t.drop 2).take (beNat (t.take 2) % (rsaMax c.pkt + 1))

/-- RSA_DECRYPT (R271, R280, R281): the recovered representative raised to e is the ciphertext; whether it decodes is the
scheme's to say. -/
def execRsaDecrypt (id : Nat) : State → Out :=
  execOp .rsaDecrypt id (fun m c d =>
    let f := rsaForm c.pkt c.op
    let ct := f.get m d c .ct
    let em := rsaPrivate c.prm (c.mat 0) ct
    let args := [f.get m d c .label, em]
    let msg := (Config.std .rsaDecrypt (rsaParams c) args).take (rsaMax c.pkt)
    if repBad (rsaN c.prm (c.pub 0)) (beNat ct) then failWith .inputInvalid id d
    else if rsaPublic c.prm (c.pub 0) em != ct then invariantFail .classical id d
    else if Config.stdOk .rsaDecrypt (rsaParams c) args then okOuts (f.put .area (rsaArea c.pkt msg)) id d
    else if c.pkt.rsaOpts.scheme = 2 then failWith .inputInvalid id d
    else okOuts (f.put .area (rsaArea c.pkt (rsaSynthetic c ct))) id d)

/-! Elliptic curves (R273 to R276). -/

/-- Curve code of a PARAM. -/
def Packet.curve (p : Packet) : Nat := bits p.prm 3 0

/-- Digest bytes by digest hash of R274. -/
def ecDig (p : Packet) : Nat := tab [32, 48, 64, 32, 48, 64, 28] (bits p.prm 7 5)

/-- Signature bytes. -/
def ecSigLen (code : Nat) : Nat := if code = 9 then 114 else 2 * curveLen code

/-- Public-key bytes. -/
def ecPk (code : Nat) : Nat := ((typeLens (0x50 + code) 0).getD (0, 0)).2

/-- ctx of an EdDSA command (R275). -/
def edCtx (p : Packet) : Arg :=
  if p.curve = 8 && bits p.prm 5 4 = 0 then inArg .ctx 0 0
  else if bits p.prm 5 4 = 1 then inArg .ctx 1 255
  else inArg .ctx 0 255

/-- Message of an EdDSA command. -/
def edMsg (p : Packet) : Arg := if bits p.prm 5 4 = 2 then inArg .msg 64 64 else inArg .msg 0 16777216

/-- Forms of the curve opcodes (R273 to R275). -/
def ecForm (p : Packet) (o : Op) : Form :=
  let k := p.curve
  let prime := decide (k ≤ 5)
  let ed := (k == 8 || k == 9) && bits p.prm 7 6 == 0 && bits p.prm 5 4 != 3 && (k == 8 || bits p.prm 5 4 != 1)
  let sig := ecSigLen k
  let pk := onlyIf (!p.hasKey 0) [inArg .ek (ecPk k) (ecPk k)]
  match o with
  | .ecKeygen =>
    { param := (prime || (decide (8 ≤ k) && decide (k ≤ 0xB))) && bits p.prm 7 4 == 0,
      args := withOpt p [karArg] [outArg .pk (ecPk k)] }
  | .ecdsaSign =>
    { param := prime && bits p.prm 7 5 != 7, need := [0],
      args := [inArg .digest (ecDig p) (ecDig p), outArg .sig sig] }
  | .ecdsaVerify =>
    { param := prime && bits p.prm 7 5 != 7 && !bit p.prm 4, may := [0],
      args := pk ++ [inArg .digest (ecDig p) (ecDig p), inArg .sig sig sig] }
  | .eddsaSign => { param := ed, need := [0], args := [edCtx p, edMsg p, outArg .sig sig] }
  | .eddsaVerify => { param := ed, may := [0], args := pk ++ [edCtx p, edMsg p, inArg .sig sig sig] }
  | _ =>
    { param := (if o = .ecdh then prime else k == 0xA || k == 0xB) && bits p.prm 6 4 == 0, need := [0],
      args := onlyIf (!p.css) [karArg, inArg .info 0 256] ++ [inArg .peer (ecPk k) (ecPk k)]
        ++ onlyIf p.css [outArg .ss (curveLen k)] }

/-- TYPE and usage of a curve key. -/
def ecKey (c : Cmd) (e : Entry) : Bool :=
  let t := 0x50 + c.pkt.curve
  match c.op with
  | .ecdsaSign | .eddsaSign => e.fits t uSIGN true
  | .ecdsaVerify | .eddsaVerify => e.fits t uVERIFY false
  | _ => e.fits t uAGREE true

/-- Service time of a curve command (R278, R279). -/
def ecTime (c : Cmd) : Nat :=
  let k := c.pkt.curve
  let f := ecForm c.pkt c.op
  let n := if bits c.prm 5 4 = 2 then 0 else extraBlocks (f.len c.pkt .msg) 1088 (if k = 8 then 128 else 136)
  match c.op with
  | .ecKeygen => curveKeygen k
  | .ecdsaSign => curveSign k
  | .ecdsaVerify => curveVerify k
  | .eddsaSign => curveSign k + n * (if k = 8 then 1000 else 375) / 10
  | .eddsaVerify => curveVerify k + n * (if k = 8 then 5000 else 1875) / 100
  | _ => curveAgree k

/-- The opcode is an RSA one. -/
def isRsa (o : Op) : Bool :=
  o == .rsaKeygen || o == .rsaSign || o == .rsaVerify || o == .rsaEncrypt || o == .rsaDecrypt

/-- The part of a classical command. -/
def classicalPart (c : Cmd) : Part :=
  if isRsa c.op then part .classical (rsaCredits c.prm) (rsaTime c)
  else part .classical (curveCredits c.pkt.curve) (ecTime c)

/-- EC_KEYGEN. -/
def execEcKeygen (id : Nat) : State → Out :=
  execOp .ecKeygen id (fun m c d =>
    let f := ecForm c.pkt c.op
    genKey id (f.get m d c .kar) (0x50 + c.pkt.curve) 0 0 (f.put .pk) d classicalBad)

/-- ECDSA_SIGN: hedged or deterministic (R274), checked before its release (R281). -/
def execEcdsaSign (id : Nat) : State → Out :=
  execOp .ecdsaSign id (fun m c d =>
    let f := ecForm c.pkt c.op
    let k := c.pkt.curve
    let ps := [k, bits c.prm 7 5]
    let (r, d) := if bit c.prm 4 then ([], d) else draw 64 d
    let dig := f.get m d c .digest
    let sig := std .ecdsaSign (ecSigLen k) ps [c.mat 0, dig, r]
    if ecdsaOk k (ps.drop 1) (c.pub 0) dig sig then okOuts (f.put .sig sig) id d
    else invariantFail .classical id d)

/-- ECDSA_VERIFY (R280). -/
def execEcdsaVerify (id : Nat) : State → Out :=
  execOp .ecdsaVerify id (fun m c d =>
    let f := ecForm c.pkt c.op
    let k := c.pkt.curve
    let pk := if c.pkt.hasKey 0 then c.pub 0 else f.get m d c .ek
    if !c.pkt.hasKey 0 && !pubOk (0x50 + k) 0 pk then failWith .inputInvalid id d
    else
      failWith (if ecdsaOk k [bits c.prm 7 5] pk (f.get m d c .digest) (f.get m d c .sig) then .ok
        else .verifyFail) id d)

/-- EDDSA_SIGN, checked before its release (R281). -/
def execEddsaSign (id : Nat) : State → Out :=
  execOp .eddsaSign id (fun m c d =>
    let f := ecForm c.pkt c.op
    let k := c.pkt.curve
    let ps := [k, bits c.prm 5 4]
    let ctx := f.get m d c .ctx
    let msg := f.get m d c .msg
    let sig := std .eddsaSign (ecSigLen k) ps [c.mat 0, ctx, msg]
    if eddsaOk k (bits c.prm 5 4) (c.pub 0) ctx msg sig then okOuts (f.put .sig sig) id d
    else invariantFail .classical id d)

/-- EDDSA_VERIFY (R280). -/
def execEddsaVerify (id : Nat) : State → Out :=
  execOp .eddsaVerify id (fun m c d =>
    let f := ecForm c.pkt c.op
    let k := c.pkt.curve
    let pk := if c.pkt.hasKey 0 then c.pub 0 else f.get m d c .ek
    if !c.pkt.hasKey 0 && !pubOk (0x50 + k) 0 pk then failWith .inputInvalid id d
    else
      failWith (if eddsaOk k (bits c.prm 5 4) pk (f.get m d c .ctx) (f.get m d c .msg) (f.get m d c .sig) then .ok
        else .verifyFail) id d)

/-- Why the KAR of a key agreement is refused (R276). -/
def agreeKar (d : Dev) (c : Cmd) (kar : Bytes) : Option Status :=
  match karCheck d kar false with
  | some st => some st
  | none =>
    if (reqOf kar).typ != 6 then some .fieldRejected
    else if tooDeep c 0 then some .policyRefused
    else if !roomLeft d c (unitsFor 6 (reqOf kar).sub false) then some .resourceQuota
    else none

/-- ECDH and XDH (R276): Z to the output, or a child key of KEY0. -/
def agreeCmd (id : Nat) (m : Memory) (c : Cmd) (d : Dev) : Dev :=
  let f := ecForm c.pkt c.op
  let k := c.pkt.curve
  let kar := f.get m d c .kar
  let peer := f.get m d c .peer
  match if c.pkt.css then none else agreeKar d c kar with
  | some st => failWith st id d
  | none =>
    match agree k (c.mat 0) peer with
    | none => failWith .inputInvalid id d
    | some z =>
      if !Config.stdOk .ecdh [k] [c.mat 0, peer] then invariantFail .classical id d
      else
        let n := ((typeLens 6 (reqOf kar).sub).getD (0, 0)).1
        let ss := if c.pkt.css then z else kmac256 (zeros 132) (z ++ f.get m d c .info) n "KDF"
        placeSecret id f c.pkt.css true kar ss [] d

/-- ECDH. -/
def execEcdh (id : Nat) : State → Out := execOp .ecdh id (agreeCmd id)

/-- XDH. -/
def execXdh (id : Nat) : State → Out := execOp .xdh id (agreeCmd id)

/-- A DRBG is needed at dispatch (R262, R270): blinding of a private-key operation, or random padding. -/
def classicalDrbg (o : Op) : Bool := o != .rsaVerify && o != .ecdsaVerify && o != .eddsaVerify

end Sys2Proof.Machine
end

