-- ==== Sys2Proof/Machine/LedgerCmds.lean ====
section
/-!
DEFINITION. The key opcodes of the ledger (R157 to R170 [05]).
-/
namespace Sys2Proof.Machine

/-- Size class in a PARAM (R157). -/
def Packet.cls (p : Packet) : Nat := bits p.prm 3 0

/-- Forms of the key opcodes (R158). -/
def keyForm (p : Packet) (o : Op) : Form :=
  let ok := decide (p.cls ≤ 5)
  let b := blobLen p.cls
  let r := recordLen p.cls
  match o with
  | .keyGenerate => { param := p.prm == 0, args := [karArg] }
  | .keyImportBlob =>
    let n := if bit p.prm 7 then r else b
    { param := ok && bits p.prm 6 4 == 0, args := [karArg, inArg .blob n n] }
  | .keyExportBlob => { param := ok && bits p.prm 7 4 == 0, need := [0], args := [outArg .blob b] }
  | .keyDestroy => { param := p.prm == 0, need := [0] }
  | .keyReplace =>
    { param := ok && bits p.prm 5 4 == 0 && !bit p.prm 7 && (p.ndesc != 0 || p.cls == 0), need := [0],
      args := withOpt p [] [inArg .blob b b] }
  | .keyRevoke => { param := decide (p.prm ≤ 1), need := [0] }
  | .keyDerive =>
    { param := decide (1 ≤ p.prm) && decide (p.prm ≤ 3), need := [0], args := [karArg, inArg .context 0 256] }
  | .keyAttrGet => { param := p.prm == 0, need := [0], args := [outArg .attr 64] }
  | .keyRestrict => { param := p.prm == 0, need := [0], args := [inArg .restr 24 24] }
  | .keyWrap => { param := ok && bits p.prm 7 4 == 0, need := [0, 1], args := [outArg .blob b] }
  | .keyUnwrap => { param := ok && bits p.prm 7 4 == 0, need := [0], args := [karArg, inArg .blob b b] }
  | _ => { param := ok && bits p.prm 7 4 == 0, need := [0], args := [outArg .blob r] }

/-- TYPE, usage and size of the keys of the key opcodes (check 3 of R27 [01], R157, R158, R160). -/
def keyOpKey (c : Cmd) (i : Nat) (e : Entry) : Bool :=
  let area := classArea c.pkt.cls
  match c.op with
  | .keyExportBlob => e.may uEXPORTBLOB && decide (e.matLen ≤ area)
  | .keyDerive =>
    e.may uDERIVE && (match c.prm with
      | 1 => e.typ == 3 || e.typ == 6
      | 2 => decide (1 ≤ e.typ) && decide (e.typ ≤ 3)
      | _ => e.typ == 6 && e.subtype % 16 == 1)
  | .keyWrap =>
    if i = 0 then e.typ == 3 && e.may uWRAP else e.may uEXPORTWRAPPED && decide (e.matLen ≤ area)
  | .keyUnwrap => e.typ == 3 && e.may uUNWRAP
  | .keyPublicGet => isAsym e.typ && decide (e.pub.length ≤ area)
  | _ => true

/-! Engine work. -/

/-- ns of a serial block of a symmetric algorithm on a Satin lane (R302 [10]). -/
def blockNs (alg : Nat) : Nat := tab [14, 14, 16, 18, 18, 18] alg

/-- The check of a symmetric or payment key: its KCV and a known-answer round trip (R156, R159). -/
def symPart (t s draws : Nat) : Part :=
  if baseAlg t s = 6 then part .hash 1 (300 + 8 * hashBlk (s % 16) / 5)
  else lanePart 0 4 (blockNs (baseAlg t s)) draws

/-- The verification of material of a TYPE takes its key generation time (R229 [07], R254 [08], R278 [09]). -/
def typePart (o t s draws : Nat) : Part :=
  if !isAsym t then symPart t s draws
  else if t ≤ 0x19 then part .lattice 1 (latKeygen o t)
  else if t ≤ 0x2B then slhKeygenPart (t - 0x20)
  else if isTree t then part .hash 32 (((treeSet t s).map (treeKeygenTime t)).getD 0)
  else if t ≤ 0x3A then part .code 1 (tab [10000, 22000, 40000] (t - 0x38))
  else if isMce t then part .code 1 (mceKeygenTime (t - 0x3C) 1 false)
  else if t = 0x48 then part .classical (rsaCredits s) (rsaFixed s)
  else part .classical (curveCredits (t - 0x50)) (curveKeygen (t - 0x50))

/-- Two parts; of one class, one lane does both. -/
def bothParts (a b : Part) : List Part :=
  if a.cls = b.cls then [{ cls := a.cls, credits := max a.credits b.credits, hold := a.hold + b.hold,
                           charge := a.charge + b.charge }]
  else [a, b]

/-- Parts of a key opcode; those without are Linen's (R158). -/
def keyParts (d : Dev) (c : Cmd) : List Part :=
  let o := orderOf d c
  let r := reqOf (c.early 0)
  let area := classArea c.pkt.cls
  let ty (t s : Nat) : List Part :=
    if (typeLens t s).isSome then bothParts (sealPart area c.draws) (typePart o t s c.draws)
    else [sealPart area c.draws]
  match c.op with
  | .keyGenerate =>
    if (typeLens r.typ r.sub).isSome && !isAsym r.typ then [symPart r.typ r.sub c.draws]
    else [lanePart 0 0 0 0]
  | .keyImportBlob | .keyUnwrap => ty r.typ r.sub
  | .keyExportBlob | .keyWrap => [sealPart area c.draws]
  | .keyReplace =>
    let s := ((c.key 0).map (·.subtype)).getD 0
    if c.pkt.ndesc = 0 then bothParts (lanePart 0 0 0 0) (typePart o (c.typ 0) s c.draws) else ty (c.typ 0) s
  | .keyDerive =>
    let n := ((typeLens r.typ r.sub).getD (0, 0)).1
    let x := 12 + c.pkt.dlen 1
    match c.prm with
    | 1 => [part .hash 1 (150 + (cdiv (x + 5) 136 + 2) * 136 * 4 / 15)]
    | 2 => [lanePart 0 (cdiv n 16 * (1 + cdiv (x + 4) 16)) (blockNs (c.typ 0)) c.draws]
    | _ => [part .hash 1 (150 + cdiv n 32 * (cdiv (x + 77) 64 + 2) * 64 / 5)]
  | _ => []

/-! Executions. What a key opcode refuses for its KAR, its key or its room, it refuses before its dispatch where its KAR
has been read, and so without engine time (R152). -/

/-- Why KEY_GENERATE is refused (R152, R158). -/
def generateRefusal (d : Dev) (c : Cmd) (kar : Bytes) : Option Status :=
  let r := reqOf kar
  match karCheck d kar false with
  | some st => some st
  | none =>
    if isAsym r.typ then some .fieldRejected
    else if !roomLeft d c (unitsFor r.typ r.sub false) then some .resourceQuota
    else none

/-- KEY_GENERATE (R158). -/
def execKeyGenerate (id : Nat) : State → Out :=
  execOp .keyGenerate id (fun m c d =>
    let kar := inp m d c 0
    let r := reqOf kar
    match generateRefusal d c kar with
    | some st => failWith st id d
    | none =>
      let (mat, d) := newMaterial c r.typ r.sub d
      makeKey id (entryOf r mat [] false) true 0 [] d)

/-- Some entry holds this public key (R234 [07]). -/
def pubHeld (d : Dev) (pub : Bytes) : Bool := d.led.entries.any (fun e => e.2.st != .free && e.2.pub == pub)

/-- The one-time index state an imported key starts from (R233 [07]). -/
def withCeiling (w : Nat) (e : Entry) : Entry :=
  match treeSet e.typ e.subtype with
  | some t =>
    if e.has fStateful then
      { e with next := ceilingOf w, ceiling := ceilingOf w, treeTo := treeOf t (ceilingOf w) + 1 }
    else e
  | none => e

/-- Large-key units that an import asks for: those of a public key where it is a clear record or its header, once read,
says so; before that, the fewer of both. -/
def importUnits (c : Cmd) (r : Req) : Nat :=
  let pub := unitsFor r.typ r.sub true
  let pair := unitsFor r.typ r.sub false
  if c.op = .keyImportBlob && bit c.prm 7 then pub
  else if (c.early 1).isEmpty then min pub pair
  else if bit (field (c.early 1) 5 1) 3 then pub else pair

/-- Why KEY_IMPORT_BLOB and KEY_UNWRAP are refused before their blob is looked at (R160; check 1 of R169). -/
def importRefusal (d : Dev) (c : Cmd) (kar : Bytes) : Option Status :=
  if c.op = .keyUnwrap && tooDeep c 0 then some .policyRefused
  else if !roomLeft d c (importUnits c (reqOf kar)) then some .resourceQuota
  else none

/-- A McEliece import or replacement whose pivot record c is that of the f form takes the time of that form (R254 [08]);
c is bytes 32 to 39 of the private key, and 2^32 − 1 in the other form (PRESUMED: the encoding of the standard, log 57). -/
def noteForm (id typ : Nat) (mat : Bytes) (d : Dev) : Dev :=
  match findCmd d id with
  | none => d
  | some c =>
    if isMce typ && leNat (seg mat 32 8) != 2 ^ 32 - 1 then
      let x := mceKeygenTime (typ - 0x3C) 1 true - mceKeygenTime (typ - 0x3C) 1 false
      let longer (h : UnitHold) : UnitHold := if h.cls == .code then { h with till := h.till + x } else h
      setCmd { c with endAt := c.endAt + x, units := c.units.map longer }
        (d.modSlice c.slice (fun s => { s with
          deficit := tset s.deficit (classNo .code) (tget 0 s.deficit (classNo .code) - (x : Int)) }))
    else d

/-- Checks 1 to 9 of R169 in order, and the entry made. -/
def importBlob (id version : Nat) (key : Bytes) (child : Entry → Entry) (m : Memory) (c : Cmd) (d : Dev) : Dev :=
  let kar := inp m d c 0
  let blob := inp m d c 1
  let r := reqOf kar
  let h := hdrOf blob
  let pubOnly := version == 3 || bit h.flags 3
  if !roomLeft d c (unitsFor r.typ r.sub pubOnly) then failWith .resourceQuota id d
  else
    match openBlob d c.slice version c.pkt.cls key blob with
    | none => failWith .keyBlobInvalid id d
    | some o =>
      if r.typ != h.typ || r.sub != h.sub || anyBit r.usage (2 ^ 32 - 1 - h.usage)
        || r.flags.getLsbD 0 != bit h.flags 0 then failWith .keyBlobInvalid id d
      else
        match karCheck d kar pubOnly with
        | some st => failWith st id d
        | none =>
          if version = 3 && !pubOk h.typ h.sub o.pub then failWith .inputInvalid id d
          else if isTree h.typ && !pubOnly && pubHeld d o.pub then failWith .policyRefused id d
          else
            makeKey id (child (withCeiling h.stateWord (entryOf r o.mat o.pub pubOnly))) o.verified 0 []
              (if pubOnly then d else noteForm id h.typ o.mat d)

/-- KEY_IMPORT_BLOB (R169). -/
def execKeyImportBlob (id : Nat) : State → Out :=
  execOp .keyImportBlob id (fun m c d =>
    importBlob id (if bit c.prm 7 then 3 else 1) (masterOf d c.slice) (fun e => e) m c d)

/-- KEY_UNWRAP (R168, R169): the new key is a child of KEY0. -/
def execKeyUnwrap (id : Nat) : State → Out :=
  execOp .keyUnwrap id (fun m c d =>
    if tooDeep c 0 then failWith .policyRefused id d
    else importBlob id 2 (c.mat 0) (childOf c 0) m c d)

/-- The entry as resolved, with its one-time index state as it is now (R29 [01], R233 [07]). -/
def nowEntry (d : Dev) (c : Cmd) (i : Nat) : Option Entry :=
  (c.keys.find? (fun k => k.field == i)).map (fun k =>
    let e := d.ent k.idx
    if k.ent.has fStateful then { k.ent with next := e.next, ceiling := e.ceiling, pend := e.pend } else k.ent)

/-- KEY_EXPORT_BLOB (R167, R168). -/
def execKeyExportBlob (id : Nat) : State → Out :=
  execOp .keyExportBlob id (fun _ c d =>
    match nowEntry d c 0 with
    | some e => okOuts [(0, sliceBlob d e c.pkt.cls)] id d
    | none => d)

/-- KEY_WRAP (R168). -/
def execKeyWrap (id : Nat) : State → Out :=
  execOp .keyWrap id (fun _ c d =>
    match nowEntry d c 1 with
    | some e => okOuts [(0, sealEntry d e 2 c.pkt.cls (c.mat 0))] id d
    | none => d)

/-- KEY_PUBLIC_GET (R167); a companion that fails its tag is not used (R257 [08]). -/
def execKeyPublicGet (id : Nat) : State → Out :=
  execOp .keyPublicGet id (fun _ c d =>
    match c.key 0 with
    | some e =>
      if companionFails d c then failWith .faultDetected id d
      else okOuts [(0, publicRecord d e c.pkt.cls)] id d
    | none => d)

/-- A management command on the entry it resolved, as that is now (R155, R177); the reference it holds keeps the index
from a new occupant. On a MIRRORED one it is refused (R174). -/
def onEntry (id : Nat) (c : Cmd) (d : Dev) (f : Nat → Entry → Dev) : Dev :=
  match c.keys.head? with
  | none => d
  | some k => if (d.ent k.idx).has fMirrored then failWith .policyRefused id d else f k.idx (d.ent k.idx)

/-- KEY_DESTROY (R163, R164). An entry that an earlier command or a cascade has set DRAINING since the handle was
resolved stays so, and the command completes (R29 [01], R164). -/
def execKeyDestroy (id : Nat) : State → Out :=
  execOp .keyDestroy id (fun _ c d =>
    onEntry id c d (fun i _ => failWith .ok id (drainEnt i (dropShadow i d))))

/-- KEY_REVOKE (R163 to R165): RESULT counts the entries set DRAINING. -/
def execKeyRevoke (id : Nat) : State → Out :=
  execOp .keyRevoke id (fun _ c d =>
    onEntry id c d (fun i _ =>
      let own := b2n ((d.ent i).st == .active)
      let d := drainEnt i (dropShadow i d)
      let (n, d) := if bit c.prm 0 then cascade i d else (0, d)
      outcomeIs { status := .ok, outs := [], result := leBytes 4 (n + own) } id d))

/-- KEY_ATTR_GET (R145). -/
def execKeyAttrGet (id : Nat) : State → Out :=
  execOp .keyAttrGet id (fun _ c d =>
    match c.keys.head? with
    | some k => okOuts [(0, attrRecord d k.idx)] id d
    | none => d)

/-- KEY_RESTRICT (R161). -/
def execKeyRestrict (id : Nat) : State → Out :=
  execOp .keyRestrict id (fun m c d =>
    let b := inp m d c 0
    let usage := field b 0 4
    let limit := field b 4 4
    let exp := field b 8 8
    onEntry id c d (fun i e =>
      if anyBit usage (2 ^ 32 - 1 - e.usage) || field b 16 8 != 0
        || (limit != 0 && ((e.useLimit != 0 && decide (limit > e.useLimit))
            || anyBit usage (maskOf [12, 13, 14])))
        || (exp != 0 && e.expiry != 0 && decide (exp > e.expiry)) then failWith .fieldRejected id d
      else
        failWith .ok id (setEnt i { e with usage := usage,
                                           useLimit := if limit = 0 then e.useLimit else limit,
                                           expiry := if exp = 0 then e.expiry else exp } d)))

/-- The fixed input data of a derivation (R160). -/
def fixedInput (r : Req) (ctx : Bytes) (n : Nat) : Bytes :=
  leBytes 1 r.typ ++ leBytes 1 r.sub ++ leBytes 4 r.usage ++ [0] ++ ctx ++ beBytes 4 (8 * n)

/-- Counter mode of SP 800-108: `blocks` blocks of a PRF. -/
def counterMode (prf : Bytes → Bytes) (x : Bytes) (blocks : Nat) : Bytes :=
  (List.range blocks).flatMap (fun i => prf (beBytes 4 (i + 1) ++ x))

/-- Why KEY_DERIVE is refused (R152, R160). -/
def deriveRefusal (d : Dev) (c : Cmd) (kar : Bytes) : Option Status :=
  let r := reqOf kar
  let may (u : Nat) : Bool := !bit r.usage u || ((c.key 0).map (fun e => e.may u)).getD false
  match karCheck d kar false with
  | some st => some st
  | none =>
    if r.typ > 6 || !may uEXPORTBLOB || !may uEXPORTWRAPPED then some .fieldRejected
    else if tooDeep c 0 then some .policyRefused
    else if !roomLeft d c (unitsFor r.typ r.sub false) then some .resourceQuota
    else none

/-- KEY_DERIVE (R160). -/
def execKeyDerive (id : Nat) : State → Out :=
  execOp .keyDerive id (fun m c d =>
    let kar := inp m d c 0
    let r := reqOf kar
    let n := ((typeLens r.typ r.sub).getD (0, 0)).1
    let k := c.mat 0
    match deriveRefusal d c kar with
    | some st => failWith st id d
    | none =>
        let x := fixedInput r (inp m d c 1) n
        let mat := match c.prm with
          | 1 => kmac256 k x n "KDF"
          | 2 => (counterMode (fun y => std .cmac 16 [] [k, y]) x (cdiv n 16)).take n
          | _ => (counterMode (fun y => std .hmac 32 [1] [k, y]) x (cdiv n 32)).take n
        makeKey id (childOf c 0 (entryOf r mat [] false)) true 0 [] d)

/-- The shadow of index `i` becomes PENDING with new material (step 1 of R162); `ok` is its verification (step 2). -/
def makeShadow (id i : Nat) (mat pub : Bytes) (ok : Bool) (d : Dev) : Dev :=
  match findCmd d id with
  | none => d
  | some c =>
    let e := d.ent i
    let n := { e with material := mat, pub := pub, kcv := kcvOf e.typ e.subtype mat pub, matLen := mat.length,
                      shadow := none, parent := 0, useCount := 0 }
    match allocEnt c.slice n d with
    | none => failWith .resourceQuota id d
    | some (j, d) =>
      outcomeIs (if ok then { status := .ok, outs := [], result := keyResult (handleOf i e.gen) n.kcv 0 }
          else bare .keyCheckFail) id
        (setCmd { c with entry := some j }
          (modEnt i (fun e => { e with shadow := some j, flags := e.flags ||| fShadowPending }) d))

/-- Why KEY_REPLACE is refused before a shadow is made (R163, R174; R258 [08]). -/
def replaceRefusal (d : Dev) (c : Cmd) (e : Entry) : Option Status :=
  if e.has fMirrored || e.has fStateful || e.shadow.isSome || (c.pkt.ndesc == 0 && e.has fPublicOnly) then
    some .policyRefused
  else if !roomFor d c.slice e.units then some .resourceQuota
  else none

/-- KEY_REPLACE (R162, R163): the shadow is made and verified; ENGINE_JOB_END swaps it in, or leaves it waiting
when DEFERRED. -/
def execKeyReplace (id : Nat) : State → Out :=
  execOp .keyReplace id (fun m c d =>
    onEntry id c d (fun i e =>
      let pubOnly := e.has fPublicOnly
      let blob := inp m d c 0
      match replaceRefusal d c e with
      | some st => failWith st id d
      | none =>
      if c.pkt.ndesc = 0 then
        let (mat, d) := newMaterial c e.typ e.subtype d
        let pub := pubOfMat e.typ e.subtype mat
        makeShadow id i mat pub (pairOk e.typ e.subtype e.usage mat pub) d
      else
        match openBlob d c.slice 1 c.pkt.cls (masterOf d c.slice) blob with
        | none => failWith .keyBlobInvalid id d
        | some o =>
          if o.hdr.typ != e.typ || o.hdr.sub != e.subtype || bit o.hdr.flags 3 != pubOnly then
            failWith .keyBlobInvalid id d
          else makeShadow id i o.mat o.pub o.verified (if pubOnly then d else noteForm id e.typ o.mat d)))

end Sys2Proof.Machine
end

