-- ==== Sys2Proof/Machine/Identity.lean ====
section
/-!
DEFINITION. Device identity and custody keys (R374, R375 [13]), signatures of the identity, and hybrid sealing to
a public key (R201, R202 [06]).
-/
namespace Sys2Proof.Machine

/-- Identity seed of the seed slot in use (R367, R369 [13]). -/
def idSeed (d : Dev) : Bytes := d.otp.seedPair.take 32

/-- Identity ML-DSA-87 key pair and public key (R374). -/
def idMat (d : Dev) : Bytes := std .mldsaKeygen 7488 [0x16, 0] [kmac256 (idSeed d) [] 32 "ORNATH-ID-MLDSA"]
def idPub (d : Dev) : Bytes := pubOfMat 0x16 0 (idMat d)

/-- Order of the P-384 group, the n of R374 (log 11). -/
def p384n : Nat :=
  0xFFFFFFFFFFFFFFFFFFFFFFFFFFFFFFFFFFFFFFFFFFFFFFFFC7634D81F4372DDF581A0DB248B0A77AECEC196ACCC52973

/-- Identity ECDSA P-384 private key and public point (R374). -/
def idEc (d : Dev) : Bytes := beBytes 48 (1 + beNat (kmac256 (idSeed d) [] 64 "ORNATH-ID-ECDSA") % (p384n - 1))
def idEcPub (d : Dev) : Bytes := std .pubOf 97 [0x51, 0] [idEc d]

/-- Identity digest (R373). -/
def idDigest (d : Dev) : Bytes := sha3_256 (idPub d)

/-- The string ML-DSA signs in pure mode with an empty context (R195 [06]). -/
def pureStr (msg : Bytes) : Bytes := [0, 0] ++ msg

/-- ML-DSA verification in pure mode with an empty context; `set` 1 is ML-DSA-65, 2 ML-DSA-87. -/
def dsaOk (set : Nat) (pk msg sig : Bytes) : Bool := latVerifyOk (0x14 + set) false pk (pureStr msg) sig

/-- ECDSA P-384 with SHA-384, r ‖ s. -/
def sha384 (b : Bytes) : Bytes := std .sha 48 [2] [b]
def ecOk (pk msg sig : Bytes) : Bool := Config.stdOk .ecdsaVerify [1, 1] [pk, sha384 msg, sig]

/-- Both identity signatures: ML-DSA-87 (4,627 bytes) and ECDSA (96 bytes). -/
def idSign (msg : Bytes) (d : Dev) : Bytes × Bytes × Dev :=
  let (r, d) := draw 32 d
  let (k, d) := draw 64 d
  (latSignBytes 0x16 false (idMat d) (pureStr msg) r, std .ecdsaSign 96 [1, 1] [idEc d, sha384 msg, k], d)

/-- Transport key of a slice master key (R375): ML-KEM-1024 material, X25519 private key, both public keys. -/
def tkMat (mk : Bytes) : Bytes := std .mlkemKeygen 3168 [0x12, 0] [kmac256 mk [] 64 "ORNATH-TKEY-KEM"]
def tkPub (mk : Bytes) : Bytes := pubOfMat 0x12 0 (tkMat mk)
def tkX (mk : Bytes) : Bytes := kmac256 mk [] 32 "ORNATH-TKEY-X"
def tkXPub (mk : Bytes) : Bytes := std .pubOf 32 [0x5A, 0] [tkX mk]

/-- Audit key pair of its seed (R375): ML-DSA-65. -/
def auditMat (seed : Bytes) : Bytes := std .mldsaKeygen 5984 [0x15, 0] [seed]
def auditPub (seed : Bytes) : Bytes := pubOfMat 0x15 0 (auditMat seed)

/-- A hybrid encapsulation of combination `x` to two public keys: ciphertext and combined secret; none when the
classical key is refused. -/
def hybSeal (x : Nat) (ek xpk : Bytes) (d : Dev) : Option (Bytes × Bytes × Dev) :=
  let (k, hc, n) := hybrid x
  let (e, d) := draw (curveLen hc) d
  match agree hc e xpk with
  | none => none
  | some z =>
    let (ct, ss, d) := kemEncaps k ek d
    let cc := std .pubOf n [0x50 + hc, 0] [e]
    some (ct ++ cc, hybridSecret x ss z ct cc, d)

/-- Its decapsulation. -/
def hybOpen (x : Nat) (mat priv ct : Bytes) : Option Bytes :=
  let (k, hc, _) := hybrid x
  let cq := ct.take (kemCt k)
  let cc := ct.drop (kemCt k)
  (agree hc priv cc).map (fun z => hybridSecret x (kemDecaps k mat cq) z cq cc)

/-- AES-256 KW and KWP of a key, and their opening; `n` is the length of what is wrapped. -/
def kwWrap (kek x : Bytes) (len : Nat) : Bytes := std .keyWrap len [0, x.length] [kek, x]
def kwOpen (kek w : Bytes) (n : Nat) : Option Bytes :=
  if Config.stdOk .keyWrap [n] [kek, w] then some (std .keyWrap n [1, n] [kek, w]) else none

end Sys2Proof.Machine
end

