-- ==== Sys2Proof/Machine/Ring.lean ====
section
/-!
DEFINITION. The Zenari Ring: positions, ports, flits, membership; device time, TSYNC and the time master; binding
(R337 to R343, R351 to R356, R506 [12]).
-/
namespace Sys2Proof.Machine

/-- Codes of MEMBER, LINK and LOCK (R354, R355, R338). -/
def memberCode : Member → Nat
  | .unbound => 0
  | .linkDown => 1
  | .timeLocking => 2
  | .resync => 3
  | .inSync => 4
  | .isolated => 5

def linkCode : LinkSt → Nat
  | .down => 0
  | .training => 1
  | .upUnbound => 2
  | .up => 3

def lockCode : Lock → Nat
  | .unlocked => 0
  | .follower => 1
  | .master => 2

/-- What this device reports of itself (R506). -/
def ownReport (d : Dev) : RingReport :=
  { pos := d.pos, member := memberCode d.board.member, link0 := linkCode (d.port 0).link,
    link1 := linkCode (d.port 1).link, lock := lockCode d.board.lock, msn := d.board.lastMsn }

/-- The link state of a position on one side, as this device knows it; one not heard is taken to be up. -/
def linkAt (d : Dev) (p way : Nat) : Nat :=
  if p = d.pos then linkCode (d.port way).link
  else
    match tfind d.board.heard p with
    | some r => if way = 0 then r.link0 else r.link1
    | none => 3

/-- No hop from position `p` to `to` is known to be broken, going round by ports `way` (R351). -/
def pathUp (d : Dev) (way dest : Nat) : Nat → Nat → Bool
  | 0, _ => false
  | n + 1, p =>
    p == dest || (linkAt d p way == 3
      && pathUp d way dest n (if way = 0 then (p + 1) % d.count else (p + d.count - 1) % d.count))

/-- The mirror sequencer, which is the time master, is in reach (R354, R358). -/
def reach (d : Dev) : Bool :=
  pathUp d 0 d.board.masterPos d.count d.pos || pathUp d 1 d.board.masterPos d.count d.pos

/-- The membership state that follows from the key, the ports and the lock (R354, R355). -/
def nextMember (d : Dev) : Member :=
  if !d.bound then .unbound
  else if (d.port 0).link != .up && (d.port 1).link != .up then .linkDown
  else if d.board.lock == .unlocked then .timeLocking
  else if d.board.lock == .master then .inSync
  else
    match d.board.member with
    | .inSync => if reach d then .inSync else .isolated
    | .isolated => if reach d then .resync else .isolated
    | _ => .resync

/-- A device in RESYNC asks a serving neighbour for what follows its MIRROR_LAST_MSN, on the port whose
neighbour it sees serving, or on the first that is UP (R355). -/
def askResync (d : Dev) : Dev :=
  let n0 := (d.pos + 1) % d.count
  let p := if (d.port 0).link == .up && (d.board.serving.getLsbD n0 || (d.port 1).link != .up) then 0 else 1
  sendOn p false (.resyncFlit p d.board.lastMsn) d

/-- MEMBER set; a change raises vector 448, changes SERVING's own bit and is reported to the ring. -/
def setMember (m : Member) (d : Dev) : Dev :=
  if d.board.member = m then d
  else
    let bit := 1#8 <<< d.pos
    let d := { d with board := { d.board with
      member := m,
      serving := if m == .inSync then d.board.serving ||| bit else d.board.serving &&& ~~~bit } }
    let d := raisePf0 448 d
    let d := sendBoth true (fun p => .linkFlit p (ownReport d)) d
    if m == .resync then askResync d else d

/-- Membership follows what has changed. -/
def updateMember (d : Dev) : Dev := setMember (nextMember d) d

/-- A spilled command to be run here after all: it is ready again and is not spilled twice (R361, R362). -/
def runLocally (id : Nat) (d : Dev) : Dev :=
  let d := { d with board := { d.board with spillOut := d.board.spillOut.filter (·.cmd != id) } }
  match findCmd d id with
  | some c => if c.stage == .spilled then setCmd { c with stage := .ready, noSpill := true } d else d
  | none => d

/-- A port's LINK changes: vector 449; commands spilled over a port that fails run here (R362). -/
def setLink (p : Nat) (l : LinkSt) (lanes : Nat) (d : Dev) : Dev :=
  let was := (d.port p).link
  let d := modPort p (fun x => { x with link := l, lanes := lanes }) d
  let d := if was != l then raisePf0 449 d else d
  let lost := if was == .up && l != .up then (d.board.spillOut.filter (·.port == p)).map (·.cmd) else []
  let d := forEach lost (fun id d => raisePf0 452 (runLocally id d)) d
  updateMember d

/-- Vector 26 of Linen for a custody flit (R449 [16]): a flit that carries or asks for keys, which are the mirror, the
resync and the bind flits (the manual names no types; DESIGN CHOICE, log 67). -/
def custodyPend (typ : Nat) (d : Dev) : Dev := if typ = 3 || typ = 7 || typ = 8 then linenPend 26 d else d

/-- A flit received on a port: one that fails its tag or its sequence is discarded and the port retrains; one
of a reserved type is discarded; one for another position is passed on (R352). `f` is what it does here. -/
def flitIn (port : Fin 2) (h : FlitHdr) (typ : Nat) (f : Dev → Dev) (d : Dev) : Dev :=
  let x := d.port port
  let drop (d : Dev) := modPort port (fun x => { x with flitErr := min 65535 (x.flitErr + 1) }) d
  if !d.powered || !d.link.started then d
  else if x.link == .up || x.link == .upUnbound then
    if (x.link == .up && !h.tagOk) || h.linkSeq != x.rxSeq + 1 then setLink port .training 0 (drop d)
    else
      let d := modPort port (fun x => { x with rxSeq := h.linkSeq }) d
      if h.typ < 1 || 10 < h.typ || (x.link == .upUnbound && h.typ != 8 && h.typ != 10) then drop d
      else
        let other := 1 - port.val
        let d := if h.dst != d.pos && h.src != d.pos && h.hops != 0 then
            sendOn other (h.typ == 8 || h.typ == 10) (.forwardFlit other { h with hops := h.hops - 1 }) d
          else d
        if h.typ = typ && h.src != d.pos && (h.dst = d.pos || h.dst = 0xFF) then f (custodyPend typ d) else d
  else d

/-- LINK_CONTROL_FLIT (R352): what positions report of themselves; SERVING and reach follow. -/
def execLinkControlFlit (port : Fin 2) (h : FlitHdr) (reports : List RingReport) : State → Out :=
  onDev (flitIn port h 10 (fun d =>
    let put (b : Board) (r : RingReport) : Board :=
      { b with heard := tset b.heard r.pos r,
               serving := if r.member = 4 then b.serving ||| (1#8 <<< r.pos) else b.serving &&& ~~~(1#8 <<< r.pos) }
    let b := (reports.filter (fun r => r.pos != d.pos && decide (r.pos < 8))).foldl put d.board
    let d1 := if b.serving != d.board.serving then raisePf0 448 d else d
    updateMember { d1 with board := b }))

/-- PORT_TRAINED (R351, R352): the port's keys are derived afresh, and its sequence numbers restart. -/
def execPortTrained (port : Fin 2) (lanes4 : Bool) (nonces : Bytes) : State → Out :=
  onDev (fun d =>
    if !d.powered || !d.link.started || d.link.domainsOff.contains (27 + port.val) then d
    else
      let n := fit 32 nonces
      let q := neighbour d port
      let tx := if d.bound then linkKey d d.pos port q n else []
      let rx := if d.bound then linkKey d q (1 - port.val) d.pos n else []
      let d := modPort port (fun x => { x with rxSeq := 0, txSeq := 0, nonces := n, txKey := tx, rxKey := rx }) d
      let d := setLink port (if d.bound then .up else .upUnbound) (if lanes4 then 4 else 2) d
      sendOn port true (.linkFlit port (ownReport d)) d)

/-- PORT_DOWN (R351). -/
def execPortDown (port : Fin 2) : State → Out :=
  onDev (fun d => if !d.powered then d else setLink port .down 0 d)

/-- RING_STATUS (R506). -/
def execRingStatus (id : Nat) : State → Out :=
  execOp .ringStatus id (fun _ _ d =>
    let bytes (r : RingReport) : Bytes :=
      leBytes 1 r.member ++ leBytes 1 r.link0 ++ leBytes 1 r.link1 ++ leBytes 1 r.lock ++ zeros 4 ++ leBytes 8 r.msn
    let one (p : Nat) : Bytes :=
      if p = d.pos then bytes (ownReport d)
      else if d.bound && decide (p < d.count) then
        match tfind d.board.heard p with
        | some r => bytes r
        | none => zeros 16
      else zeros 16
    okOuts [(0, (List.range 8).flatMap one)] id d)

/-! Time (R337 to R343). -/

/-- LOCK falls to 0b00: vector 385 (R340). -/
def unlock (d : Dev) : Dev :=
  updateMember (raisePf0 385 { d with board := { d.board with lock := .unlocked, slew := 0 } })

/-- Time is locked at a count of `t`: entries whose tick has passed are overdue (R347). The highest mirror
sequence number the device holds, and its commit tick, are where it would sequence from (R364). -/
def lockTime (l : Lock) (master t : Nat) (d : Dev) : Dev :=
  let late (e : Nat × ActionEntry) : Nat × ActionEntry :=
    (e.1, if e.2.live && decide (e.2.tick < t) then { e.2 with late := true } else e.2)
  let d := if d.board.masterPos != master then raisePf0 386 d else d
  let held := d.board.actions.filter (fun e => e.2.live && e.2.action == 7)
  updateMember { d with
    devTime := t
    board := { d.board with
      lock := l, masterPos := master, error := 0, lost := 0, slew := 0, lostAt := none,
      followed := l == .follower, actions := d.board.actions.map late,
      seqMsn := (held.map (·.2.msn)).foldl max d.board.lastMsn,
      seqTick := (held.map (·.2.tick)).foldl max 0 } }

/-- TSYNC_DRIVE (R339): the master of a board drives an edge at every multiple of 1,000,000 ticks. -/
def execTsyncDrive : State → Out :=
  onDev (fun d =>
    let t := d.devTime / 1000000 * 1000000
    if d.powered && d.link.started && d.bound && d.board.lock == .master && decide (d.board.sentEdge < t) then
      emit (.tsyncEdge t) { d with board := { d.board with sentEdge := t, silentFrom := d.clk } }
    else d)

/-- TIME_MSG_SEND (R339): every 250 µs, with the tick of the most recent edge. -/
def execTimeMsgSend : State → Out :=
  onDev (fun d =>
    let t := d.devTime / 250000 * 250000
    if d.powered && d.link.started && d.bound && d.board.lock == .master && d.board.sentEdge != 0
      && decide (d.board.sentMsg < t) then
      sendBoth false (fun p => .timeFlit p d.board.sentEdge) { d with board := { d.board with sentMsg := t } }
    else d)

/-- TSYNC_EDGE (R339, R340): `err` is the phase error of the edge in 0.125 ns. -/
def execTsyncEdge (err : Int) : State → Out :=
  onDev (fun d =>
    if !d.powered || !d.link.started || !d.bound || d.board.lock == .master then d
    else
      let d := { d with board := { d.board with silentFrom := d.clk, lost := 0, lostAt := none } }
      if d.board.lock == .follower then
        let d := { d with board := { d.board with error := err, slew := err } }
        if err > 160 || err < -160 then unlock d else d
      else d)

/-- TSYNC_EDGE_MISSING (R340, R341): the third one in a row unlocks a follower, whose wait of p ms begins. -/
def execTsyncEdgeMissing : State → Out :=
  onDev (fun d =>
    let b := d.board
    if !d.powered || !d.link.started || !d.bound || b.lock == .master || !b.followed
      || d.clk < b.silentFrom + 1000000 * (b.lost + 1) then d
    else
      let d := { d with board := { b with lost := min 255 (b.lost + 1) } }
      if b.lock == .follower && b.lost + 1 = 3 then
        unlock { d with board := { d.board with lostAt := some d.clk } }
      else d)

/-- TIME_FLIT (R340): `sinceEdge` is the time in ns since this device received the edge the message names. A
follower that is not locked steps its count once and locks. -/
def execTimeFlit (port : Fin 2) (h : FlitHdr) (edgeTick : Nat) (sinceEdge : Nat) : State → Out :=
  onDev (flitIn port h 1 (fun d =>
    if !d.bound then d
    else
      match d.board.lock with
      | .master => d
      | .unlocked => lockTime .follower h.src (edgeTick + d.board.delay.toNat / 8 + sinceEdge) d
      | .follower =>
        if d.board.masterPos = h.src then d
        else updateMember (raisePf0 386 { d with board := { d.board with masterPos := h.src } })))

/-- MASTER_STARTUP_SILENCE (R341): the device at the manifest's MASTER position, once the net has been silent
for 3 ms. -/
def execMasterStartupSilence : State → Out :=
  onDev (fun d =>
    if d.powered && d.link.started && d.bound && d.board.lock == .unlocked && !d.board.followed
      && d.pos == d.firstMaster && decide (d.board.silentFrom + 3000000 ≤ d.clk) then
      lockTime .master d.pos d.devTime d
    else d)

/-- MASTER_TAKEOVER (R341): a follower that lost three edges and then waited p ms on a silent net drives TSYNC
from its own count, without a step, and sequences from the highest MSN it holds (R364). -/
def execMasterTakeover : State → Out :=
  onDev (fun d =>
    match d.board.lostAt with
    | some t =>
      if d.powered && d.link.started && d.bound && d.board.lock == .unlocked
        && decide (t + 1000000 * d.pos ≤ d.clk) then lockTime .master d.pos d.devTime d
      else d
    | none => d)

/-- TIME_STATUS (R341). -/
def timeStatus (d : Dev) : Nat :=
  let e := max (-127) (min 127 d.board.error)
  let b := if e < 0 then (256 + e).toNat else e.toNat
  d.board.lost % 256 * 65536 + b * 256 + d.board.masterPos % 8 * 32 + lockCode d.board.lock

/-- TIME_READ (R342). -/
def execTimeRead (id : Nat) : State → Out :=
  execOp .timeRead id (fun _ _ d =>
    okOuts [(0, leBytes 8 d.devTime ++ leBytes 4 (timeStatus d) ++ zeros 4)] id d)

/-! Tamper on the board (R356). -/

/-- The board tamper source, once per incident, and vector 451 (R356). -/
def boardIncident (d : Dev) : Dev :=
  if d.board.incident then sameIncident d
  else alarm 31 (raisePf0 451 { d with board := { d.board with incident := true } })

/-- TAMPER_FLIT (R356). -/
def execTamperFlit (port : Fin 2) (h : FlitHdr) (pos : Fin 8) (level : Nat) (s : State) : Out :=
  onBoth (fun d m =>
    let e := flitIn port h 2 (fun d => if pos.val = d.pos || level = 0 then d else boardIncident d) d
    (e, if e.board.incident && !d.board.incident then alarmMem (levelOf d 31) m else m)) s

/-! Binding (R353). -/

/-- The key check value of a board domain key: of an AES-256 key (R156 [05]). -/
def boardKcv (k : Bytes) : Bytes := kcvOf 3 0 k []

/-- DIGEST[p] of a manifest. -/
def manifestDig (m : Bytes) (p : Nat) : Bytes := seg m (16 + 32 * p) 32

/-- What a bind message's signatures cover (log 24). -/
def bindBody : BindMsg → Bytes
  | .publicKeys k x _ _ => ascii "bind-2" ++ k ++ x
  | .wrappedKey c x w _ _ => ascii "bind-3" ++ c ++ x ++ w
  | .confirm k => ascii "bind-4" ++ k

/-- Both identity signatures of a bind message from position `p` hold, and its key has that position's digest. -/
def bindSigOk (man : Bytes) (p : Nat) (idKey sig body : Bytes) : Bool :=
  sha3_256 idKey == manifestDig man p && Config.stdOk .signature [p] [idKey, body, sig]

/-- A signature field of a bind message. -/
def bindSign (body : Bytes) (d : Dev) : Bytes × Dev :=
  let (a, b, d) := idSign body d
  (a ++ b, d)

/-- Step 5 of R353, once all COUNT confirmations agree with the device's own key: the vault takes the key, the
manifest digest and the header, every port retrains, and the command completes with its report. -/
def bindDone (d : Dev) : Dev :=
  match d.board.bind with
  | none => d
  | some b =>
    match b.key with
    | none => d
    | some k =>
      let agreed (p : Nat) : Bool := b.confirms.any (fun (e : Nat × Bytes) => e.1 == p && e.2 == boardKcv k)
      if (List.range (field b.manifest 8 1)).all agreed then
        let d := { d with board := { d.board with
          key := some k, manifestDigest := sha3_256 b.manifest, header := b.manifest.take 16, bind := none,
          lock := .unlocked, masterPos := 0, followed := false, silentFrom := d.clk } }
        let d := forEach [0, 1] (fun p d => if (d.port p).link == .down then d else setLink p .training 0 d) d
        conclude b.cmd { status := .ok, result := [],
                         outs := [(1, boardKcv k ++ zeros 1 ++ b.manifest.take 8 ++ zeros 4)] } (updateMember d)
      else d

/-- The device's own confirmation, sent to all. -/
def bindConfirm (d : Dev) : Dev :=
  match d.board.bind with
  | none => d
  | some b =>
    match b.key with
    | none => d
    | some k =>
      let d := { d with board := { d.board with bind := some { b with confirms := b.confirms ++ [(d.pos, boardKcv k)] } } }
      bindDone (sendBoth true (fun p => .bindFlit p (.confirm (boardKcv k))) d)

/-- Ephemeral keys of a bind: ML-KEM-1024 material and X448 private key. -/
def ephKem (e : Bytes) : Bytes := std .mlkemKeygen 3168 [0x12, 0] [e.take 64]
def ephX (e : Bytes) : Bytes := seg e 64 56

/-- BOARD_BIND (R353), steps 1 and 2. A bind in progress ends before the next one begins. -/
def execBoardBind (id : Nat) : State → Out :=
  execOp .boardBind id (fun m c d =>
    let man := inp m d c 0
    let n := field man 8 1
    let stray (p : Nat) : Bool := decide (n ≤ p) && !allZero (manifestDig man p)
    if d.board.bind.isSome then d
    else if !allZero (seg man 10 6) then failWith .packetMalformed id d
    else if n < 2 || 8 < n || n ≤ field man 9 1 || (List.range 8).any stray || n ≤ d.pos
      || manifestDig man d.pos != idDigest d then failWith .fieldRejected id d
    else if d.bound && c.prm = 0 then failWith .policyRefused id d
    else
      let d := dropBoard d
      let (eph, d) := draw 120 d
      let b : Bind := { cmd := id, manifest := man, startAt := d.clk, eph := eph, key := none, confirms := [] }
      let d := setCmd { c with stage := .waiting } { d with board := { d.board with bind := some b } }
      if d.pos = 0 then
        let (k, d) := draw 32 d
        bindConfirm { d with board := { d.board with bind := some { b with key := some k } } }
      else
        let kp := pubOfMat 0x12 0 (ephKem eph)
        let xp := std .pubOf 56 [0x5B, 0] [ephX eph]
        let (s, d) := bindSign (bindBody (.publicKeys kp xp [] [])) d
        sendBoth true (fun p => .bindFlit p (.publicKeys kp xp (idPub d) s)) d)

/-- BIND_FLIT (R353), steps 3 to 5. -/
def execBindFlit (port : Fin 2) (h : FlitHdr) (msg : BindMsg) : State → Out :=
  onDev (flitIn port h 8 (fun d =>
    match d.board.bind with
    | none => d
    | some b =>
      match msg with
      | .publicKeys kem x idKey sig =>
        match b.key with
        | none => d
        | some k =>
          if d.pos != 0 || !bindSigOk b.manifest h.src idKey sig (bindBody msg) then d
          else
            match hybSeal 2 kem x d with
            | none => d
            | some (ct, ss, d) =>
              let body := BindMsg.wrappedKey (ct.take 1568) (ct.drop 1568) (kwWrap ss k 40) [] []
              let (s, d) := bindSign (bindBody body) d
              sendBoth true (fun p => .bindFlit p (.wrappedKey (ct.take 1568) (ct.drop 1568) (kwWrap ss k 40) (idPub d) s)) d
      | .wrappedKey ct x w idKey sig =>
        if h.src != 0 || d.pos = 0 || b.key.isSome || !bindSigOk b.manifest 0 idKey sig (bindBody msg) then d
        else
          match (hybOpen 2 (ephKem b.eph) (ephX b.eph) (ct ++ x)).bind (fun ss => kwOpen ss w 32) with
          | none => d
          | some k => bindConfirm { d with board := { d.board with bind := some { b with key := some k } } }
      | .confirm kcv =>
        bindDone { d with board := { d.board with bind := some { b with confirms := b.confirms ++ [(h.src, kcv)] } } }))

/-- BIND_TIMEOUT (R353): 10 s without step 5. -/
def execBindTimeout : State → Out :=
  onDev (fun d =>
    match d.board.bind with
    | some b =>
      if b.startAt + 10000000000 ≤ d.clk then
        conclude b.cmd (bare .ringNotBound) { d with board := { d.board with bind := none } }
      else d
    | none => d)

end Sys2Proof.Machine
end

