-- ==== Sys2Proof/Machine/Mirror.lean ====
section
/-!
DEFINITION. Mirroring keys over the board: the mirror set, prepares, replies, commits, aborts, resync (R355, R357 to
R360 [12]).
-/
namespace Sys2Proof.Machine

/-- The slice is a member of the board's slice with that MK_ID (before R357). -/
def isMember (d : Dev) (s : Nat) (mkId : Bytes) : Bool :=
  ((d.slice s).st == .active || (d.slice s).st == .paused) && (d.custody s).master.isSome && d.mkId s == mkId

/-- Sealing key of a mirror record (step 1 of R358). -/
def mirrorKey (d : Dev) (mid : Nat) : Bytes := kmac256 (d.board.key.getD []) (leBytes 2 mid) 64 "ORNATH-MIRROR"

/-- Attributes and material of an entry that stands at index `i`, sealed. -/
def sealMirror (d : Dev) (mid i : Nat) (e : Entry) : Bytes :=
  sivSeal (mirrorKey d mid) [] (entryRecord d i e ++ e.material)

/-- A resolved key as the ledger holds it now, or as it was resolved if its entry has gone since (R29 [01]). -/
def keyNow (d : Dev) (k : KeyRes) : Entry :=
  if (d.ent k.idx).st == .active && (d.ent k.idx).gen == k.ent.gen then d.ent k.idx else k.ent

/-- The copy a sealed record gives to slice `s` (R145 [05], R358); none when its tag fails. -/
def openMirror (d : Dev) (r : MirrorRec) : Option Entry :=
  (sivOpen (mirrorKey d r.mid) [] r.sealedRec).map (fun b =>
    let t := field b 6 1
    let sub := field b 7 1
    let mat := b.drop 64
    let fl := BitVec.ofNat 16 (field b 12 2)
    { blankEntry 1 with
      typ := t, subtype := sub, usage := field b 8 4, flags := fl &&& 0x1B, useLimit := field b 16 4,
      useCount := field b 20 4, activation := field b 24 8, expiry := field b 32 8, kcv := seg b 48 3,
      material := mat, pub := if fl &&& 8 != 0 then mat else pubOfMat t sub mat, matLen := mat.length,
      units := unitsFor t sub (fl &&& 8 != 0) })

/-- A PENDING copy of a record on a member device, or none for lack of room (step 2 of R358). -/
def reserveCopy (r : MirrorRec) (d : Dev) : Option (Nat × Dev) :=
  match openMirror d r with
  | none => none
  | some e => if roomFor d r.slice e.units then allocEnt r.slice e d else none

/-- A copy becomes ACTIVE and MIRRORED under its identifier. -/
def makeCopy (mid i : Nat) (d : Dev) : Dev :=
  let d := modEnt i (fun e => { e with st := .active, flags := e.flags ||| fMirrored }) d
  { d with board := { d.board with midTable := tset d.board.midTable mid i } }

/-- Copies of the mirror set that slice `s` lacks are made, as far as its quota lets them (R360). -/
def instantiate (s : Nat) (d : Dev) : Dev :=
  forEach d.board.set (fun r d =>
    if r.slice = s && isMember d s r.mkId && (tfind d.board.midTable r.mid).isNone then
      match reserveCopy r d with
      | some (i, d) => makeCopy r.mid i d
      | none => d
    else d) d

/-- Membership of slice `s` ends here: its copies are wiped (R360). -/
def endMembership (s : Nat) (d : Dev) : Dev :=
  sweep (freeWhere (fun e => e.owner == s && e.has fMirrored) d)

/-- CONFIG_APPLY (R71 [02]): at a round, once the command that set it has completed. A slice that has
just become a member has its copies made under the quota it now has (R360). -/
def execConfigApply (sl : Fin 256) : State → Out :=
  onDev (fun d =>
    match (d.slice sl).nextCfg with
    | some c =>
      if d.atRound && !d.cmds.any (fun e => (e.op == .sliceCreate || e.op == .sliceConfigure)
          && e.prm == sl.val && (e.stage == .results || e.stage == .waiting)) then
        instantiate sl (noteQuota sl (d.modSlice sl (fun x => { x with cfg := c, nextCfg := none })))
      else d
    | none => d)

/-- The prepare of an identifier. -/
def Dev.prepare (d : Dev) (mid : Nat) : Option Prepare := d.board.prepares.find? (fun p => p.recd.mid == mid)

/-- The prepare of an identifier forgotten. -/
def dropPrepare (mid : Nat) (d : Dev) : Dev :=
  { d with board := { d.board with prepares := d.board.prepares.filter (fun p => p.recd.mid != mid) } }

/-- A prepare changed. -/
def modPrepare (mid : Nat) (f : Prepare → Prepare) (d : Dev) : Dev :=
  { d with board := { d.board with prepares := d.board.prepares.map (fun p => if p.recd.mid = mid then f p else p) } }

/-- A prepare given up here: a PENDING copy is freed; on the origin its command completes with a status (steps 3
and the timeout of R358). -/
def lapse (st : Status) (mid : Nat) (d : Dev) : Dev :=
  match d.prepare mid with
  | none => d
  | some p =>
    let d := raisePf0 450 (dropPrepare mid d)
    match p.cmd, p.idx with
    | some id, _ => conclude id (bare st) d
    | none, some i => if (d.ent i).st == .pending && (d.ent i).gen == p.gen then freeEnt i d else d
    | none, none => d

/-- The mirror handle of an identifier (R357). -/
def mirrorHandle (mid : Nat) : Nat := 0x10000 + mid

/-- A committed record takes effect (step 4 of R358, R359): copies become ACTIVE, or drain; the log and the set
take the record; the origin's command completes with the mirror handle and the MSN. -/
def applyRecord (r : MirrorRec) (msn : Nat) (d : Dev) : Dev :=
  let p := d.prepare r.mid
  let mine := (p.bind (·.cmd)).isSome
  let idx := p.bind (·.idx)
  let d := dropPrepare r.mid d
  let d :=
    if r.remove then
      match tfind d.board.midTable r.mid with
      | some i =>
        if mine && r.keepLocal then
          let d := modEnt i (fun e => { e with flags := e.flags &&& ~~~fMirrored }) d
          { d with board := { d.board with midTable := tdel d.board.midTable r.mid } }
        else sweep (drainEnt i d)
      | none => d
    else
      match idx with
      | some i =>
        let e := d.ent i
        let same := e.owner == r.slice && e.gen == (p.map (·.gen)).getD 0
        if isMember d r.slice r.mkId && same
            && ((mine && e.st == .active) || (!mine && e.st == .pending)) then makeCopy r.mid i d
        else if !mine && same && e.st == .pending then freeEnt i d
        else d
      | none =>
        if isMember d r.slice r.mkId && (tfind d.board.midTable r.mid).isNone then
          match reserveCopy r d with
          | some (i, d) => makeCopy r.mid i d
          | none => d
        else d
  let rest := d.board.set.filter (fun x => x.mid != r.mid)
  let log := d.board.log ++ [(msn, r)]
  let d := { d with board := { d.board with
    lastMsn := msn, log := log.drop (log.length - 16384), set := if r.remove then rest else rest ++ [r] } }
  match p.bind (·.cmd) with
  | some id => conclude id { status := .ok, outs := [], result := leBytes 4 (mirrorHandle r.mid) ++ leBytes 4 msn } d
  | none => d

/-- A mirror flit: 0 prepare, 1 ACK, 2 NAK, 3 commit, 4 abort. -/
def mirrorSend (what : Nat) (r : MirrorRec) (msn tick : Nat) : Dev → Dev :=
  sendBoth false (fun p => .mirrorFlit p what r msn tick)

/-- The reply of this device to a prepare: to the sequencer, which may be itself (step 2 of R358). -/
def mirrorAnswer (r : MirrorRec) (ack : Bool) (d : Dev) : Dev :=
  if d.board.lock == .master then
    modPrepare r.mid (fun p => { p with acks := p.acks ++ [d.pos], nak := p.nak || !ack }) d
  else mirrorSend (if ack then 1 else 2) r 0 0 d

/-- A prepare begun by a command of this device (step 1 of R358): the origin's own reservation is the key. -/
def mirrorBegin (c : Cmd) (r : MirrorRec) (i : Nat) (d : Dev) : Dev :=
  let p : Prepare := { recd := r, idx := some i, gen := ((c.keys.head?).map (·.ent.gen)).getD 0, cmd := some c.id,
                       acks := [], nak := false, startAt := d.clk, committed := false }
  let d := setCmd { c with stage := .waiting } { d with board := { d.board with prepares := d.board.prepares ++ [p] } }
  mirrorAnswer r true (mirrorSend 0 r 0 0 d)

/-- The next free identifier of this origin, in turn (R357). -/
def freeMid (d : Dev) : Option Nat :=
  let used (m : Nat) : Bool := d.board.set.any (·.mid == m) || (d.prepare m).isSome
    || (tfind d.board.midTable m).isSome
  ((List.range 512).map (fun k => d.pos * 512 + (d.board.nextMid + k) % 512)).find? (fun m => !used m)

/-- MIRROR_PUT (R358). A key whose entry has gone since it was resolved is mirrored from its resolved material
(R29 [01]), and the origin then keeps no copy (DEDUCED, log 20). -/
def execMirrorPut (id : Nat) : State → Out :=
  execOp .mirrorPut id (fun _ c d =>
    if !d.bound then failWith .ringNotBound id d
    else
      match c.keys.head? with
      | none => d
      | some k =>
        let e := keyNow d k
        match freeMid d with
        | none => failWith .policyRefused id d
        | some mid =>
          if e.has fMirrored || e.parent != 0 || isMce e.typ || e.matLen > 16384 then failWith .policyRefused id d
          else if d.board.member != .inSync then failWith .mirrorDiverged id d
          else
            let r : MirrorRec := { remove := false, keepLocal := false, slice := c.slice, mkId := d.mkId c.slice,
                                   mid := mid, sealedRec := sealMirror d mid k.idx e }
            mirrorBegin c r k.idx { d with board := { d.board with nextMid := (mid + 1) % 512 } })

/-- MIRROR_REMOVE (R359): a key that is not mirrored, or no longer, or whose MID has an operation open, gives
POLICY_REFUSED (DEDUCED, log 22). -/
def execMirrorRemove (id : Nat) : State → Out :=
  execOp .mirrorRemove id (fun _ c d =>
    if !d.bound then failWith .ringNotBound id d
    else
      match c.keys.head? with
      | none => d
      | some k =>
        match d.board.midTable.find? (fun e => e.2 == k.idx) with
        | none => failWith .policyRefused id d
        | some (mid, _) =>
          if (d.prepare mid).isSome then failWith .policyRefused id d
          else if d.board.member != .inSync then failWith .mirrorDiverged id d
          else
            mirrorBegin c { remove := true, keepLocal := bit c.prm 0, slice := c.slice, mkId := d.mkId c.slice,
                            mid := mid, sealedRec := [] } k.idx d)

/-- MIRROR_PREPARE (step 2 of R358). A device in RESYNC keeps the record for the commit but does not answer. -/
def execMirrorPrepare (port : Fin 2) (h : FlitHdr) (r : MirrorRec) : State → Out :=
  onDev (flitIn port h 3 (fun d =>
    let member := isMember d r.slice r.mkId && !r.remove
    let put (i : Option Nat) (d : Dev) : Dev :=
      let p : Prepare := { recd := r, idx := i, gen := (i.map (fun j => (d.ent j).gen)).getD 0, cmd := none,
                           acks := [h.src], nak := false, startAt := d.clk, committed := false }
      { d with board := { d.board with prepares := d.board.prepares ++ [p] } }
    if (d.prepare r.mid).isSome then d
    else if d.board.member == .resync then put none d
    else if d.board.member != .inSync then d
    else if member then
      match reserveCopy r d with
      | some (i, d) => mirrorAnswer r true (put (some i) d)
      | none => mirrorAnswer r false (put none d)
    else mirrorAnswer r true (put none d)))

/-- MIRROR_REPLY (step 3 of R358): collected by the sequencer. -/
def execMirrorReply (port : Fin 2) (h : FlitHdr) (mid : Nat) (ack : Bool) : State → Out :=
  onDev (flitIn port h 3 (fun d =>
    if d.board.lock == .master then
      modPrepare mid (fun p => { p with acks := p.acks ++ [h.src], nak := p.nak || !ack }) d
    else d))

/-- The serial number of the next entry to be placed (R346): 24 bits, and never 0, the ENTRY_ID of a free entry. -/
def nextSerial (d : Dev) : Nat := d.board.serial % (2 ^ 24 - 1) + 1

/-- A commit placed in the lowest free, else the lowest spent, of entries 224 to 255 (step 4 of R358). -/
def placeCommit (mid msn tick : Nat) (d : Dev) : Option Dev :=
  let ix := (List.range 32).map (· + 224)
  match (ix.find? (fun i => !(d.action i).live && !(d.action i).spent)).or (ix.find? (fun i => !(d.action i).live)) with
  | none => none
  | some i =>
    match d.prepare mid with
    | none => none
    | some p =>
      let sn := nextSerial d
      let d := modPrepare mid (fun p => { p with committed := true })
        { d with board := { d.board with serial := sn } }
      some (modAction i (fun _ => { actionFree with
        live := true, serial := sn, action := 7, slice := p.recd.slice, tick := tick,
        key0 := mirrorHandle mid, msn := msn, mid := mid }) d)

/-- The highest MSN applied or waiting for its tick. -/
def topMsn (d : Dev) : Nat :=
  ((d.board.actions.filter (fun e => e.2.live && e.2.action == 7)).map (·.2.msn)).foldl max d.board.lastMsn

/-- MIRROR_SEQ_WAIT_END (step 3 of R358): once every serving device has answered, one has refused, or 1 ms is
over. While entries 224 to 255 are full, the commit waits. -/
def execMirrorSeqWaitEnd (mid : Nat) : State → Out :=
  onDev (fun d =>
    match d.prepare mid with
    | none => d
    | some p =>
      let all := (List.range 8).all (fun q => !d.board.serving.getLsbD q || p.acks.contains q)
      if !d.alive || d.board.lock != .master || p.committed || (!p.nak && !all && d.clk < p.startAt + 1000000) then d
      else if p.nak then lapse .resourceQuota mid (mirrorSend 4 p.recd 0 0 d)
      else
        let msn := max d.board.seqMsn (topMsn d) + 1
        let tick := max (d.devTime + d.board.commitLead * 1000) (d.board.seqTick + 1)
        match placeCommit mid msn tick d with
        | none => d
        | some d =>
          let mute := (List.range 8).filter (fun q => d.board.serving.getLsbD q && !p.acks.contains q)
          let serving := mute.foldl (fun b q => b &&& ~~~(1#8 <<< q)) d.board.serving
          let d := if serving != d.board.serving then raisePf0 448 d else d
          mirrorSend 3 p.recd msn tick
            { d with board := { d.board with seqMsn := msn, seqTick := tick, serving := serving } })

/-- A commit gap: vector 450, and RESYNC (R358). -/
def gap (d : Dev) : Dev := setMember .resync (raisePf0 450 d)

/-- MIRROR_COMMIT (R358): in RESYNC commits are queued (R355). The copy of a commit that came the other way round the
ring changes nothing; MIRROR_LAST_MSN counts commits that wait for their tick (DEDUCED, log 22). -/
def execMirrorCommit (port : Fin 2) (h : FlitHdr) (mid : Nat) (msn : Nat) (tick : Nat) : State → Out :=
  onDev (flitIn port h 3 (fun d =>
    if d.board.member == .resync then
      { d with board := { d.board with queued := d.board.queued ++ [(mid, msn, tick)] } }
    else if d.board.member != .inSync then d
    else if d.board.actions.any (fun e => e.2.live && e.2.action == 7 && e.2.msn == msn && e.2.mid == mid) then d
    else if msn != topMsn d + 1 then gap d
    else
      match placeCommit mid msn tick d with
      | some d => d
      | none => gap d))

/-- MIRROR_ABORT (R358). -/
def execMirrorAbort (port : Fin 2) (h : FlitHdr) (mid : Nat) : State → Out :=
  onDev (flitIn port h 3 (lapse .resourceQuota mid))

/-- MIRROR_ORIGIN_TIMEOUT (R358): 2 ms without a word of the sequencer. -/
def execMirrorOriginTimeout (mid : Nat) : State → Out :=
  onDev (fun d =>
    match d.prepare mid with
    | none => d
    | some p =>
      if p.cmd.isSome && !p.committed && decide (p.startAt + 2000000 ≤ d.clk) then lapse .mirrorDiverged mid d else d)

/-! Resync (R355). -/

/-- The board entry of a scheduled action as its block (R344). -/
def actionBlock (a : ActionEntry) : Bytes :=
  leBytes 1 a.action ++ leBytes 1 a.scope ++ leBytes 1 a.slice ++ zeros 1 ++ leBytes 4 a.testMask
    ++ leBytes 8 a.tick ++ leBytes 8 a.period ++ zeros 8

/-- RESYNC_REQUEST (R355): a serving device replays what follows the MSN, or its whole mirror set, then the board
entries. -/
def execResyncRequest (port : Fin 2) (h : FlitHdr) (afterMsn : Nat) : State → Out :=
  onDev (flitIn port h 7 (fun d =>
    if d.board.member != .inSync then d
    else
      let first := ((d.board.log.head?).map (·.1)).getD (d.board.lastMsn + 1)
      let recs := d.board.log.filter (fun e => decide (afterMsn < e.1))
      let say (m : ReplayMsg) (d : Dev) : Dev := sendOn port false (.replayFlit port m) d
      let d := if afterMsn = 0 || afterMsn + 1 < first then say (.set d.board.lastMsn d.board.set) d
        else forEach recs (fun e d => say (.record e.1 e.2) d) d
      let acts := d.board.actions.filter (fun e => e.2.live && e.2.boardNo.isSome)
      say .done (forEach acts (fun e d =>
        say (.entry (e.2.boardNo.getD 0) (actionBlock e.2 ++ leBytes 4 e.2.key0) e.2.cfg e.2.adder) d) d)))

/-- The number of the next board entry that this device adds: one above those it has seen, and of its own residue,
so that no two devices give one number (R346; DESIGN CHOICE, log 22). -/
def nextBoardNo (d : Dev) : Nat := (d.board.boardNo / 8 + 1) * 8 + d.pos

/-- Index at which a new entry is placed: the lowest free one of 0 to 223, else the lowest spent one (R346). -/
def actionSlot (d : Dev) : Option Nat :=
  match (List.range 224).find? (fun i => !(d.action i).live && !(d.action i).spent) with
  | some i => some i
  | none => (List.range 224).find? (fun i => (d.action i).spent)

/-- The entry an action block describes. -/
def actionOf (b cfg : Bytes) (key0 adder : Nat) (no : Option Nat) : ActionEntry :=
  { actionFree with
    live := true, action := field b 0 1, scope := field b 1 1, slice := field b 2 1, testMask := field b 4 4,
    tick := field b 8 8, period := field b 16 8, key0 := key0, cfg := cfg, adder := adder, boardNo := no }

/-- An entry placed at an index; the serial number steps. -/
def placeAction (i : Nat) (a : ActionEntry) (d : Dev) : Dev :=
  let sn := nextSerial d
  modAction i (fun _ => { a with serial := sn })
    { d with board := { d.board with serial := sn, boardNo := max d.board.boardNo (a.boardNo.getD 0) } }

/-- A board entry placed here, unless it is here already or there is no room. -/
def placeBoard (no : Nat) (b cfg : Bytes) (adder : Nat) (d : Dev) : Bool × Dev :=
  if d.board.actions.any (fun e => e.2.live && e.2.boardNo == some no) then (true, d)
  else
    match actionSlot d with
    | some i => (true, placeAction i (actionOf b cfg (field b 32 4) adder (some no)) d)
    | none => (false, d)

/-- The replay has ended: commits that arrived meanwhile are applied in MSN order, at once when their tick has
passed, and the device is IN_SYNC (R355). -/
def endReplay (d : Dev) : Dev :=
  let q := (d.board.queued.filter (fun e => decide (d.board.lastMsn < e.2.1))).mergeSort (fun a b => a.2.1 ≤ b.2.1)
  let d := { d with board := { d.board with queued := [] } }
  let one (e : Nat × Nat × Nat) (d : Dev) : Dev :=
    match d.prepare e.1 with
    | none => d
    | some p =>
      if e.2.2 ≤ d.devTime then
        let late (d : Dev) : Dev :=
          match d.board.actions.find? (fun (x : Nat × ActionEntry) => x.2.live && x.2.action == 7 && x.2.msn == e.2.1) with
          | some x => modAction x.1 (fun a => { a with live := false, spent := true, outcome := 2, firings := 1 }) d
          | none => d
        raisePf0 384 (applyRecord p.recd e.2.1 (late ((placeCommit e.1 e.2.1 e.2.2 d).getD d)))
      else (placeCommit e.1 e.2.1 e.2.2 d).getD d
  setMember .inSync (forEach q one d)

/-- RESYNC_REPLAY (R355): what a serving neighbour replays. -/
def execResyncReplay (port : Fin 2) (h : FlitHdr) (msg : ReplayMsg) : State → Out :=
  onDev (flitIn port h 7 (fun d =>
    if d.board.member != .resync then d
    else
      match msg with
      | .record msn r => if msn = d.board.lastMsn + 1 then applyRecord r msn d else d
      | .entry no b cfg adder => (placeBoard no b cfg adder d).2
      | .set upTo recs =>
        let gone (e : Nat × Nat) : Bool := !recs.any (fun r => r.mid == e.1)
        let d := forEach ((d.board.midTable.filter gone).map (·.2)) (fun i d => sweep (drainEnt i d)) d
        let d := { d with board := { d.board with set := recs, log := [], lastMsn := upTo } }
        forEach ((recs.map (·.slice)).eraseDups) instantiate d
      | .done => endReplay d))

end Sys2Proof.Machine
end

