-- ==== Sys2Proof/Machine/Actions.lean ====
section
/-!
DEFINITION. The scheduled action table: SCHED_ADD, SCHED_CANCEL, SCHED_LIST, firing; board entries; SPILL_CONFIG;
the forms of groups 0x09 and 0x0A (R344 to R350, R353, R358, R359, R363, R506 [12]).
-/
namespace Sys2Proof.Machine

/-- Forms of groups 0x09 and 0x0A. -/
def boardForm (p : Packet) (o : Op) : Form :=
  match o with
  | .timeRead => { param := p.prm == 0, args := [outArg .out0 16] }
  | .schedAdd => { param := p.prm == 0, may := [0], args := withOpt p [inArg .in0 32 32] [inArg .in1 32 32] }
  | .schedCancel => { param := p.prm == 0, args := [inArg .in0 8 8] }
  | .schedList => { param := p.prm == 0, args := [outArg .out0 8192] }
  | .boardBind => { param := decide (p.prm ≤ 1), args := [inArg .in0 272 272, outArg .out0 16] }
  | .ringStatus => { param := p.prm == 0, args := [outArg .out0 128] }
  | .mirrorPut => { param := p.prm == 0, need := [0] }
  | .mirrorRemove => { param := decide (p.prm ≤ 1), need := [0] }
  | _ => { param := p.prm == 0, args := [inArg .in0 16 16, outArg .out0 24] }

/-- A handle as the board knows it: a mirror handle names the local copy, if there is one (R357). -/
def localHandle (d : Dev) (h : Nat) : Option Nat :=
  if 0x10000 ≤ h && h < 0x11000 then
    (tfind d.board.midTable (h - 0x10000)).map (fun i => handleOf i (d.ent i).gen)
  else some h

/-- Check 1 of R27 on a handle for slice `s`: the index of its ACTIVE entry. -/
def liveIndex (d : Dev) (s h : Nat) : Option Nat :=
  match localHandle d h with
  | none => none
  | some h =>
    let e := d.ent (hIdx h)
    if e.st == .active && e.gen == hGen h && e.owner == s then some (hIdx h) else none

/-- An action block breaks a rule of R344 or R345, beside its reserved bytes. -/
def actionBad (d : Dev) (c : Cmd) (b : Bytes) : Bool :=
  let act := field b 0 1
  let scope := field b 1 1
  let sl := field b 2 1
  let mask := field b 4 4
  let tick := field b 8 8
  let per := field b 16 8
  let lead := if scope = 1 then d.board.commitLead * 1000 else 1000
  let key0 := c.pkt.keys.getD 0 0
  act < 1 || 6 < act || 1 < scope
    || (c.slice != 0 && (scope = 1 || act = 2 || act = 3 || act = 4 || act = 6))
    || (sl != c.slice && (c.slice != 0 || act = 1 || act = 5))
    || 31 < mask || ((act == 6) != (mask != 0))
    || tick < d.devTime + lead || d.devTime + 2 ^ 52 < tick
    || (per != 0 && (act = 1 || per < 1000000 || 2 ^ 52 < per))
    || ((c.pkt.ndesc == 2) != (act == 2)) || ((act == 1) != (key0 != 0))

/-- What SLICE_CONFIGURE would refuse a share change with (R345). -/
def shareBad (d : Dev) (sl : Nat) (cfg : Bytes) : Option Status :=
  let x := d.slice sl
  match clampCfg d sl cfg with
  | .inl st => some st
  | .inr (_, k) =>
    if x.st == .free || x.st == .destroying then some .sliceStateInvalid
    else if k.queues < x.newest.queues && queuesInUse x k.queues then some .sliceStateInvalid
    else none

/-- RESULT of SCHED_ADD (R346). -/
def addResult (i sn : Nat) (no : Option Nat) : Bytes := leBytes 4 (sn * 256 + i) ++ leBytes 4 (no.getD 0)

/-- SCHED_ADD (R344 to R346). A board entry is reserved here and sent to every other serving device. -/
def execSchedAdd (id : Nat) : State → Out :=
  execOp .schedAdd id (fun m c d =>
    let b := inp m d c 0
    let cfg := inp m d c 1
    let key0 := c.pkt.keys.getD 0 0
    let mine := (d.board.actions.filter (fun e => e.2.live && e.2.action != 7 && e.2.adder == c.slice)).length
    let live := (d.board.actions.filter (fun e => e.2.live && decide (e.1 < 224))).length
    if field b 3 1 != 0 || !allZero (seg b 24 8) then failWith .packetMalformed id d
    else if actionBad d c b then failWith .fieldRejected id d
    else
      match (if field b 0 1 = 2 then shareBad d (field b 2 1) cfg else none) with
      | some st => failWith st id d
      | none =>
        let board := field b 1 1 == 1
        if board && !d.bound then failWith .ringNotBound id d
        else if 224 ≤ live || (c.slice != 0 && 16 ≤ mine) then failWith .schedTableFull id d
        else
          match actionSlot d with
          | none => failWith .schedTableFull id d
          | some i =>
            let others := (List.range 8).filter (fun q => q != d.pos && d.board.serving.getLsbD q)
            if !board || others.isEmpty then
              let no := if board then some (nextBoardNo d) else none
              let d := placeAction i (actionOf b cfg key0 c.slice no) d
              outcomeIs { status := .ok, outs := [], result := addResult i d.board.serial no } id d
            else
              let no := nextBoardNo d
              let d := modAction i (fun _ => actionOf b cfg key0 c.slice (some no)) d
              let pl : BoardPlace := { number := no, cmd := id, index := i, waiting := others }
              let d := setCmd { c with stage := .waiting }
                { d with board := { d.board with boardNo := no, places := d.board.places ++ [pl] } }
              sendBoth false (fun p => .boardEntryFlit p (.place no (b ++ leBytes 4 key0) cfg c.slice)) d)

/-- Every serving device has placed a board entry, or one could not: it is placed on none (R346). -/
def placeDone (pl : BoardPlace) (ok : Bool) (d : Dev) : Dev :=
  let d := { d with board := { d.board with places := d.board.places.filter (fun x => x.number != pl.number) } }
  if ok then
    let sn := nextSerial d
    let d := modAction pl.index (fun a => { a with serial := sn }) { d with board := { d.board with serial := sn } }
    conclude pl.cmd { status := .ok, outs := [], result := addResult pl.index sn (some pl.number) } d
  else
    let d := modAction pl.index (fun _ => actionFree) d
    conclude pl.cmd (bare .schedTableFull) (sendBoth false (fun p => .boardEntryFlit p (.cancel pl.number)) d)

/-- BOARD_ENTRY_FLIT (R346, R349). -/
def execBoardEntryFlit (port : Fin 2) (h : FlitHdr) (b : BoardEntryMsg) : State → Out :=
  onDev (flitIn port h 9 (fun d =>
    match b with
    | .place no blk cfg adder =>
      if d.board.member != .inSync then d
      else
        let (ok, d) := placeBoard no blk cfg adder d
        sendBoth false (fun p => .boardEntryFlit p (.placed no ok)) d
    | .placed no ok =>
      match d.board.places.find? (fun x => x.number == no) with
      | none => d
      | some pl =>
        let left := pl.waiting.filter (· != h.src)
        if !ok then placeDone pl false d
        else if left.isEmpty then placeDone pl true d
        else { d with board := { d.board with places := d.board.places.map (fun x =>
                 if x.number = no then { x with waiting := left } else x) } }
    | .cancel no =>
      let free (e : Nat × ActionEntry) : Nat × ActionEntry := if e.2.boardNo = some no then (e.1, actionFree) else e
      { d with board := { d.board with actions := d.board.actions.map free } }))

/-- An entry is due: its tick has come while device time is locked (R347). -/
def actionDue (d : Dev) (a : ActionEntry) : Bool :=
  a.live && a.serial != 0 && decide (a.tick ≤ d.devTime) && d.board.lock != .unlocked

/-- SCHED_CANCEL (R349). An entry whose tick has come fires first (R364). -/
def execSchedCancel (id : Nat) : State → Out :=
  execOp .schedCancel id (fun m c d =>
    let b := inp m d c 0
    let i := field b 0 1
    let a := d.action i
    if field b 4 4 != 0 then failWith .packetMalformed id d
    else if 224 ≤ i || (!a.live && !a.spent) || a.serial != field b 1 3 || a.serial = 0
      || (c.slice != 0 && a.adder != c.slice) then failWith .fieldRejected id d
    else if actionDue d a then d
    else
      let d := modAction i (fun _ => actionFree) d
      let d := match a.boardNo with
        | some no => sendBoth false (fun p => .boardEntryFlit p (.cancel no)) d
        | none => d
      outcomeIs { status := .ok, outs := [], result := leBytes 1 (b2n (a.firings != 0)) } id d)

/-- The 32-byte record of entry `i`; zeros for a free one (R350). -/
def actionRecord (d : Dev) (i : Nat) : Bytes :=
  let a := d.action i
  if (!a.live && !a.spent) || a.serial = 0 then zeros 32
  else
    leBytes 4 (a.serial * 256 + i) ++ leBytes 1 a.action ++ leBytes 1 a.scope ++ leBytes 1 a.slice
      ++ leBytes 1 a.outcome ++ leBytes 8 a.tick ++ leBytes 8 a.period
      ++ leBytes 4 (if a.action = 1 then a.key0 else if a.action = 7 then a.msn else 0) ++ leBytes 4 a.firings

/-- SCHED_LIST (R350): a tenant sees the entries of its slice. -/
def execSchedList (id : Nat) : State → Out :=
  execOp .schedList id (fun _ c d =>
    let one (i : Nat) : Bytes := if c.slice = 0 || (d.action i).slice = c.slice then actionRecord d i else zeros 32
    okOuts [(0, (List.range 256).flatMap one)] id d)

/-- The order of entries that share a tick (R347): mirror commits by MSN, then actions by code, board entries by
number, device entries by index. -/
def fireKey (i : Nat) (a : ActionEntry) : List Nat :=
  [a.tick, if a.action = 7 then 0 else a.action, if a.action = 7 then a.msn else b2n a.boardNo.isNone,
   a.boardNo.getD i]

/-- A key comes before another, field by field. -/
def keyLt : List Nat → List Nat → Bool
  | x :: xs, y :: ys => decide (x < y) || (x == y && keyLt xs ys)
  | _, _ => false

/-- A unit leaves service for a scheduled self-test (R345, R19 [01]): the lowest in service of its class. -/
def testOne (i : Nat) (k : EngClass) (d : Dev) : Bool × Dev :=
  let k := EngClass.toUnit k
  match (List.range (unitCount k)).find? (fun u => (d.unit k u).st == .inService) with
  | none => (false, d)
  | some u =>
    let d := d.modUnit k u (fun e => { e with testFor := some i })
    (true, if unitUsed d k u = 0 then startTest k u d else setUnitSt k u .draining d)

/-- What an action does at its tick: its outcome (R345, R348). -/
def applyAction (i : Nat) (a : ActionEntry) (d : Dev) : Nat × Dev :=
  match a.action with
  | 1 =>
    match liveIndex d a.slice a.key0 with
    | some j => if (d.ent j).has fShadowWaiting then (1, swapShadow j d) else (3, d)
    | none => (3, d)
  | 2 =>
    match clampCfg d a.slice a.cfg, shareBad d a.slice a.cfg with
    | .inr (mask, k), none =>
      (if mask = 0 then 1 else 5, noteQuota a.slice (d.modSlice a.slice (fun x => { x with cfg := k })))
    | _, _ => (4, d)
  | 3 =>
    if a.slice != 0 && (d.slice a.slice).st == .active then
      (1, d.modSlice a.slice (fun x => { x with st := .paused }))
    else (4, d)
  | 4 =>
    if (d.slice a.slice).st == .paused then (1, d.modSlice a.slice (resumed d)) else (4, d)
  | 5 => (1, (auditSealNow a.slice 0 d).2)
  | 6 =>
    allClasses.foldl (fun (r : Nat × Dev) k =>
      if bit a.testMask (classNo k) then
        let (ok, d) := testOne i k r.2
        (if ok then r.1 else 7, d)
      else r) (1, d)
  | 7 =>
    match d.prepare a.mid with
    | some p => (1, applyRecord p.recd a.msn d)
    | none => (1, { d with board := { d.board with lastMsn := max d.board.lastMsn a.msn } })
  | _ => (1, d)

/-- The audit record of a firing of actions 0x01, 0x05 and 0x07 (R391, R507 [13]). -/
def auditFiring (i out : Nat) (a : ActionEntry) (d : Dev) : Dev :=
  if a.action = 1 || a.action = 5 || a.action = 7 then
    let body : AuditBody :=
      { kind := 2, qid := 0, opcode := 0, status := out, param := a.action, rflags := 0, tag := 0, keys := [a.key0],
        detail := leBytes 4 (a.serial * 256 + i) ++ leBytes 4 (if a.action = 7 then a.msn else a.boardNo.getD 0) }
    auditOwn a.slice body d
  else d

/-- An entry fires (R347 to R349): its outcome is recorded, and it is spent or has its next tick. -/
def fireAction (i : Nat) (d : Dev) : Dev :=
  let a := d.action i
  let (o, d) := applyAction i a d
  let o := if a.late && o = 1 then 2 else o
  let next := a.tick + a.period * max 1 ((d.devTime - a.tick) / a.period + 1)
  let d := modAction i (fun e =>
    if a.period = 0 then
      { e with live := false, spent := true, late := false, outcome := o, firings := min (2 ^ 32 - 1) (e.firings + 1) }
    else
      { e with tick := if a.late then next else a.tick + a.period, late := false, outcome := o,
               firings := min (2 ^ 32 - 1) (e.firings + 1) }) d
  let d := if o != 1 then raisePf0 384 d else d
  auditFiring i o a d

/-- SCHED_ACTION_FIRE (R347): an entry that is due, in its order among those that are. -/
def execSchedActionFire (idx : Fin 256) : State → Out :=
  onDev (fun d =>
    let a := d.action idx
    let before (e : Nat × ActionEntry) : Bool := actionDue d e.2 && keyLt (fireKey e.1 e.2) (fireKey idx a)
    if d.alive && actionDue d a && !d.board.actions.any before then fireAction idx d else d)

/-- SPILL_CONFIG (R363). -/
def execSpillConfig (id : Nat) : State → Out :=
  execOp .spillConfig id (fun m c d =>
    let b := inp m d c 0
    let out := field b 0 1
    let w := field b 1 1
    let sh := (List.range 5).map (fun k => field b (2 + 2 * k) 2)
    if !allZero (seg b 12 4) then failWith .packetMalformed id d
    else if !d.bound then failWith .ringNotBound id d
    else
      let bits5 := (List.range 5).map (fun k => if sh.getD k 0 > 1023 then 2 ^ (k + 2) else 0)
      let mask := b2n (decide (31 < out)) + 2 * b2n (w == 0) + bits5.sum
      let shares := sh.map (min 1023)
      let d := { d with board := { d.board with outClasses := BitVec.ofNat 8 (out % 32), wait := max 1 w,
                                                shareIn := shares } }
      let rep := leBytes 4 mask ++ zeros 4 ++ leBytes 1 (out % 32) ++ leBytes 1 (max 1 w)
        ++ shares.flatMap (leBytes 2) ++ zeros 4
      outcomeIs { status := clampStatus mask, outs := [(1, rep)], result := [] } id d)

end Sys2Proof.Machine
end

