-- ==== Sys2Proof/Machine/Cipher.lean ====
section
/-!
DEFINITION. The commands of the Satin lanes: block ciphers, AEAD, MACs, random bytes (R285 to R304 [10]). Block
encryption itself is the standard's; the modes that the manual spells out are built on it.
-/
namespace Sys2Proof.Machine

/-! Modes of operation. -/

/-- A byte string cut into pieces of `n` bytes, the last one shorter; `fuel` is at least the number of pieces. -/
def pieces (n : Nat) : Nat → Bytes → List Bytes
  | 0, _ => []
  | fuel + 1, b => if b.isEmpty then [] else b.take n :: pieces n fuel (b.drop n)

/-- The pieces of a byte string. -/
def cut (n : Nat) (b : Bytes) : List Bytes := pieces n (cdiv b.length n) b

/-- A block cipher, forwards. -/
def blockEnc (tdes : Bool) (k x : Bytes) : Bytes := if tdes then std .tdes 8 [0] [k, x] else std .aes 16 [0] [k, x]

/-- A block cipher, backwards. -/
def blockDec (tdes : Bool) (k x : Bytes) : Bytes := if tdes then std .tdes 8 [1] [k, x] else std .aes 16 [1] [k, x]

/-- ECB. -/
def ecbMode (f : Bytes → Bytes) (bs : List Bytes) : Bytes := bs.flatMap f

/-- CBC encryption from an IV. -/
def cbcEnc (f : Bytes → Bytes) : Bytes → List Bytes → Bytes
  | _, [] => []
  | iv, x :: xs => f (xorB x iv) ++ cbcEnc f (f (xorB x iv)) xs

/-- CBC decryption. -/
def cbcDec (g : Bytes → Bytes) : Bytes → List Bytes → Bytes
  | _, [] => []
  | iv, x :: xs => xorB (g x) iv ++ cbcDec g x xs

/-- Counter mode over blocks that `ctr` numbers. -/
def ctrMode (f : Bytes → Bytes) (ctr : Nat → Bytes) : Nat → List Bytes → Bytes
  | _, [] => []
  | i, x :: xs => xorB x (f (ctr i)) ++ ctrMode f ctr (i + 1) xs

/-- The whole block counts, as a 128-bit big-endian integer (R291). -/
def ctrWhole (iv : Bytes) (i : Nat) : Bytes := beBytes 16 ((beNat iv + i) % 2 ^ 128)

/-- The last 32 bits count, as in GCM. -/
def ctr32 (j : Bytes) (i : Nat) : Bytes := j.take 12 ++ beBytes 4 ((beNat (j.drop 12) + i) % 2 ^ 32)

/-- The pre-counter block of GCM. -/
def gcmJ0 (k n : Bytes) : Bytes := if n.length = 12 then n ++ [0, 0, 0, 1] else std .gmac 16 [0] [k, n]

/-- GCM's counter pass, both ways. -/
def gcmCtr (k n x : Bytes) : Bytes := ctrMode (blockEnc false k) (ctr32 (gcmJ0 k n)) 1 (cut 16 x)

/-- GCM's tag over associated data and ciphertext; GMAC's over a message. -/
def gcmTag (k n aad ct : Bytes) (t : Nat) : Bytes := (std .gmac 16 [1] [k, gcmJ0 k n, aad, ct]).take t

/-- CCM's counter pass. -/
def ccmCtr (k n x : Bytes) : Bytes :=
  ctrMode (blockEnc false k) (fun i => leBytes 1 (14 - n.length) ++ n ++ beBytes (15 - n.length) i) 1 (cut 16 x)

/-- CCM's tag over the plaintext. -/
def ccmTag (k n aad p : Bytes) (t : Nat) : Bytes := std .aead t [t] [k, n, aad, p]

/-- SIV's tag over the plaintext, and its counter pass. -/
def sivTag (k n aad p : Bytes) : Bytes := s2v k (if n.isEmpty then [aad, p] else [aad, n, p])

/-- An AEAD of modes 1 to 3: the data pass (its own inverse, given the tag) and the tag. -/
def aeadData (mode : Nat) (k n tag x : Bytes) : Bytes :=
  if mode = 1 then gcmCtr k n x else if mode = 2 then ccmCtr k n x else sivCtr k tag x

/-- The tag, from plaintext and ciphertext. -/
def aeadTag (mode : Nat) (k n aad p ct : Bytes) (t : Nat) : Bytes :=
  if mode = 1 then gcmTag k n aad ct t else if mode = 2 then ccmTag k n aad p t else sivTag k n aad p

/-- Nonce and associated data of chunk `i` of GCM-C (R295). -/
def chunkNonce (n : Bytes) (i : Nat) : Bytes := n.take 4 ++ xorB (n.drop 4) (beBytes 8 i)
def chunkAad (aad : Bytes) (i : Nat) (last : Bool) : Bytes :=
  ascii "ORNATH-CHUNK" ++ beBytes 8 i ++ leBytes 1 (b2n last) ++ (if i = 0 then aad else [])

/-- Chunks sealed from number `i` on; `fin` says that the last of them ends the message. -/
def sealChunks (k n aad : Bytes) (fin : Bool) : Nat → List Bytes → Bytes
  | _, [] => []
  | i, x :: xs =>
    let ct := gcmCtr k (chunkNonce n i) x
    ct ++ gcmTag k (chunkNonce n i) (chunkAad aad i (fin && xs.isEmpty)) ct 16 ++ sealChunks k n aad fin (i + 1) xs

/-- Chunks opened; none when a tag fails. -/
def openChunks (k n aad : Bytes) (fin : Bool) : Nat → List Bytes → Option Bytes
  | _, [] => some []
  | i, x :: xs =>
    let ct := x.take (x.length - 16)
    if gcmTag k (chunkNonce n i) (chunkAad aad i (fin && xs.isEmpty)) ct 16 == x.drop (x.length - 16) then
      (openChunks k n aad fin (i + 1) xs).map (fun r => gcmCtr k (chunkNonce n i) ct ++ r)
    else none

/-- Data units of XTS from a sequence number on (R292). -/
def xtsUnits (enc : Bool) (k : Bytes) : Nat → List Bytes → Bytes
  | _, [] => []
  | t, x :: xs => std .blockMode x.length [4, b2n enc] [k, leBytes 16 t, x] ++ xtsUnits enc k (t + 1) xs

/-- The last `b` bytes of a CBC encryption from a zero IV, over whole blocks. -/
def cbcMac (f : Bytes → Bytes) (b : Nat) (x : Bytes) : Bytes :=
  let y := cbcEnc f (zeros b) (cut b x)
  y.drop (y.length - b)

/-- Padding methods 1 and 2 of ISO 9797-1. -/
def isoPad (method b : Nat) (x : Bytes) : Bytes :=
  let y := if method = 2 then x ++ [0x80] else x
  y ++ zeros (cdiv y.length b * b - y.length)

/-- ISO 9797-1 MAC algorithms 1 and 3 with DES (R296). -/
def isoMac (alg : Nat) (k x : Bytes) : Bytes :=
  if alg = 1 then cbcMac (blockEnc true k) 8 x
  else
    let h := cbcMac (fun y => std .tdes 8 [2] [k.take 8, y]) 8 x
    std .tdes 8 [2] [k.take 8, std .tdes 8 [3] [k.drop (k.length - 8), h]]

/-! PARAM. -/

def Packet.mode (p : Packet) : Nat := bits p.prm 3 0
def Packet.tdes (p : Packet) : Bool := bit p.prm 4
def Packet.blk (p : Packet) : Nat := if p.tdes then 8 else 16

/-- TOTAL_LEN of a segment (R131 [04]). -/
def Packet.total (p : Packet) : Nat := field p.body 8 8

/-- Tag length of an AEAD PARAM (R293), and of a MAC PARAM (R296). -/
def Packet.aeadTagLen (p : Packet) : Nat := bits p.prm 7 4 + 1
def Packet.macTagLen (p : Packet) : Nat := if bits p.prm 7 5 = 0 then p.blk else 2 + 2 * bits p.prm 7 5

/-- Chunks of GCM-C: of a plaintext, and of a ciphertext. -/
def chunksOf (n : Nat) : Nat := max 1 (cdiv n 65536)
def sealedChunks (n : Nat) : Nat := max 1 (cdiv n 65552)

/-- A sealed length is one that GCM-C can have made (R294). -/
def gcmcLen (n total : Nat) : Bool :=
  let r := n % 65552
  decide (16 ≤ n) && (r == 0 || decide (16 ≤ r)) && !(decide (total > 65552) && r == 16)

/-- Positions of data in and data out, where a command may run in place (R301). -/
def withInplace (f : Form) : Form :=
  { f with inplace := match f.ix .src, f.ix .dst with
      | some i, some j => some (i, j)
      | _, _ => none }

/-- Forms of ENCRYPT and DECRYPT (R290, R291, R299). -/
def blockForm (p : Packet) (o : Op) : Form :=
  let m := p.mode
  let b := p.blk
  let enc := o == .encrypt
  let seg := decide (p.segf ≠ 0)
  let heads := match m with
    | 2 => [inArg .iv b b]
    | 3 => [inArg .iv 16 16]
    | 4 => [inArg .params 32 32]
    | _ => []
  let i := (heads.length : Nat)
  let n := p.dlen (if seg && p.segf != 1 then 0 else i)
  let out := match m with
    | 5 => if enc then n + 8 else n - 8
    | 6 => if enc then 8 * cdiv n 8 + 8 else n - 8
    | _ => n
  let (lo, hi, mul) := match m with
    | 1 => (b, 64, b)
    | 2 => (b, 16777216, b)
    | 5 => if enc then (16, 4096, 8) else (24, 4104, 8)
    | 6 => if enc then (1, 4096, 1) else (16, 4104, 8)
    | _ => (1, 16777216, 1)
  let f : Form :=
    { param := bits p.prm 7 5 == 0 && decide (1 ≤ m) && decide (m ≤ 6) && (!p.tdes || decide (m ≤ 2))
        && (!seg || m == 2 || m == 3),
      need := [0], args := segArgs p heads [inArg .src lo hi, outArg .dst out] [], lens := n % mul == 0 }
  if m = 5 || m = 6 then f else withInplace f

/-- Forms of the AEAD opcodes (R293, R294, R299). -/
def aeadForm (p : Packet) (o : Op) : Form :=
  let m := p.mode
  let t := p.aeadTagLen
  let enc := o == .aeadEncrypt
  let s := p.segf
  let first := decide (s ≤ 1)
  let i := if first then 2 else 0
  let n := p.dlen i
  let nonce := p.dlen 0
  let data := if s = 0 then n else p.total
  let heads := match m with
    | 1 => [inArg .iv 1 128, inArg .aad 0 16777216]
    | 2 => [inArg .iv 7 13, inArg .aad 0 16777216]
    | 3 => [inArg .iv 0 128, inArg .aad 0 16777216]
    | _ => [inArg .iv 12 12, inArg .aad 0 16777216]
  let src := inArg .src (if s = 0 then 0 else 1) 16777216
  let tagLens := match m with
    | 1 => decide (12 ≤ t)
    | 2 => t % 2 == 0 && decide (4 ≤ t)
    | _ => t == 16
  let args := if m = 4 then
      segArgs p heads [src, outArg .dst (if enc then n + 16 * (if s = 1 || s = 2 then n / 65536 else chunksOf n)
        else n - 16 * sealedChunks n)] []
    else if enc then segArgs p heads [src, outArg .dst n] [outArg .tag t]
    else segArgs p heads [src] [inArg .tag t t, outArg .dst (if s = 0 then n else p.total)]
  let lens :=
    (m != 2 || !first || decide (data < 2 ^ (8 * (15 - nonce))))
      && (s == 0 || decide (p.total ≤ 2 ^ 40))
      && (enc || m == 4 || s == 0 || s == 2 || decide (p.total ≤ 16777216))
      && (m != 4 || (if s = 1 || s = 2 then n % (if enc then 65536 else 65552) == 0
            else enc || gcmcLen n (if s = 0 then n else p.total)))
  let f : Form :=
    { param := decide (1 ≤ m) && decide (m ≤ 4) && tagLens && (s == 0 || m != 3), need := [0], args := args,
      lens := lens }
  if m = 4 then f else withInplace f

/-- Forms of the MAC opcodes (R296, R297). -/
def macForm (p : Packet) (o : Op) : Form :=
  let m := p.mode
  let t := p.macTagLen
  let heads := onlyIf (m == 2) [inArg .iv 1 128]
  let msg := inArg .msg (if p.segf = 0 && decide (m ≤ 2) then 0 else 1) 16777216
  { param := decide (1 ≤ m) && decide (m ≤ 6) && bits p.prm 7 5 != 7 && (if p.tdes then m != 2 else decide (m ≤ 2))
      && !(p.tdes && decide (t > 8)) && !(m == 2 && decide (t < 12)),
    need := [0],
    args := segArgs p heads [msg] [if o = .macGen then outArg .tag t else inArg .tag t t],
    lens := p.segf == 0 || p.segf == 2 || decide (p.total ≤ 2 ^ 40) }

/-- Forms of the Satin opcodes. -/
def cipherForm (p : Packet) (o : Op) : Form :=
  match o with
  | .encrypt | .decrypt => blockForm p o
  | .aeadEncrypt | .aeadDecrypt => aeadForm p o
  | .macGen | .macVerify => macForm p o
  | _ => { param := decide (p.prm ≤ 1), args := [{ role := .dst, out := true, lo := 1, hi := 65536 }] }

/-- TYPE and usage of the key of a Satin opcode (R126 [04], R290 to R297). -/
def cipherKey (c : Cmd) (e : Entry) : Bool :=
  let m := c.pkt.mode
  let aes := decide (1 ≤ e.typ) && decide (e.typ ≤ 3)
  let tdes := e.typ == 4 || e.typ == 5
  match c.op with
  | .encrypt | .decrypt =>
    let enc := c.op == .encrypt
    (if c.pkt.tdes then tdes else if m = 4 then e.typ == 3 else aes)
      && e.may (if m = 1 || m = 5 || m = 6 then (if enc then uWRAP else uUNWRAP)
          else if enc then uENCRYPT else uDECRYPT)
  | .aeadEncrypt | .aeadDecrypt =>
    (if m = 3 then e.typ == 3 else aes) && e.may (if c.op == .aeadEncrypt then uENCRYPT else uDECRYPT)
  | _ =>
    (if m = 5 || m = 6 then e.typ == 4 else if c.pkt.tdes then tdes else aes)
      && e.may (if c.op == .macGen then uMACGEN else uMACVERIFY)

/-- The XTS parameter block, which admission reads for DU_LEN (R291, R292). -/
def isXts (c : Cmd) : Bool := (c.op == .encrypt || c.op == .decrypt) && c.pkt.mode == 4

/-- Reserved bytes of the XTS block. -/
def cipherBlock (c : Cmd) : Option Status :=
  if isXts c && c.pkt.dlen 0 = 32 && !allZero (seg (c.early 0) 20 12) then some .packetMalformed else none

/-- DU_LEN and the data length (R291, R292). -/
def cipherLenOk (c : Cmd) : Bool :=
  let du := field (c.early 0) 16 4
  !isXts c || (decide (16 ≤ du) && decide (du ≤ 16777216) && c.pkt.dlen 1 % du == 0)

/-! Time (R302). -/

/-- Parallel blocks, serial blocks, ns of one, and further ns. -/
structure LaneWork where
  par : Nat
  serial : Nat
  per : Nat
  more : Nat := 0

/-- The work of a Satin command on a key of TYPE `t`; what R302 counts once a message is counted at its first segment, and
what ends it at the final one. A chunk of GCM-C has its own associated data of 21 bytes, to which the first adds the
command's (R295). The halves of a SIV key are AES-128 keys (R294). The blocks that RANDOM puts out are blocks of a counter
mode (DEDUCED, log 58). -/
def laneWork (c : Cmd) (t : Nat) : LaneWork :=
  let p := c.pkt
  let f := cipherForm p c.op
  let m := p.mode
  let per := blockNs t
  let n := f.len p .src
  let k := cdiv n 16
  let msg := f.len p .msg
  let first := decide (p.segf ≤ 1)
  let final := p.segf == 0 || p.segf == 3
  let nonce := if first then p.dlen 0 else 12
  let aad := if first then f.len p .aad else 0
  let j0 := if nonce = 12 then 0 else cdiv nonce 16 + 1
  match c.op with
  | .encrypt | .decrypt =>
    if p.tdes then ⟨0, cdiv n 8, 18, 0⟩
    else if m = 2 && c.op == .encrypt then ⟨0, k, per, 0⟩
    else if m = 5 || m = 6 then
      let w := (if c.op == .encrypt then f.len p .dst else n) / 8
      ⟨0, if m = 6 && w = 2 then 1 else 6 * (w - 1), per, 0⟩
    else ⟨k, 0, per, 0⟩
  | .aeadEncrypt | .aeadDecrypt =>
    match m with
    | 1 => ⟨k + cdiv aad 16 + b2n final + j0, 2 * b2n first, per, 0⟩
    | 2 => ⟨0, b2n first + (if aad = 0 then 0 else cdiv (aad + (if aad < 65280 then 2 else 6)) 16) + k + b2n final,
            per, 0⟩
    | 3 => ⟨k, sivSerial aad nonce n, blockNs 1, 0⟩
    | _ =>
      let enc := c.op == .aeadEncrypt
      let ch := if enc then chunksOf n else sealedChunks n
      let heads := if first then cdiv (21 + aad) 16 + 2 * (ch - 1) else 2 * ch
      ⟨cdiv (if enc then n else n - 16 * ch) 16 + heads + ch, b2n first + ch, per, 0⟩
  | .macGen | .macVerify =>
    match m with
    | 1 => ⟨0, b2n first + max 1 (cdiv msg p.blk), per, 0⟩
    | 2 => ⟨cdiv msg 16 + b2n final + j0, 2 * b2n first, per, 0⟩
    | 3 => ⟨0, cdiv msg 8, 18, 0⟩
    | 4 => ⟨0, cdiv msg 8, 18, 0⟩
    | _ => ⟨0, cdiv msg 8 + 2 * b2n final, 8, 0⟩
  | _ => ⟨cdiv (p.dlen 0) 16, 2, 18, if c.prm = 1 then 2000 else 0⟩

/-- The part of a Satin command; a segment takes 100 ns more (R300). -/
def cipherPart (c : Cmd) : Part :=
  let w := laneWork c (c.typ 0)
  let x := lanePart w.par w.serial w.per c.draws
  let s := w.more + (if c.pkt.segf = 0 then 0 else 100)
  { x with hold := x.hold + s, charge := x.charge + s }

/-! Executions. -/

/-- Zeros over the output area with AUTH_FAIL (R289). -/
def authFail (id : Nat) (f : Form) (p : Packet) (d : Dev) : Dev :=
  outcomeIs { status := .authFail, outs := f.put .dst (zeros (f.len p .dst)), result := [] } id d

/-- ENCRYPT and DECRYPT (R290 to R292). A segment's output is what the whole data so far gives beyond what
earlier segments gave. -/
def blockCmd (id : Nat) (m : Memory) (c : Cmd) (d : Dev) : Dev :=
  let p := c.pkt
  let f := blockForm p c.op
  let enc := c.op == .encrypt
  let k := c.mat 0
  let x := f.get m d c .src
  let bs := cut p.blk
  match p.mode with
  | 1 => okOuts (f.put .dst (ecbMode (if enc then blockEnc p.tdes k else blockDec p.tdes k) (bs x))) id d
  | 4 =>
    let pb := inp m d c 0
    let du := field pb 16 4
    let t := field pb 0 16
    if t + (x.length / du - 1) ≥ 2 ^ 128 || k.take 16 == k.drop 16 then failWith .inputInvalid id d
    else okOuts (f.put .dst (xtsUnits enc k t (cut du x))) id d
  | 5 =>
    if enc then okOuts (f.put .dst (std .keyWrap (x.length + 8) [0, 0] [k, x])) id d
    else if Config.stdOk .keyWrap [0] [k, x] then
      okOuts (f.put .dst (std .keyWrap (x.length - 8) [0, 1] [k, x])) id d
    else authFail id f p d
  | 6 =>
    if enc then okOuts (f.put .dst (std .keyWrap (f.len p .dst) [1, 0] [k, x])) id d
    else if Config.stdOk .keyWrap [1] [k, x] then
      let y := (Config.std .keyWrap [1, 1] [k, x]).take (x.length - 8)
      outcomeIs { status := .ok, outs := f.put .dst (fit (x.length - 8) y), result := leBytes 4 y.length } id d
    else authFail id f p d
  | mode =>
    let heads := headsOf m d c 1
    let iv := heads.getD 0 []
    let had := dataOf d c
    let all := had ++ x
    let y := if mode = 3 then ctrMode (blockEnc false k) (ctrWhole iv) 0 (cut 16 all)
      else if enc then cbcEnc (blockEnc p.tdes k) iv (bs all)
      else cbcDec (blockDec p.tdes k) iv (bs all)
    let outs := f.put .dst (y.drop had.length)
    if p.segf = 1 || p.segf = 2 then segAccepted id outs heads x c d else okOuts outs id d

/-- ENCRYPT. -/
def execEncrypt (id : Nat) : State → Out := execOp .encrypt id (blockCmd id)

/-- DECRYPT. -/
def execDecrypt (id : Nat) : State → Out := execOp .decrypt id (blockCmd id)

/-- Chunks of GCM-C, both ways (R295). -/
def chunkCmd (id : Nat) (f : Form) (m : Memory) (c : Cmd) (d : Dev) : Dev :=
  let enc := c.op == .aeadEncrypt
  let k := c.mat 0
  let heads := headsOf m d c 2
  let n := heads.getD 0 []
  let aad := heads.getD 1 []
  let x := f.get m d c .src
  let had := (dataOf d c).length
  let size := if enc then 65536 else 65552
  let i := had / size
  let more := c.pkt.segf == 1 || c.pkt.segf == 2
  let xs := if x.isEmpty then [[]] else cut size x
  let y := if enc then some (sealChunks k n aad (!more) i xs) else openChunks k n aad (!more) i xs
  match y with
  | none => authFail id f c.pkt d
  | some y =>
    if more then segAccepted id (f.put .dst y) heads x c d else okOuts (f.put .dst y) id d

/-- AEAD_ENCRYPT and AEAD_DECRYPT (R289, R294, R295, R299). -/
def aeadCmd (id : Nat) (m : Memory) (c : Cmd) (d : Dev) : Dev :=
  let p := c.pkt
  let f := aeadForm p c.op
  if p.mode = 4 then chunkCmd id f m c d
  else
    let k := c.mat 0
    let heads := headsOf m d c 2
    let n := heads.getD 0 []
    let aad := heads.getD 1 []
    let x := f.get m d c .src
    let had := dataOf d c
    let all := had ++ x
    let more := p.segf == 1 || p.segf == 2
    if c.op == .aeadEncrypt then
      let tag := if p.mode = 3 then sivTag k n aad all else []
      let y := aeadData p.mode k n tag all
      let outs := f.put .dst (y.drop had.length)
      if more then segAccepted id outs heads x c d
      else okOuts (outs ++ f.put .tag (aeadTag p.mode k n aad all y p.aeadTagLen)) id d
    else if more then segAccepted id [] heads x c d
    else
      let tag := f.get m d c .tag
      let y := aeadData p.mode k n tag all
      if aeadTag p.mode k n aad y all p.aeadTagLen == tag then okOuts (f.put .dst y) id d else authFail id f p d

/-- AEAD_ENCRYPT. -/
def execAeadEncrypt (id : Nat) : State → Out := execOp .aeadEncrypt id (aeadCmd id)

/-- AEAD_DECRYPT. -/
def execAeadDecrypt (id : Nat) : State → Out := execOp .aeadDecrypt id (aeadCmd id)

/-- A MAC of R296 over a message. -/
def macOf (p : Packet) (k iv x : Bytes) : Bytes :=
  (match p.mode with
   | 1 => if p.tdes then std .cmac 8 [] [k, x] else std .cmac 16 [] [k, x]
   | 2 => gcmTag k iv x [] 16
   | 3 => isoMac 1 k (isoPad 1 8 x)
   | 4 => isoMac 1 k (isoPad 2 8 x)
   | 5 => isoMac 3 k (isoPad 1 8 x)
   | _ => isoMac 3 k (isoPad 2 8 x)).take p.macTagLen

/-- MAC_GEN and MAC_VERIFY (R297). -/
def macCmd (id : Nat) (m : Memory) (c : Cmd) (d : Dev) : Dev :=
  let p := c.pkt
  let f := macForm p c.op
  let heads := headsOf m d c (if p.mode = 2 then 1 else 0)
  let x := f.get m d c .msg
  if p.segf = 1 || p.segf = 2 then segAccepted id [] heads x c d
  else
    let t := macOf p (c.mat 0) (heads.getD 0 []) (dataOf d c ++ x)
    if c.op == .macGen then okOuts (f.put .tag t) id d
    else failWith (if t == f.get m d c .tag then .ok else .verifyFail) id d

/-- MAC_GEN. -/
def execMacGen (id : Nat) : State → Out := execOp .macGen id (macCmd id)

/-- MAC_VERIFY. -/
def execMacVerify (id : Nat) : State → Out := execOp .macVerify id (macCmd id)

/-- RANDOM (R298): CTR_DRBG instance s mod 8, reseeded on request and after 2^20 requests. -/
def execRandom (id : Nat) : State → Out :=
  execOp .random id (fun _ c d =>
    let i := c.slice % 8
    let x := d.prot.drbg.getD i ⟨zeros 32, zeros 16, 0⟩
    let reseed := bit c.prm 0 || decide (x.count ≥ 2 ^ 20)
    if reseed && !entropyOk d then failWith .entropyFail id d
    else
      let (x, d) := if reseed then reseedDrbg x d else (x, d)
      let (r, x) := x.generate (c.len 0)
      okOuts [(0, r)] id { d with prot := { d.prot with drbg := d.prot.drbg.set i x } })

end Sys2Proof.Machine
end

