-- ==== Sys2Proof/Machine/Micro.lean ====
section
/-!
DEFINITION. Sequencers and microcode: images, PATCH_LOAD, MODULE_LOAD, bank switches, microwords, module jobs and
the raw primitives (R419 to R439 [15]; R210, R211 [06]; R283, R284 [09]).
-/
namespace Sys2Proof.Machine

/-! Images (R424, R425, R432). -/

/-- Counts of the header: match, dispatch, words, modules. -/
def imgMatch (b : Bytes) : Nat := field b 0xC 2
def imgDisp (b : Bytes) : Nat := field b 0xE 2
def imgWords (b : Bytes) : Nat := field b 0x10 4
def imgMods (b : Bytes) : Nat := field b 0xB 1

/-- Offsets of the dispatch table, the microwords, the module table and the signature block. -/
def imgDispAt (b : Bytes) : Nat := 64 + 8 * imgMatch b
def imgWordAt (b : Bytes) : Nat := imgDispAt b + 4 * imgDisp b
def imgModAt (b : Bytes) : Nat := imgWordAt b + 20 * imgWords b
def imgSigAt (b : Bytes) : Nat := imgModAt b + 64 * imgMods b

/-- The parts of an image. -/
def imageOf (b : Bytes) : Image :=
  let at_ (o n i : Nat) : Bytes := seg b (o + n * i) n
  { version := field b 6 2, svn := field b 8 1, fndsaRev := field b 9 1, hqcRev := field b 0xA 1,
    raiseFloor := bit (field b 3 1) 0,
    matches_ := (List.range (imgMatch b)).map (fun i => (field (at_ 64 8 i) 0 2, field (at_ 64 8 i) 2 2)),
    dispatch := (List.range (imgDisp b)).map (fun i =>
      (field (at_ (imgDispAt b) 4 i) 0 2, field (at_ (imgDispAt b) 4 i) 2 2)),
    words := (List.range (imgWords b)).map (fun i => BitVec.ofNat 160 (leNat (at_ (imgWordAt b) 20 i))),
    digest := sha3_256 (b.take (imgSigAt b)),
    modules := (List.range (imgMods b)).map (at_ (imgModAt b) 64) }

/-- What patches and module sets have in common (R424). -/
def imageFrame (magic : Nat) (b : Bytes) : Bool :=
  field b 0 2 == magic && field b 2 1 == 1 && field b 4 2 == 0x0A01 && allZero (seg b 0x14 44)
    && decide (imgWords b ≤ 2048) && b.length == imgSigAt b + 4728 && allZero (seg b (imgSigAt b + 4627) 5)

/-- A revision of the header: the mask ROM's kept, or 0x02 to 0xFE. -/
def revOk (n : Nat) : Bool := n == 0 || (decide (2 ≤ n) && decide (n ≤ 0xFE))

/-- Check 2 of R426. -/
def patchOk (b : Bytes) : Bool :=
  let i := imageOf b
  imageFrame 0xA7C8 b && decide (field b 3 1 < 2) && i.version != 0 && decide (1 ≤ i.svn) && decide (i.svn ≤ 64)
    && revOk i.fndsaRev && revOk i.hqcRev && imgMods b == 0 && decide (imgMatch b ≤ 64)
    && decide (imgDisp b ≤ 512)
    && (List.range (imgMatch b)).all (fun k => allZero (seg b (64 + 8 * k + 4) 4))
    && i.matches_.all (fun e => decide (e.1 < 0xC000) && decide (0xC000 ≤ e.2) && decide (e.2 < 0xC800))
    && i.dispatch.all (fun e => decide (e.1 < 4096) && decide (e.2 < 0xD000))

/-- The header of a module set (R424). -/
def modsetOk (b : Bytes) : Bool :=
  imageFrame 0xA7C9 b && field b 3 1 == 0 && allZero (seg b 6 5) && decide (imgMods b ≤ 32) && imgMatch b == 0
    && imgDisp b == 0

/-- Both signatures over a label and everything before the signature block (R425). -/
def imageSigned (label : String) (pk ec b : Bytes) : Bool :=
  let msg := ascii label ++ b.take (imgSigAt b)
  dsaOk 2 pk msg (seg b (imgSigAt b) 4627) && ecOk ec msg (seg b (imgSigAt b + 4632) 96)

/-- Fields of a module table entry (R432). -/
def modOpcode (e : Bytes) : Nat := field e 0 2
def modEntry (e : Bytes) : Nat := field e 2 2
def modUnit (e : Bytes) : Nat := field e 4 1
def modSlices (e : Bytes) : Nat := field e 5 1
def modKeys (e : Bytes) : Nat := field e 6 1
def modDescs (e : Bytes) : Nat := field e 7 1
def modUsage (e : Bytes) : Nat := field e 8 4
def modService (e : Bytes) : Nat := field e 0xC 4
def modDesc (e : Bytes) (i : Nat) : Nat := field e (0x10 + 4 * i) 4
def modMask (e : Bytes) (s : Nat) : Bool := bit (field e 0x20 32) s

/-- A module entry obeys R432; `words` is WORD_COUNT. -/
def modEntryOk (words : Nat) (e : Bytes) : Bool :=
  let o := modOpcode e
  let descOk (i : Nat) : Bool :=
    let x := modDesc e i
    if i < modDescs e then bits x 30 24 == 0 && bits x 23 0 != 0 else x == 0
  (if modUnit e = 1 then decide (0x03C0 ≤ o) && decide (o ≤ 0x03FF) && modSlices e == 1
    else modUnit e == 2 && decide (0x06C0 ≤ o) && decide (o ≤ 0x06FF) && decide (1 ≤ modSlices e)
      && decide (modSlices e ≤ 8))
    && decide (0xC800 ≤ modEntry e) && decide (modEntry e < 0xC800 + words)
    && decide (modKeys e ≤ 3) && decide (modDescs e ≤ 4) && (modKeys e == 0 || modUsage e != 0)
    && decide (1000 ≤ modService e) && decide (modService e ≤ 100000000)
    && (List.range 4).all descOk

/-! The microword (R423). -/

/-- Fields of a microword. -/
def mwNext (w : BitVec 160) : Nat := bits w.toNat 159 144
def mwForm (w : BitVec 160) : Nat := bits w.toNat 143 141
def mwCond (w : BitVec 160) : Nat := bits w.toNat 140 136
def mwUnit (w : BitVec 160) : Nat := bits w.toNat 135 132
def mwPrim (w : BitVec 160) : Nat := bits w.toNat 131 124
def mwAlu (w : BitVec 160) : Nat := bits w.toNat 63 56
def mwImm (w : BitVec 160) : Nat := bits w.toNat 39 0

/-- Source and destination register numbers of the ALU field (log 14). -/
def mwSrc (w : BitVec 160) : Nat := bits w.toNat 51 48
def mwDst (w : BitVec 160) : Nat := bits w.toNat 43 40

/-- A primitive code that its unit defines (R210, R283, R423); vendor units are not described. -/
def primOk (unit prim : Nat) : Bool :=
  if unit = 1 then decide (prim ≤ 9)
  else if unit = 2 then decide (prim ≤ 8)
  else if unit = 3 then decide (prim ≤ 1)
  else true

/-- Where a word at address `a` of a module set may lead. -/
def succs (a : Nat) (w : BitVec 160) : List Nat :=
  match mwForm w with
  | 0 => [a + 1]
  | 1 => [mwNext w, a + 1]
  | 2 => [mwNext w, a + 1]
  | 3 => [mwNext w, a + 1]
  | _ => []

/-- Addresses that code starting at those of `todo` can reach. -/
def reachFrom (ws : List (BitVec 160)) : Nat → List Nat → List Nat → List Nat
  | 0, _, seen => seen
  | _ + 1, [], seen => seen
  | n + 1, a :: todo, seen =>
    if seen.contains a then reachFrom ws n todo seen
    else
      match ws[a - 0xC800]? with
      | some w => reachFrom ws n (succs a w ++ todo) (a :: seen)
      | none => reachFrom ws n todo seen

/-- A microword of a module set obeys R434; `units` are the units of the modules whose code can reach it. -/
def modWordOk (units : List Nat) (w : BitVec 160) : Bool :=
  decide (0xC800 ≤ mwNext w) && decide (mwNext w < 0xD000) && mwForm w != 5 && decide (mwCond w ≤ 5)
    && (mwUnit w == 0 || mwUnit w == 3 || ((mwUnit w == 1 || mwUnit w == 2) && units.all (· == mwUnit w)))
    && primOk (mwUnit w) (mwPrim w) && decide (mwAlu w < 0x20)

/-- Every microword of a module set obeys R434. -/
def modWordsOk (i : Image) : Bool :=
  let reach := i.modules.map (fun e =>
    (modUnit e, reachFrom i.words (2 * i.words.length + 2) [modEntry e] []))
  i.words.zipIdx.all (fun (e : BitVec 160 × Nat) =>
    modWordOk ((reach.filter (fun r => r.2.contains (0xC800 + e.2))).map (·.1)) e.1)

/-- The dispatch index of an opcode (R422). -/
def dispIndex (opcode : Nat) : Nat := opcode / 256 % 16 * 256 + opcode % 256

/-- The image assigns an opcode in its dispatch table. -/
def assigns (i : Image) (opcode : Nat) : Bool := i.dispatch.any (fun e => e.1 == dispIndex opcode)

/-- The module entry that claims an opcode, in the set in force (R435). -/
def moduleFor (d : Dev) (opcode : Nat) : Option Bytes := d.modset.modules.find? (fun e => modOpcode e == opcode)

/-! Loads (R426, R427, R433). -/

/-- A command still runs on a bank of the vendor (`ext` false) or extension region. -/
def bankInUse (d : Dev) (ext : Bool) (b : Nat) : Bool :=
  d.cmds.any (fun c => !c.classes.isEmpty && c.executing && (if ext then c.banks.2 else c.banks.1) == b)

/-- Tholdo's patch keys, of which mask ROM holds the digests (R425, log 11). -/
def patchKey : Bytes := Config.rom 31
def patchEcKey : Bytes := Config.rom 32

/-- The first check of R426 that fails, of checks 1 to 5. -/
def patchRefused (d : Dev) (b : Bytes) : Option Status :=
  let i := imageOf b
  if bankInUse d false (1 - d.micro.vendorBank) || d.micro.vendorDue.isSome then some .policyRefused
  else if !patchOk b || !imageSigned "ORNATH-PATCH-1" patchKey patchEcKey b then some .inputInvalid
  else if i.svn < floorOf d.otp || i.svn < d.patch.svn then some .policyRefused
  else if d.modset.modules.any (fun e => assigns i (modOpcode e)) then some .policyRefused
  else none

/-- PATCH_LOAD (R426, R427): the image goes into the free bank of every sequencer; the command waits for the
round at which it takes force. -/
def execPatchLoad (id : Nat) : State → Out :=
  execOp .patchLoad id (fun m c d =>
    let b := inp m d c 0
    match patchRefused d b with
    | some st => failWith st id d
    | none =>
      if !Config.stdOk .kat [] [b] then failWith .invariantFail id d
      else
        setCmd { c with stage := .waiting } { d with micro := { d.micro with
          vendor := tset d.micro.vendor (1 - d.micro.vendorBank) (imageOf b), vendorDue := some id } })

/-- The first check of R433 that fails. -/
def modsetRefused (d : Dev) (b key : Bytes) : Option Status :=
  let i := imageOf b
  let want := seg d.otp.prov 0x68 32
  if allZero want || bankInUse d true (1 - d.micro.extBank) || d.micro.extDue.isSome then some .policyRefused
  else if !modsetOk b || sha3_256 key != want
    || !imageSigned "ORNATH-MODULE-1" (key.take 2592) (key.drop 2592) b then some .inputInvalid
  else if !i.modules.all (modEntryOk i.words.length) || !decide (i.modules.map modOpcode).Nodup
    || i.modules.any (fun e => assigns d.patch (modOpcode e)) || !modWordsOk i then some .fieldRejected
  else none

/-- MODULE_LOAD (R433). -/
def execModuleLoad (id : Nat) : State → Out :=
  execOp .moduleLoad id (fun m c d =>
    let b := inp m d c 0
    match modsetRefused d b (inp m d c 1) with
    | some st => failWith st id d
    | none =>
      setCmd { c with stage := .waiting } { d with micro := { d.micro with
        ext := tset d.micro.ext (1 - d.micro.extBank) (imageOf b), extDue := some id } })

/-- A revision in force: the header's, or the mask ROM's 1 (R427, R180 [06], R243 [08]). -/
def revOf (n : Nat) : Nat := if n = 0 then 1 else n

/-- The command of the patch in force completes (step 7 of R427). -/
def patchDone (id : Nat) (d : Dev) : Dev :=
  conclude id { status := .ok, outs := [], result := leBytes 2 d.patch.version ++ leBytes 1 d.patch.svn } d

/-- A new patch takes force (step 5 of R427): revisions, PATCH_REQUIRED; the command completes at once, or, where the
floor is to be raised, with that OTP write (steps 6 and 7). -/
def switchVendor (id : Nat) (d : Dev) : Dev :=
  let i := tget noImage d.micro.vendor (1 - d.micro.vendorBank)
  let up := i.raiseFloor && decide (floorOf d.otp < i.svn)
  let d := { d with
    micro := { d.micro with vendorBank := 1 - d.micro.vendorBank, vendorDue := none, draining := true,
                            patchRequired := false, fndsaRev := revOf i.fndsaRev, hqcRev := revOf i.hqcRev,
                            floorDue := if up then some (id, i.svn) else none } }
  if up then d else patchDone id d

/-- The floor raised to an SVN: the bits below it set (R429, step 6 of R427). -/
def raiseFloor (id svn : Nat) (d : Dev) : Dev :=
  patchDone id { d with
    micro := { d.micro with floorDue := none }
    otp := { d.otp with floor := d.otp.floor.write (BitVec.ofNat 64 (2 ^ svn - 1)) } }

/-- A new module set takes force. -/
def switchExt (id : Nat) (d : Dev) : Dev :=
  conclude id (bare .ok) { d with micro := { d.micro with
    extBank := 1 - d.micro.extBank, extDue := none, draining := true } }

/-- BANK_SWITCH (R421, R427): at the boundary of a scheduling round. -/
def execBankSwitch (extension : Bool) : State → Out :=
  onDev (fun d =>
    if !d.atRound || !d.alive || (!extension && d.micro.floorDue.isSome) then d
    else
      match extension, d.micro.vendorDue, d.micro.extDue with
      | false, some id, _ => switchVendor id d
      | true, _, some id => switchExt id d
      | _, _, _ => d)

/-- OLD_BANK_DRAIN_DONE (R427): no command runs on a bank no longer in force. -/
def execOldBankDrainDone : State → Out :=
  onDev (fun d =>
    if bankInUse d false (1 - d.micro.vendorBank) || bankInUse d true (1 - d.micro.extBank) then d
    else { d with micro := { d.micro with draining := false } })

/-! Contexts (R419 to R422). -/

/-- Images of the banks a command runs on. -/
def vendorOf (d : Dev) (c : Cmd) : Image := tget noImage d.micro.vendor c.banks.1
def extOf (d : Dev) (c : Cmd) : Image := tget noImage d.micro.ext c.banks.2

/-- The module entry a command runs: the one of its own bank. -/
def moduleOf (d : Dev) (c : Cmd) : Option Bytes :=
  (extOf d c).modules.find? (fun e => modOpcode e == c.pkt.opcode)

/-- The dispatch table entry of an opcode on a command's banks: a module's, the patch's, or the mask ROM's,
whose content the manual does not give (log 11). -/
def dispatchTo (d : Dev) (c : Cmd) : Nat :=
  match moduleOf d c with
  | some e => modEntry e
  | none =>
    match (vendorOf d c).dispatch.find? (fun e => e.1 == dispIndex c.pkt.opcode) with
    | some e => e.2
    | none => field (Config.rom 30) (2 * dispIndex c.pkt.opcode) 2 % 0xC000

/-- The address from which the word at `a` is fetched: a patch-match register may redirect it (R422). -/
def redirect (i : Image) (a : Nat) : Nat := ((i.matches_.find? (fun e => e.1 == a)).map (·.2)).getD a

/-- The word held at an address of patch RAM; mask ROM's words are not given (R420). -/
def wordAt (d : Dev) (c : Cmd) (a : Nat) : Option (BitVec 160) :=
  if a < 0xC000 then none
  else if a < 0xC800 then some ((vendorOf d c).words.getD (a - 0xC000) 0)
  else some ((extOf d c).words.getD (a - 0xC800) 0)

/-- A context at the start of a command. -/
def ctxStart (id a : Nat) : MicroCtx :=
  { regs := [], stack := [], next := a, zero := false, carry := false, neg := false, primBusy := false,
    dmaErr := false, cmd := id, ended := none }

/-- The sequencer and context that carry a command. -/
def ctxKey (d : Dev) (id : Nat) : Option Nat := (d.micro.ctxs.find? (fun e => e.2.cmd == id)).map (·.1)

/-- A sequencer takes dispatches: not suspended by a fault, its control store checked again (R438). -/
def seqFree (d : Dev) (sq : Nat) : Bool :=
  !d.micro.suspended.contains sq && decide (tget 0 d.micro.recheck sq ≤ d.clk)

/-- The first free context of a sequencer that takes dispatches (R419). -/
def freeCtx (d : Dev) : Option Nat :=
  (List.range 2048).find? (fun k => seqFree d (k / 64) && (tfind d.micro.ctxs k).isNone)

/-- A context taken for a command. -/
def openCtx (c : Cmd) (k : Nat) (d : Dev) : Dev :=
  { d with micro := { d.micro with ctxs := tset d.micro.ctxs k (ctxStart c.id (redirect (vendorOf d c) (dispatchTo d c))) } }

/-- A context replaced. -/
def setCtx (k : Nat) (x : MicroCtx) (d : Dev) : Dev :=
  { d with micro := { d.micro with ctxs := tset d.micro.ctxs k x } }

/-- The CONTAINED fault of a sequencer, for the command that met it (R438, R411 [14]). -/
def seqFault (sq id : Nat) (d : Dev) : Dev := raiseFault (224 + sq) 0 0 (some id) d

/-- The job named an operand, slot or descriptor outside it (R438). -/
def jobFault (id : Nat) (d : Dev) : Dev := seqFault (((ctxKey d id).getD 0) / 64) id d

/-- The context goes on at an address; a reserved one raises the fault of the sequencer (R420, R422). -/
def goTo (k : Nat) (c : Cmd) (x : MicroCtx) (a : Nat) (d : Dev) : Dev :=
  let a := redirect (vendorOf d c) (a % 65536)
  if a ≥ 0xD000 then seqFault (k / 64) c.id d else setCtx k { x with next := a } d

/-- The ALU part of a word (log 14): the result is not given, ZERO and NEGATIVE follow from it. -/
def aluStep (w : BitVec 160) (x : MicroCtx) : MicroCtx :=
  let args := [leBytes 8 (tget 0 x.regs (mwSrc w)).toNat, leBytes 8 (tget 0 x.regs (mwDst w)).toNat]
  let r : Word64 := BitVec.ofNat 64 (leNat (std .microAlu 8 [mwAlu w, mwImm w] args))
  { x with regs := tset x.regs (mwDst w) r, zero := r == 0, neg := r.getLsbD 63,
           carry := Config.stdOk .microAlu [mwAlu w, mwImm w] args }

/-- The unit part: a primitive is issued and runs while later words execute (R423). -/
def issue (w : BitVec 160) (x : MicroCtx) : MicroCtx := if mwUnit w = 0 then x else { x with primBusy := true }

/-- COND; a vendor condition is a free value (log 14). -/
def condOf (w : BitVec 160) (x : MicroCtx) (d : Dev) : Bool × Dev :=
  match mwCond w with
  | 0 => (true, d)
  | 1 => (!x.primBusy, d)
  | 2 => (x.zero, d)
  | 3 => (x.carry, d)
  | 4 => (x.neg, d)
  | 5 => (x.dmaErr, d)
  | _ => let (n, d) := drawNat d; (n % 2 == 1, d)

/-- A word that is a fault to execute: a reserved condition, or a reserved primitive (R423, R438). -/
def wordBad (w : BitVec 160) : Bool :=
  (decide (6 ≤ mwCond w) && decide (mwCond w ≤ 0xF)) || !primOk (mwUnit w) (mwPrim w)

/-- A module job that MODULE_OPCODE has not started. -/
def notStarted (d : Dev) (c : Cmd) : Bool := c.op == .moduleOp && !(d.job c.id).started

/-- A microword of one of the forms `forms` executed by a context that carries a running command: of patch RAM,
only the word that stands there. `f` forms what follows it. -/
def microRun (sq : Fin 32) (cx : Fin 64) (w : BitVec 160) (forms : List Nat)
    (f : Nat → Cmd → MicroCtx → Dev → Dev) (d : Dev) : Dev :=
  let k := 64 * sq.val + cx.val
  match tfind d.micro.ctxs k with
  | none => d
  | some x =>
    match findCmd d x.cmd with
    | none => d
    | some c =>
      if !forms.contains (mwForm w) || x.ended.isSome || c.stage != .running
        || (wordAt d c x.next).any (· != w) || !d.alive || notStarted d c then d
      else if wordBad w then seqFault sq c.id d
      else f k c (issue w (aluStep w x)) d

/-- MICROWORD (R422, R423): sequential, or a branch. -/
def execMicroword (sq : Fin 32) (cx : Fin 64) (w : BitVec 160) : State → Out :=
  onDev (microRun sq cx w [0, 1, 2] (fun k c x d =>
    let (b, d) := condOf w x d
    let jump := (mwForm w == 1 && b) || (mwForm w == 2 && !b)
    goTo k c x (if jump then mwNext w else x.next + 1) d))

/-- MICRO_CALL (R422): a ninth push is a fault. -/
def execMicroCall (sq : Fin 32) (cx : Fin 64) (w : BitVec 160) : State → Out :=
  onDev (microRun sq cx w [3] (fun k c x d =>
    if x.stack.length ≥ 8 then seqFault sq c.id d
    else goTo k c { x with stack := (x.next + 1) % 65536 :: x.stack } (mwNext w) d))

/-- MICRO_RETURN (R422): a pop from an empty stack is a fault. -/
def execMicroReturn (sq : Fin 32) (cx : Fin 64) (w : BitVec 160) : State → Out :=
  onDev (microRun sq cx w [4] (fun k c x d =>
    match x.stack with
    | [] => seqFault sq c.id d
    | a :: st => goTo k c { x with stack := st } a d))

/-- MICRO_DISPATCH (R422). -/
def execMicroDispatch (sq : Fin 32) (cx : Fin 64) (w : BitVec 160) : State → Out :=
  onDev (microRun sq cx w [5] (fun k c x d => goTo k c x (dispatchTo d c) d))

/-! Module jobs (R435 to R438). -/

/-- A module job has reached an END form (R436): its outcome stands, and it holds its units to SERVICE_NS. A DMA
error on the command withholds its outputs (R468 [17]). -/
def endJob (k : Nat) (c : Cmd) (x : MicroCtx) (ok : Bool) (d : Dev) : Dev :=
  let d := setCtx k { x with ended := some ok } d
  if c.op != .moduleOp then d
  else
    match c.dmaErr with
    | some st => failWith st c.id d
    | none => if ok then okOuts (d.job c.id).holding c.id d else failWith .invariantFail c.id d

/-- MICRO_END_RELEASE (R436). -/
def execMicroEndRelease (sq : Fin 32) (cx : Fin 64) (w : BitVec 160) : State → Out :=
  onDev (microRun sq cx w [6] (fun k c x d => endJob k c x true d))

/-- MICRO_END_WITHHOLD (R436). -/
def execMicroEndWithhold (sq : Fin 32) (cx : Fin 64) (w : BitVec 160) : State → Out :=
  onDev (microRun sq cx w [7] (fun k c x d => endJob k c x false d))

/-- PRIMITIVE_DONE (R423). -/
def execPrimitiveDone (sq : Fin 32) (cx : Fin 64) : State → Out :=
  onDev (fun d =>
    let k := 64 * sq.val + cx.val
    match tfind d.micro.ctxs k with
    | some x => setCtx k { x with primBusy := false } d
    | none => d)

/-- MODULE_OPCODE (R435): the job starts at the module's ENTRY with PARAM in context register 0. -/
def execModuleOpcode (id : Nat) : State → Out :=
  onDev (fun d =>
    match findCmd d id, ctxKey d id with
    | some c, some k =>
      match moduleOf d c with
      | some e =>
        if c.op = .moduleOp && c.stage == .running && c.outcome.isNone && !(d.job id).started then
          setJob id { d.job id with started := true } (setCtx k { ctxStart id (modEntry e) with
            regs := [(0, BitVec.ofNat 64 c.prm)], dmaErr := c.dmaErr.isSome } d)
        else d
      | none => d
    | _, _ => d)

/-- MODULE_OVERRUN (R438): the job is not at an END form at SERVICE_NS. -/
def execModuleOverrun (id : Nat) : State → Out :=
  onDev (fun d =>
    match findCmd d id with
    | some c =>
      if c.op = .moduleOp && c.stage == .running && c.outcome.isNone && decide (c.endAt ≤ d.clk) then
        jobFault id d
      else d
    | none => d)

/-! Primitives. -/

/-- A primitive of the unit class `k` acting for job `id`: `f` answers the job's memory afterwards, or none when
the primitive names something outside the job (R438). -/
def primitive (k : UnitClass) (id : Nat) (f : Cmd → JobMem → Dev → Option (JobMem × Dev)) : State → Out :=
  onDev (fun d =>
    match findCmd d id with
    | none => d
    | some c =>
      if c.stage != .running || !c.units.any (fun h => h.cls == k) || !d.alive || notStarted d c then d
      else
        match f c (d.job id) d with
        | some (j, d) => setJob id j d
        | none => jobFault id d)

/-- Prime of a modulus select, and bytes of a coefficient (R178, R210). -/
def modQ : Modulus → Nat
  | .q3329 => 3329
  | .q8380417 => 8380417
  | .q12289 => 12289
def coefBytes : Modulus → Nat
  | .q12289 => 2
  | _ => 4

/-- Slots that a polynomial of `n` coefficients fills (R210). -/
def slotsFor (m : Modulus) (n : Nat) : Nat := max 1 (cdiv (n * coefBytes m) 1024)

/-- `k` slots from slot `i`; none beyond the 64. -/
def getSlots (j : JobMem) (i k : Nat) : Option Bytes :=
  if i + k ≤ 64 then some ((List.range k).flatMap (fun a => fit 1024 (tget [] j.slots (i + a)))) else none

/-- Bytes stored from slot `i` on, in whole slots. -/
def putSlots (i : Nat) (b : Bytes) (j : JobMem) : Option JobMem :=
  let k := cdiv b.length 1024
  if i + k ≤ 64 then
    some { j with slots := (List.range k).foldl (fun s a => tset s (i + a) (fit 1024 (seg b (1024 * a) 1024))) j.slots }
  else none

/-- A transform of a polynomial in place; `inv` for the inverse with scaling. -/
def nttOp (inv : Nat) (id : Nat) (slot : Fin 64) (m : Modulus) (n : Nat) : State → Out :=
  primitive .lattice id (fun _ j d => do
    let b ← getSlots j slot (slotsFor m n)
    let j ← putSlots slot (std .ntt b.length [inv, modQ m, n] [b]) j
    pure (j, d))

/-- NTT_FWD (R210). -/
def execNttFwd (id : Nat) (slot : Fin 64) (m : Modulus) (n : Nat) : State → Out := nttOp 0 id slot m n

/-- NTT_INV (R210). -/
def execNttInv (id : Nat) (slot : Fin 64) (m : Modulus) (n : Nat) : State → Out := nttOp 1 id slot m n

/-- Coefficients of packed slots, and their packing. -/
def coefs (m : Modulus) (b : Bytes) : List Nat :=
  (List.range (b.length / coefBytes m)).map (fun i => field b (i * coefBytes m) (coefBytes m))
def packCoefs (m : Modulus) (l : List Nat) : Bytes := l.flatMap (leBytes (coefBytes m))

/-- PMUL (R210): coefficient by coefficient; for q = 3,329 the base-case products of FIPS 203 (log 11). -/
def execPmul (id : Nat) (a b d : Fin 64) (m : Modulus) (n : Nat) : State → Out :=
  primitive .lattice id (fun _ j s => do
    let x ← getSlots j a (slotsFor m n)
    let y ← getSlots j b (slotsFor m n)
    let r := if m = .q3329 then std .pmul x.length [n] [x, y]
      else packCoefs m (List.zipWith (fun u v => u * v % modQ m) (coefs m x) (coefs m y))
    let j ← putSlots d r j
    pure (j, s))

/-- PADD, PSUB (R210). -/
def execPaddPsub (id : Nat) (sub : Bool) (a b d : Fin 64) (m : Modulus) (n : Nat) : State → Out :=
  primitive .lattice id (fun _ j s => do
    let x ← getSlots j a (slotsFor m n)
    let y ← getSlots j b (slotsFor m n)
    let f (u v : Nat) : Nat := if sub then (u + modQ m - v % modQ m) % modQ m else (u + v) % modQ m
    let j ← putSlots d (packCoefs m (List.zipWith f (coefs m x) (coefs m y))) j
    pure (j, s))

/-- SAMPLE_UNIFORM (R210): from a public seed of 34 bytes. -/
def execSampleUniform (id : Nat) (seed : Bytes) (d : Fin 64) (m : Modulus) : State → Out :=
  primitive .lattice id (fun _ j s => do
    let j ← putSlots d (std .sample 1024 [0, modQ m] [fit 34 seed]) j
    pure (j, s))

/-- SAMPLE_CBD (R210). -/
def execSampleCbd (id : Nat) (eta : Nat) (src d : Fin 64) (m : Modulus) : State → Out :=
  primitive .lattice id (fun _ j s => do
    let x ← getSlots j src 1
    let j ← putSlots d (std .sample 1024 [1, eta, modQ m] [x]) j
    pure (j, s))

/-- One Keccak-f[1600] permutation. -/
def keccakF (b : Bytes) : Bytes := std .keccakF 200 [] [b]

/-- Blocks absorbed into a Keccak state; `n` bounds their number. -/
def absorb (rate : Nat) : Nat → Bytes → Bytes → Bytes
  | 0, st, _ => st
  | n + 1, st, b =>
    if b.isEmpty then st
    else absorb rate n (keccakF (xorB st (fit 200 (b.take rate)))) (b.drop rate)

/-- Blocks squeezed from a Keccak state: the state afterwards and the bytes. -/
def squeeze (rate : Nat) : Nat → Bytes → Nat → Bytes × Bytes
  | 0, st, _ => (st, [])
  | n + 1, st, k =>
    if k = 0 then (st, [])
    else
      let (st', r) := squeeze rate n (keccakF st) (k - min rate k)
      (st', st.take (min rate k) ++ r)

/-- KECCAK_ABSORB (R210): the unit keeps the rate with its state, as the 201st byte. -/
def execKeccakAbsorb (id : Nat) (unit : Fin 2) (rate : Nat) (src : Fin 64) (count : Nat) : State → Out :=
  primitive .lattice id (fun _ j s => do
    let x ← getSlots j src (cdiv count 1024)
    let st := absorb (min 200 (max 1 rate)) (count + 1) (fit 200 (tget [] j.keccak unit)) (x.take count)
    pure ({ j with keccak := tset j.keccak unit (st ++ leBytes 1 (min 200 (max 1 rate))) }, s))

/-- KECCAK_SQUEEZE (R210). -/
def execKeccakSqueeze (id : Nat) (unit : Fin 2) (d : Fin 64) (count : Nat) : State → Out :=
  primitive .lattice id (fun _ j s => do
    let k := fit 201 (tget [] j.keccak unit)
    let (st, b) := squeeze (max 1 (field k 200 1)) (count + 1) (k.take 200) count
    let j ← putSlots d b j
    pure ({ j with keccak := tset j.keccak unit (st ++ k.drop 200) }, s))

/-- KEY_SHARES (R210, R211): d + 1 shares at the order fixed at dispatch (R182), in consecutive slots. -/
def execKeyShares (id : Nat) (key : Fin 3) (d : Fin 64) : State → Out :=
  primitive .lattice id (fun c j s => do
    let e ← c.key key
    let (l, s) := sharesOf e.material j.order s
    let w := max 1 (cdiv e.material.length 1024)
    let j ← putSlots d (l.flatMap (fit (1024 * w))) j
    pure (j, s))

/-- ZERO (R210). -/
def execDamaskZero (id : Nat) (first : Fin 64) (count : Nat) : State → Out :=
  primitive .lattice id (fun _ j s => do
    let j ← putSlots first (zeros (1024 * count)) j
    pure (j, s))

/-! Serge primitives (R283). -/

/-- The longest operand of a job: 8 words for each slice, 256 when it holds eight. -/
def operandMax (c : Cmd) : Nat :=
  let s := ((c.units.filter (fun h => h.cls == .classical)).map (·.n)).sum
  if s ≥ 8 then 256 else 8 * s

/-- Words of operand memory that the job's slices own (R259). -/
def operandSpace (c : Cmd) : Nat := 256 * ((c.units.filter (fun h => h.cls == .classical)).map (·.n)).sum

/-- A run of `w` words from offset `off` is an operand of the job. -/
def operandOk (c : Cmd) (off w : Nat) : Bool :=
  decide (4 ≤ w) && decide (w ≤ operandMax c) && decide (off + w ≤ operandSpace c)

/-- An operand as a number, least significant word first. -/
def getOperand (j : JobMem) (off w : Nat) : Nat :=
  leNat ((List.range w).flatMap (fun i => leBytes 8 (tget 0 j.operand (off + i)).toNat))

/-- An operand stored. -/
def putOperand (off w v : Nat) (j : JobMem) : JobMem :=
  { j with operand := (List.range w).foldl (fun m i => tset m (off + i) (BitVec.ofNat 64 (v / 2 ^ (64 * i)))) j.operand }

/-- SET_MODULUS. -/
def execSetModulus (id : Nat) (off w : Nat) : State → Out :=
  primitive .classical id (fun c j s =>
    if operandOk c off w then some ({ j with modulus := getOperand j off w, modWords := w }, s) else none)

/-- The inverse of an odd number modulo 2^(64 w), each pass doubling the bits that are right. -/
def invPow2 (n w : Nat) : Nat :=
  (List.range 14).foldl (fun x _ => x * (2 ^ (64 * w) + 2 - n * x % 2 ^ (64 * w)) % 2 ^ (64 * w)) 1

/-- The Montgomery product a × b × R⁻¹ mod n with R = 2^(64 w). -/
def montgomery (n w a b : Nat) : Nat :=
  let r := 2 ^ (64 * w)
  let q := (a * b % r) * (r - invPow2 n w) % r
  (a * b + q * n) / r % n

/-- A Montgomery product of two operands under the set modulus; under an even one, or none, the result is a free
value (log 14). -/
def montOp (id a b d : Nat) : State → Out :=
  primitive .classical id (fun c j s =>
    let w := j.modWords
    if j.modulus % 2 = 1 then
      if operandOk c a w && operandOk c b w && operandOk c d w then
        some (putOperand d w (montgomery j.modulus w (getOperand j a w) (getOperand j b w)) j, s)
      else none
    else if d + w ≤ operandSpace c then
      let (r, s) := draw (8 * w) s
      some (putOperand d w (leNat r) j, s)
    else none)

/-- MONT_MUL. -/
def execMontMul (id : Nat) (a b d : Nat) : State → Out := montOp id a b d

/-- MONT_SQR. -/
def execMontSqr (id : Nat) (a d : Nat) : State → Out := montOp id a a d

/-- MAC: into the accumulator of 2w + 1 words. -/
def execMac (id : Nat) (a b w : Nat) : State → Out :=
  primitive .classical id (fun c j s =>
    if operandOk c a w && operandOk c b w then
      some ({ j with acc := (j.acc + getOperand j a w * getOperand j b w) % 2 ^ (64 * (2 * w + 1)) }, s)
    else none)

/-- ADD_MOD, SUB_MOD, under the set modulus; with none set, the result is a free value (log 14). -/
def execAddModSubMod (id : Nat) (sub : Bool) (a b d : Nat) : State → Out :=
  primitive .classical id (fun c j s =>
    let w := j.modWords
    let n := j.modulus
    if n = 0 then
      if d + w ≤ operandSpace c then
        let (r, s) := draw (8 * w) s
        some (putOperand d w (leNat r) j, s)
      else none
    else if operandOk c a w && operandOk c b w && operandOk c d w then
      let x := getOperand j a w
      let y := getOperand j b w
      some (putOperand d w (if sub then (x + (n - y % n)) % n else (x + y) % n) j, s)
    else none)

/-- CSWAP: the bit is in a slice register that no described operation loads, a free value (log 14). -/
def execCswap (id : Nat) (a b w : Nat) : State → Out :=
  primitive .classical id (fun c j s =>
    if operandOk c a w && operandOk c b w then
      let (n, s) := drawNat s
      let x := getOperand j a w
      let y := getOperand j b w
      some (if n % 2 = 1 then putOperand b w x (putOperand a w y j) else j, s)
    else none)

/-- Component `i` of the material of a key, in the order of R266 [09]: its number. -/
def keyComponent (e : Entry) (i : Nat) : Option Nat :=
  let m := e.material
  let cut (ls : List Nat) : Option Bytes :=
    if i < ls.length then some (seg m (ls.take i).sum (ls.getD i 0)) else none
  let half := m.length / 2
  if e.typ = 0x48 then
    let k := 8 * (e.subtype + 1)
    (cut [k, 32, k, k / 2, k / 2, k / 2, k / 2, k / 2]).map beNat
  else if 0x50 ≤ e.typ && e.typ ≤ 0x55 then
    (cut [(m.length - 1) / 3, m.length - (m.length - 1) / 3]).map beNat
  else if 0x58 ≤ e.typ && e.typ ≤ 0x5B then (cut [half, half]).map leNat
  else (cut [m.length]).map beNat

/-- Words that a component takes. -/
def componentWords (e : Entry) (i : Nat) : Nat :=
  let k := 8 * (e.subtype + 1)
  let n := if e.typ = 0x48 then (if i = 1 then 32 else if i ≤ 2 then k else k / 2)
    else if 0x50 ≤ e.typ && e.typ ≤ 0x55 then
      (if i = 0 then (e.material.length - 1) / 3 else e.material.length - (e.material.length - 1) / 3)
    else if 0x58 ≤ e.typ && e.typ ≤ 0x5B then e.material.length / 2
    else e.material.length
  max 4 (cdiv n 8)

/-- KEY_OPERAND (R283, R284). -/
def execKeyOperand (id : Nat) (key : Fin 3) (comp d : Nat) : State → Out :=
  primitive .classical id (fun c j s => do
    let e ← c.key key
    let v ← keyComponent e comp
    if operandOk c d (componentWords e comp) then some (putOperand d (componentWords e comp) v j, s) else none)

/-- RANDOM: from the blinding generator. -/
def execSergeRandom (id : Nat) (d w : Nat) : State → Out :=
  primitive .classical id (fun c j s =>
    if operandOk c d w then
      let (r, s) := draw (8 * w) s
      some (putOperand d w (leNat r) j, s)
    else none)

/-- ZERO. -/
def execSergeZero (id : Nat) (d w : Nat) : State → Out :=
  primitive .classical id (fun c j s => if operandOk c d w then some (putOperand d w 0 j, s) else none)

/-! DMA primitives (R423, R437). -/

/-- The job's unit is a Damask core; else it holds Serge slices. -/
def onDamask (c : Cmd) : Bool := c.units.any (fun h => h.cls == .lattice)

/-- Bytes put at a slot, or at a word offset of operand memory. -/
def putMem (c : Cmd) (dst : Nat) (b : Bytes) (j : JobMem) : Option JobMem :=
  if onDamask c then putSlots dst b j
  else if dst + cdiv b.length 8 ≤ operandSpace c then some (putOperand dst (cdiv b.length 8) (leNat b) j)
  else none

/-- `n` bytes from a slot, or from a word offset of operand memory. -/
def getMem (c : Cmd) (src n : Nat) (j : JobMem) : Option Bytes :=
  if onDamask c then (getSlots j src (cdiv n 1024)).map (·.take n)
  else if src + cdiv n 8 ≤ operandSpace c then some (leBytes n (getOperand j src (cdiv n 8)))
  else none

/-- A DMA primitive of a job that holds an engine. -/
def dmaPrim (id : Nat) (f : Memory → Cmd → JobMem → Dev → Option (JobMem × Dev)) : State → Out :=
  onDevM (fun m d =>
    match findCmd d id with
    | none => d
    | some c =>
      if c.stage != .running || c.units.isEmpty || !d.alive || notStarted d c then d
      else
        match f m c (d.job id) d with
        | some (j, d) => setJob id j d
        | none => jobFault id d)

/-- DMA_READ_DESCRIPTOR (R423): an input of the command, once its bytes are there; a DMA error on the command
shows in COND 0x05. -/
def execDmaReadDescriptor (id : Nat) (desc dst len : Nat) : State → Out :=
  dmaPrim id (fun m c j d =>
    if desc ≥ c.pkt.ndesc || (c.pkt.desc desc).isOut || len > c.len desc then none
    else
      match c.dmaErr, inputOf m d c desc with
      | some _, _ =>
        let mark (e : Nat × MicroCtx) : Nat × MicroCtx := if e.2.cmd = id then (e.1, { e.2 with dmaErr := true }) else e
        some (j, { d with micro := { d.micro with ctxs := d.micro.ctxs.map mark } })
      | none, some b => (putMem c dst (b.take len) j).map (fun j => (j, d))
      | none, none => some (j, d))

/-- DMA_WRITE_HOLDING (R423, R437): into the holding area of an output of the command. -/
def execDmaWriteHolding (id : Nat) (desc src len : Nat) : State → Out :=
  dmaPrim id (fun _ c j d =>
    if desc ≥ c.pkt.ndesc || !(c.pkt.desc desc).isOut || len > c.len desc then none
    else (getMem c src len j).map (fun b =>
      ({ j with holding := tset j.holding desc (fit (c.len desc) b) }, d)))

end Sys2Proof.Machine
end

