-- ==== Sys2Proof/Machine/Custody.lean ====
section
/-!
DEFINITION. Life-cycle transitions, debug, identity, custodians and quorum, components, master keys, decommission,
the audit commands (R365 to R393 [13]).
-/
namespace Sys2Proof.Machine

/-- An approval list (R380). -/
def appArg : Arg := inArg .block2 8 98304

/-- Forms of group 0x0B. -/
def custForm (p : Packet) (o : Op) : Form :=
  let zero := p.prm == 0
  match o with
  | .lcTransition => { param := zero, args := withOpt p [inlArg .in0 48 48] [inArg .in1 136 136] }
  | .identityAttest => { param := decide (p.prm ≤ 1), args := [inArg .in0 32 32, outArg .out0 11064] }
  | .debugChallenge =>
    if zero then { args := [outArg .out0 32] }
    else { param := p.prm == 1, args := [inArg .in0 32 5261], lens := p.dlen 0 == 32 || p.dlen 0 == 5261 }
  | .approvalNonce => { param := decide (p.prm ≤ 5), args := [inArg .in0 32 32, outArg .out0 40] }
  | .custodianAdd => { param := zero, args := [inArg .in0 40 40, appArg] }
  | .custodianRemove => { param := zero, args := [inArg .in0 8 8, appArg] }
  | .quorumPolicySet => { param := zero, args := [inArg .in0 16 16, appArg] }
  | .componentImport =>
    match p.prm with
    | 0 => { args := [karArg, inArg .in0 8 8] }
    | 1 => { args := [inArg .in0 1648 1648, appArg] }
    | 2 => { args := [appArg] }
    | n => { param := n == 3 }
  | .masterKeyChange =>
    match p.prm with
    | 0 => { args := [appArg] }
    | 1 =>
      let n := p.dlen 0
      { args := [inArg .blob n n, outArg .out0 n], lens := (List.range 6).any (fun k => blobLen k == n) }
    | n => { param := n == 2 || n == 3 }
  | .masterKeyExport => { param := zero, args := [inArg .in0 11064 11064, appArg, outArg .out0 9800] }
  | .masterKeyImport => { param := zero, args := [inArg .in0 9800 9800, appArg] }
  | .auditConfig =>
    if zero then { args := [inArg .in0 48 48] } else { param := p.prm == 1, args := [inArg .in0 8 8] }
  | .auditSeal => { param := zero }
  | _ => { param := zero, args := [appArg] }

/-! Quorum (R378 to R381). -/

/-- One entry of an approval list. -/
structure Approval where
  cid : Nat
  kind : Nat
  pk : Bytes
  sig : Bytes

/-- The entries of an approval list; none when the bytes do not make a list (R380). -/
def parseApps : Nat → Bytes → Option (List Approval)
  | 0, b => if b.isEmpty then some [] else none
  | n + 1, b =>
    let pl := field b 4 2
    let sl := field b 6 2
    let len := cdiv (8 + pl + sl) 8 * 8
    if b.length < len || field b 2 2 != 0 || !allZero (seg b (8 + pl + sl) (len - 8 - pl - sl)) then none
    else
      (parseApps n (b.drop len)).map (fun l =>
        { cid := field b 0 1, kind := field b 1 1, pk := seg b 8 pl, sig := seg b (8 + pl) sl } :: l)

def approvalsOf (b : Bytes) : Option (List Approval) :=
  if field b 0 1 < 1 || 17 < field b 0 1 || !allZero (seg b 1 7) then none else parseApps (field b 0 1) (b.drop 8)

/-- Input descriptors of a command, in order. -/
def inputIx (c : Cmd) : List Nat := (List.range c.pkt.ndesc).filter (fun i => !(c.pkt.desc i).isOut)

/-- D of a command, its approval list left out (R379). -/
def cmdDigest (m : Memory) (d : Dev) (c : Cmd) : Bytes :=
  let one (i : Nat) : Bytes := leBytes 4 (c.len i) ++ inp m d c i
  sha3_256 (ascii "ORNATH-CMD-1" ++ leBytes 2 c.pkt.opcode ++ leBytes 1 c.prm ++ (inputIx c).dropLast.flatMap one)

/-- An approval by a custodian (R380). -/
def approvalOk (d : Dev) (s cls : Nat) (nonce dig : Bytes) (x : Custodian) (a : Approval) : Bool :=
  let msg := ascii "ORNATH-APPROVE-1" ++ leBytes 1 s ++ leBytes 1 cls ++ nonce ++ dig ++ idDigest d
  a.cid == x.cid && a.kind == x.kind && sha3_256 a.pk == x.digest
    && (if x.kind = 1 then a.pk.length == 1952 && a.sig.length == 3309 && dsaOk 1 a.pk msg a.sig
        else a.pk.length == 97 && a.sig.length == 96 && ecOk a.pk msg a.sig)

/-- The nonces of a slice die (R379). -/
def killNonces (s : Nat) : Dev → Dev := fun d => d.modCust s (fun x => { x with nonces := [] })

/-- What the quorum check answers: the status it fails with, the bitmap of counted CIDs, and the device with the
nonce consumed. -/
structure Quorum where
  bad : Option Status
  cids : Nat
  dev : Dev

/-- The checks of R381 on a command of class `cls`, against a registry and its M; `extra` is a custodian whose
approval must be there too and does not count (R382). With several nonces for one D, the approvals name
theirs. -/
def quorum (m : Memory) (d : Dev) (c : Cmd) (cls : Nat) (reg : List Custodian) (need : Nat)
    (extra : Option Custodian) : Quorum :=
  let s := c.slice
  let dig := cmdDigest m d c
  let live := (d.custody s).nonces.filter (fun n => n.cls == cls && n.digest == dig && decide (d.devTime < n.expiry))
  let apps := approvalsOf (((inputIx c).getLast?.map (inp m d c)).getD [])
  let who := reg ++ extra.toList
  let allOk (n : Nonce) : Bool :=
    match apps with
    | some l => l.all (fun a => who.any (fun x => approvalOk d s cls n.nonce dig x a))
        && extra.all (fun x => l.any (fun a => a.cid == x.cid))
    | none => false
  let pick := (live.find? allOk).or live.head?
  match pick with
  | none => { bad := some (if reg.isEmpty && cls != 3 then .quorumMissing else .approvalInvalid), cids := 0, dev := d }
  | some n =>
    let d := d.modCust s (fun x => { x with nonces := x.nonces.erase n })
    let cids := ((apps.getD []).map (·.cid)).eraseDups.filter (fun k => reg.any (fun x => x.cid == k))
    { bad := if reg.isEmpty && cls != 3 then some .quorumMissing
        else if !allOk n then some .approvalInvalid
        else if cids.length < need then some .quorumMissing
        else none
      cids := maskOf cids
      dev := d }

/-- The check against the slice's own registry and policy; with an empty registry a custodian change needs no
approvals (R378). -/
def ownQuorum (m : Memory) (d : Dev) (c : Cmd) (cls : Nat) (extra : Option Custodian) : Quorum :=
  let k := d.custody c.slice
  if cls = 3 && k.custodians.isEmpty && extra.isNone then { bad := none, cids := 0, dev := d }
  else quorum m d c cls k.custodians (if k.custodians.isEmpty then 0 else k.policy.getD cls 0) extra

/-- MASTER_GEN of a slice. -/
def masterGen (d : Dev) (s : Nat) : Nat := ((d.custody s).master.map (·.gen)).getD 0

/-- OK of a custody command, with its DETAIL: counted CIDs and MASTER_GEN (R390). -/
def custodyOk (id s cids : Nat) (outs : List (Nat × Bytes)) (d : Dev) : Dev :=
  outcomeIs { status := .ok, outs := outs, result := [],
              detail := some (leBytes 4 cids ++ leBytes 2 (masterGen d s) ++ zeros 2) } id d

/-- A quorum command: what it does once its approvals hold. -/
def withQuorum (cls : Nat) (id : Nat) (m : Memory) (c : Cmd) (d : Dev) (f : Nat → Dev → Dev) : Dev :=
  let q := ownQuorum m d c cls none
  match q.bad with
  | some st => failWith st id q.dev
  | none => f q.cids q.dev

/-! Life cycle (R365 to R372). -/

/-- Digest names in OTP: TEST_UNLOCK[n] 10 + n, TEST_LOCK 20, MANUFACTURE 21, CUSTOMER_INIT 22, VENDOR_RETURN 23,
SCRAP 24, the RMA debug token 25 (log 11); the customer's own stand in the provisioning block. -/
def lcDigest (d : Dev) (src dest : Nat) : Option Bytes :=
  if src = 0 && dest = 1 then some (Config.rom 10)
  else if isTestUnlocked src && dest = src + 1 then some (Config.rom 20)
  else if isTestLocked src && src < 16 && dest = src + 1 then some (Config.rom (10 + src / 2))
  else if isTest src && dest = 17 then some (Config.rom 21)
  else if src = 17 && dest = 18 then some (Config.rom 22)
  else if src = 18 && dest = 19 then some (seg d.otp.prov 8 32)
  else if src = 17 && dest = 20 then some (Config.rom 23)
  else if (src = 18 || src = 19) && dest = 20 then some (seg d.otp.prov 0x28 32)
  else none

/-- A transition exists (R371). -/
def lcAllowed (d : Dev) (src dest : Nat) : Bool := (src != 21 && dest == 21) || (lcDigest d src dest).isSome

/-- Its token is right (R371). -/
def tokenOk (d : Dev) (src dest : Nat) (tok : Bytes) : Bool :=
  let dig := sha3_256 tok
  if dest = 21 then dig == Config.rom 24 || (List.range 21).any (fun t => lcDigest d src t == some dig)
  else lcDigest d src dest == some dig

/-- A write under R368: every bit set is set in the value. -/
def otpFits (old new : Bytes) : Bool := (old.zip new).all (fun (e : Byte × Byte) => e.1 &&& e.2 == e.1)

/-- Why a provisioning block is refused (R372). -/
def provBad (d : Dev) (b : Bytes) : Option Status :=
  if field b 0 1 < 1 || 2 < field b 0 1 then some .fieldRejected
  else if !allZero (seg b 1 7) then some .packetMalformed
  else if allZero (seg b 8 32) || allZero (seg b 0x28 32) || !otpFits d.otp.prov b then some .fieldRejected
  else none

/-- TOKEN_INVALID, and its lock-out of 1 s (R372). -/
def badToken (id : Nat) (d : Dev) : Dev :=
  failWith .tokenInvalid id { d with link := { d.link with tokenUntil := d.clk + 1000000000 } }

/-- Step 3 of R369: working keys and the vault erased. -/
def eraseAll (d : Dev) : Dev :=
  let d := { d with
    micro := { d.micro with jobs := [], ctxs := [], vendorDue := none, extDue := none }
    linen := { d.linen with sdu := sduZero true d.linen.sdu }
    dma := { d.dma with slotKeys := [] } }
  let d := mapSlices (fun x => { x with streams := [] }) d
  eraseVault (freeWhere (fun _ => true) { d with led := { d.led with keyHeld := false, matrix := [] } })

/-- The commands in flight beside `id` are aborted; no record of slices 1 to 255 is released (step 2 of R369). -/
def lcAbort (id : Nat) (d : Dev) : Dev :=
  dropWhere (fun c => c.slice != 0) (abortWhere (fun c => c.slice == 0 && c.id != id) .aborted d)

/-- Steps 2 and 3 of R369: fetch stops, the commands in flight are aborted and everything secret is erased; the writes
to OTP follow, each ended by a row OTP_WRITE_COMPLETE (log 64). -/
def lcMove (id dest : Nat) (prov : Bytes) (d : Dev) : Dev :=
  let src := d.lc
  let d := mapCmds (fun c => if c.id = id then { c with stage := .waiting } else c) (eraseAll (lcAbort id d))
  { d with link := { d.link with lcRun := some { cmd := id, src := src, dest := dest, prov := prov, step := if dest = 17 || dest = 18 then 4 else 5 } } }

/-- Seeds written into the first seed slot that is empty; one that holds seeds which pass ECC keeps them, and one that
fails ECC is skipped (step 4 of R369). -/
def writeSeeds (d : Dev) : Dev :=
  match (List.range 2).find? (fun i => d.otp.seeds.getD i .bad != .bad) with
  | some i =>
    if d.otp.seeds.getD i .bad == .empty then
      let (b, d) := draw 64 d
      { d with otp := { d.otp with seeds := d.otp.seeds.set i (.held b) } }
    else d
  | none => d

/-- The write of one of steps 4 to 6 of R369; the last is followed by step 7. -/
def lcStep (r : LcRun) (d : Dev) : Dev :=
  let next (d : Dev) : Dev := { d with link := { d.link with lcRun := some { r with step := r.step + 1 } } }
  match r.step with
  | 4 => next (if r.dest = 17 then writeSeeds d
      else { d with otp := { d.otp with prov := r.prov, mode := field r.prov 0 1 } })
  | 5 => next { d with otp := { d.otp with slots := d.otp.slots ++ [(⟨0, 0, 0⟩ : Cells 32).write (intentWord r.src r.dest)] } }
  | _ => conclude r.cmd (bare .ok)
      { d with otp := enterState r.dest d.otp, link := { d.link with lcRun := none, lcClosed := true } }

/-- OTP_WRITE_COMPLETE (R449 [16]): the OTP write under way is done, of a life-cycle transition, of a floor raise or of a
FUSE (R369; R427, R429 [15]; R406 [14]); Linen vector 19. -/
def execOtpWriteComplete : State → Out :=
  onDev (fun d =>
    if !d.alive then d
    else
      let d := match d.link.lcRun, d.micro.floorDue, d.prot.fuseDue with
        | some r, _, _ => lcStep r d
        | none, some (id, svn), _ => raiseFloor id svn d
        | none, none, some (id, map) => fuseDone id map d
        | none, none, none => d
      linenPend 19 d)

/-- LC_TRANSITION (R368 to R372): its checks and its first steps. Slot 31 serves only SCRAPPED (R367). -/
def execLcTransition (id : Nat) : State → Out :=
  execOp .lcTransition id (fun m c d =>
    let b := inp m d c 0
    let prov := inp m d c 1
    let dest := field b 0 1
    if d.clk < d.link.tokenUntil then failWith .tokenInvalid id d
    else if !lcAllowed d d.lc dest then failWith .fieldRejected id d
    else if !allZero (seg b 1 7) then failWith .packetMalformed id d
    else if !tokenOk d d.lc dest (seg b 8 32) then badToken id d
    else if !allZero (seg b 0x28 8) then failWith .packetMalformed id d
    else if (c.pkt.ndesc == 2) != (dest == 18) then failWith .fieldRejected id d
    else
      match (if dest = 18 then provBad d prov else none) with
      | some st => failWith st id d
      | none =>
        if 32 ≤ d.otp.slots.length || (31 ≤ d.otp.slots.length && dest != 21) then failWith .policyRefused id d
        else lcMove id dest prov d)

/-- TOKEN_LOCKOUT_END (R372). -/
def execTokenLockoutEnd : State → Out :=
  onDev (fun d => if d.link.tokenUntil ≤ d.clk then { d with link := { d.link with tokenUntil := 0 } } else d)

/-! Debug (R373). -/

/-- DEBUG_CHALLENGE, PARAM 0x00. -/
def execDebugChallengeNonce (id : Nat) : State → Out :=
  execPhase .debugChallenge 0 id (fun _ _ d =>
    if d.clk < d.link.tokenUntil then failWith .tokenInvalid id d
    else
      let (n, d) := draw 32 d
      okOuts [(0, n)] id { d with link := { d.link with debugNonce := some (n, d.clk + 60000000000) } })

/-- The response is right. -/
def debugOk (d : Dev) (nonce b : Bytes) : Bool :=
  if d.lc = 18 then
    b.length == 5261 && sha3_256 (b.take 1952) == seg d.otp.prov 0x48 32 && !allZero (seg d.otp.prov 0x48 32)
      && dsaOk 1 (b.take 1952) (ascii "ORNATH-DEBUG-1" ++ nonce ++ idDigest d) (b.drop 1952)
  else b.length == 32 && sha3_256 b == Config.rom 25

/-- DEBUG_CHALLENGE, PARAM 0x01: one response for a nonce. -/
def execDebugChallengeResponse (id : Nat) : State → Out :=
  execPhase .debugChallenge 1 id (fun m c d =>
    if d.clk < d.link.tokenUntil then failWith .tokenInvalid id d
    else if isTest d.lc then failWith .fieldRejected id d
    else
      let n := d.link.debugNonce
      let d := { d with link := { d.link with debugNonce := none } }
      match n with
      | none => badToken id d
      | some (n, t) =>
        if t ≤ d.clk || !debugOk d n (inp m d c 0) then badToken id d
        else
          let d := eraseAll (abortWhere (fun c => c.id != id) .aborted d)
          failWith .ok id { d with link := { d.link with debugOpen := true } })

/-- DEBUG_NONCE_EXPIRY (R373): 60 s. -/
def execDebugNonceExpiry : State → Out :=
  onDev (fun d =>
    match d.link.debugNonce with
    | some (_, t) => if t ≤ d.clk then { d with link := { d.link with debugNonce := none } } else d
    | none => d)

/-! Identity (R376). -/

/-- Bytes 0x0000 to 0x18BF of an attestation record; the custody fields are zero for the device, and for a slice
without a master key (R66 [02]). -/
def attestBody (d : Dev) (s prm : Nat) (challenge : Bytes) : Bytes :=
  let mk := if prm = 1 then (d.custody s).master else none
  let meas := (List.range 7).flatMap (fun i => measurement d (i + 1))
  let gen := (mk.map (·.gen)).getD 0
  let key := (mk.map (·.key)).getD []
  let own (b : Bytes) (n : Nat) : Bytes := if mk.isSome then fit n b else zeros n
  leBytes 2 0xA7C6 ++ leBytes 1 1 ++ leBytes 1 prm ++ leBytes 1 d.lc ++ leBytes 1 d.otp.mode
    ++ leBytes 1 (if prm = 1 then s else 0) ++ zeros 1 ++ leBytes 2 gen ++ zeros 6 ++ fit 32 challenge
    ++ sha3_256 meas ++ own (mkIdOf key) 8 ++ idPub d ++ idEcPub d ++ zeros 7 ++ own (tkPub key) 1568
    ++ own (tkXPub key) 32 ++ own (auditPub (kmac256 key [] 32 "ORNATH-AUDITKEY")) 1952

/-- IDENTITY_ATTEST (R376). -/
def execIdentityAttest (id : Nat) : State → Out :=
  execOp .identityAttest id (fun m c d =>
    let body := attestBody d c.slice c.prm (inp m d c 0)
    let (a, b, d) := idSign (ascii "ORNATH-ATTEST-1" ++ body) d
    custodyOk id c.slice 0 [(1, body ++ a ++ zeros 5 ++ b)] d)

/-! Nonces, custodians, policy (R377 to R382). -/

/-- APPROVAL_NONCE (R379): at most four live nonces. -/
def execApprovalNonce (id : Nat) : State → Out :=
  execOp .approvalNonce id (fun m c d =>
    let (n, d) := draw 32 d
    let t := d.devTime + 600000000000
    let d := d.modCust c.slice (fun x =>
      let l := x.nonces.filter (fun e => decide (d.devTime < e.expiry))
      { x with nonces := l.drop (l.length - 3) ++ [{ cls := c.prm, digest := inp m d c 0, nonce := n, expiry := t }] })
    custodyOk id c.slice 0 [(1, n ++ leBytes 8 t)] d)

/-- APPROVAL_NONCE_EXPIRY (R379). -/
def execApprovalNonceExpiry (sl : Fin 256) : State → Out :=
  onDev (fun d => d.modCust sl (fun x => { x with nonces := x.nonces.filter (fun e => decide (d.devTime < e.expiry)) }))

/-- CUSTODIAN_ADD (R377, R378, R382): the first custodian makes every M 1. -/
def execCustodianAdd (id : Nat) : State → Out :=
  execOp .custodianAdd id (fun m c d =>
    let b := inp m d c 0
    let x : Custodian := { cid := field b 0 1, kind := field b 1 1, digest := seg b 8 32 }
    let q := ownQuorum m d c 3 (some x)
    let reg := (d.custody c.slice).custodians
    match q.bad with
    | some st => failWith st id q.dev
    | none =>
      let d := q.dev
      if !allZero (seg b 2 6) then failWith .packetMalformed id d
      else if 15 < x.cid || x.kind < 1 || 2 < x.kind || reg.any (·.cid == x.cid) then failWith .fieldRejected id d
      else
        let d := d.modCust c.slice (fun k => { k with
          custodians := k.custodians ++ [x], policy := if reg.isEmpty then List.replicate 6 1 else k.policy })
        custodyOk id c.slice q.cids [] (killNonces c.slice d))

/-- CUSTODIAN_REMOVE (R382). -/
def execCustodianRemove (id : Nat) : State → Out :=
  execOp .custodianRemove id (fun m c d =>
    let b := inp m d c 0
    withQuorum 3 id m c d (fun cids d =>
    let k := d.custody c.slice
    let left := k.custodians.filter (fun x => x.cid != field b 0 1)
    if !allZero (seg b 1 7) then failWith .packetMalformed id d
    else if left.length = k.custodians.length then failWith .fieldRejected id d
    else if k.policy.any (fun n => decide (left.length < n)) then failWith .policyRefused id d
    else custodyOk id c.slice cids [] (killNonces c.slice (d.modCust c.slice (fun k => { k with custodians := left })))))

/-- QUORUM_POLICY_SET (R378). -/
def execQuorumPolicySet (id : Nat) : State → Out :=
  execOp .quorumPolicySet id (fun m c d =>
    let b := inp m d c 0
    withQuorum 3 id m c d (fun cids d =>
    let n := (d.custody c.slice).custodians.length
    let ms := (List.range 6).map (fun i => field b i 1)
    if !allZero (seg b 6 10) then failWith .packetMalformed id d
    else if ms.any (fun x => x < 1 || n < x) then failWith .fieldRejected id d
    else custodyOk id c.slice cids [] (killNonces c.slice (d.modCust c.slice (fun k => { k with policy := ms })))))

/-! Components (R383). -/

/-- A TYPE that components can make. -/
def compType (t : Nat) : Bool := (decide (1 ≤ t) && decide (t ≤ 5)) || (decide (0x60 ≤ t) && decide (t ≤ 0x66))

/-- The session of a slice changed. -/
def setComp (s : Nat) (x : Option CompSession) (d : Dev) : Dev := d.modCust s (fun k => { k with comp := x })

/-- COMPONENT_IMPORT OPEN. -/
def execComponentOpen (id : Nat) : State → Out :=
  execPhase .componentImport 0 id (fun m c d =>
    let kar := inp m d c 0
    let b := inp m d c 1
    if !allZero (seg b 1 4) then failWith .packetMalformed id d
    else
      match karCheck d kar false with
      | some st => failWith st id d
      | none =>
        if !compType (reqOf kar).typ || field b 0 1 < 2 || 8 < field b 0 1 then failWith .fieldRejected id d
        else if (d.custody c.slice).comp.isSome then failWith .policyRefused id d
        else
          let x : CompSession := { kar := kar, count := field b 0 1, kcv := seg b 5 3, parts := [], lastAt := d.clk }
          custodyOk id c.slice 0 [] (setComp c.slice (some x) d))

/-- COMPONENT_IMPORT ADD: the approval list has one entry, by the custodian the envelope names. -/
def execComponentAdd (id : Nat) : State → Out :=
  execPhase .componentImport 1 id (fun m c d =>
    let e := inp m d c 0
    let cid := field e 0 1
    let ix := field e 1 1
    let k := d.custody c.slice
    let q := quorum m d c 0 (k.custodians.filter (·.cid == cid)) 1 none
    let one := ((approvalsOf (inp m d c 1)).map List.length) == some 1
    match q.bad, k.comp with
    | some st, _ => failWith st id q.dev
    | none, none => failWith .policyRefused id q.dev
    | none, some x =>
      let d := setComp c.slice (some { x with lastAt := d.clk }) q.dev
      let r := reqOf x.kar
      let n := ((typeLens r.typ r.sub).getD (0, 0)).1
      let mk := masterOf d c.slice
      if !one then failWith .approvalInvalid id d
      else if ix < 1 || x.count < ix || field e 2 1 != n || field e 3 1 != 0 || field e 7 1 != 0 then
        failWith .keyBlobInvalid id d
      else
        match (hybOpen 1 (tkMat mk) (tkX mk) (seg e 8 1600)).bind (fun ss => kwOpen ss (seg e 0x648 40) n) with
        | none => failWith .keyBlobInvalid id d
        | some comp =>
          if kcvOf r.typ r.sub comp [] != seg e 4 3 then failWith .keyCheckFail id d
          else if x.parts.any (fun (p : Nat × Nat × Bytes) => p.1 == ix || p.2.1 == cid) then failWith .policyRefused id d
          else custodyOk id c.slice q.cids []
            (setComp c.slice (some { x with parts := x.parts ++ [(ix, cid, comp)], lastAt := d.clk }) d))

/-- COMPONENT_IMPORT FINISH. -/
def execComponentFinish (id : Nat) : State → Out :=
  execPhase .componentImport 2 id (fun m c d => withQuorum 0 id m c d (fun _ d =>
    match (d.custody c.slice).comp with
    | none => failWith .policyRefused id d
    | some x =>
      let d := setComp c.slice (some { x with lastAt := d.clk }) d
      let r := reqOf x.kar
      let n := ((typeLens r.typ r.sub).getD (0, 0)).1
      if x.parts.length < x.count then failWith .policyRefused id d
      else
        let mat := (x.parts.map (·.2.2)).foldl xorB (zeros n)
        let d := setComp c.slice none d
        match karCheck d x.kar false with
        | some st => failWith st id d
        | none => makeKey id (entryOf r mat [] false) (kcvOf r.typ r.sub mat [] == x.kcv) 0 [] d))

/-- COMPONENT_IMPORT ABANDON. -/
def execComponentAbandon (id : Nat) : State → Out :=
  execPhase .componentImport 3 id (fun _ c d => custodyOk id c.slice 0 [] (setComp c.slice none d))

/-- COMPONENT_SESSION_TIMEOUT (R383): 600 s without a command. -/
def execComponentSessionTimeout (sl : Fin 256) : State → Out :=
  onDev (fun d =>
    match (d.custody sl).comp with
    | some x => if x.lastAt + 600000000000 ≤ d.clk then setComp sl none d else d
    | none => d)

/-! Master keys (R384 to R386). -/

/-- GEN after one (R172 [05]). -/
def nextMasterGen (g : Nat) : Nat := if g = 65535 then 1 else g + 1

/-- MASTER_KEY_CHANGE STAGE. -/
def execMasterKeyStage (id : Nat) : State → Out :=
  execPhase .masterKeyChange 0 id (fun m c d => withQuorum 1 id m c d (fun cids d =>
    let used := (d.cust.filter (fun e => e.2.staged.isSome)).length
    if (d.custody c.slice).staged.isSome then failWith .policyRefused id d
    else if 4 ≤ used then failWith .resourceQuota id d
    else
      let (k, d) := draw 32 d
      let n : MasterKey := { gen := nextMasterGen (masterGen d c.slice), key := k }
      custodyOk id c.slice cids [] (d.modCust c.slice (fun x => { x with staged := some n }))))

/-- MASTER_KEY_CHANGE REWRAP. -/
def execMasterKeyRewrap (id : Nat) : State → Out :=
  execPhase .masterKeyChange 1 id (fun m c d =>
    match (d.custody c.slice).staged with
    | none => failWith .policyRefused id d
    | some n =>
      let b := inp m d c 0
      match (List.range 6).find? (fun k => blobLen k == b.length) with
      | none => failWith .keyBlobInvalid id d
      | some k =>
        match openBlob d c.slice 1 k (masterOf d c.slice) b with
        | none => failWith .keyBlobInvalid id d
        | some o =>
          let h := b.take 6 ++ leBytes 2 n.gen ++ seg b 8 24
          custodyOk id c.slice 0 [(1, h ++ sivSeal (wrapKey n.key h false) h (fit (classArea k) o.mat))] d)

/-- A master key put in force in both or in one copy (R172 [05]): mirror membership ends, and may begin anew
(R384, R360 [12]). -/
def takeMaster (s : Nat) (n : MasterKey) (both : Bool) (d : Dev) : Dev :=
  let d := endMembership s d
  let (a, b) := copiesOf d s
  let inA := match a, b with
    | some x, some y => !newer y x
    | some _, none => true
    | none, _ => false
  let d := d.modCust s (fun x => { x with
    copyA := if both || !inA then writeCopy d s 0 n else x.copyA
    copyB := if both || inA then writeCopy d s 1 n else x.copyB
    master := some n, staged := none, nonces := [] })
  instantiate s d

/-- MASTER_KEY_CHANGE COMMIT: a seal under the old audit key comes first (R392). -/
def execMasterKeyCommit (id : Nat) : State → Out :=
  execPhase .masterKeyChange 2 id (fun _ c d =>
    match (d.custody c.slice).staged with
    | none => failWith .policyRefused id d
    | some n => custodyOk id c.slice 0 [] (takeMaster c.slice n false (auditSealNow c.slice 0 d).2))

/-- MASTER_KEY_CHANGE ABANDON. -/
def execMasterKeyAbandon (id : Nat) : State → Out :=
  execPhase .masterKeyChange 3 id (fun _ c d =>
    custodyOk id c.slice 0 [] (d.modCust c.slice (fun x => { x with staged := none })))

/-- Registry entries and policy block of an export body (R385). -/
def registryBytes (l : List Custodian) : Bytes :=
  (List.range 16).flatMap (fun i =>
    match l.find? (·.cid == i) with
    | some x => leBytes 1 x.cid ++ leBytes 1 x.kind ++ zeros 6 ++ x.digest
    | none => zeros 40)

def registryOf (b : Bytes) : List Custodian :=
  (List.range 16).filterMap (fun i =>
    let e := seg b (40 * i) 40
    if field e 1 1 = 0 then none else some { cid := field e 0 1, kind := field e 1 1, digest := seg e 8 32 })

/-- MASTER_KEY_EXPORT (R385). -/
def execMasterKeyExport (id : Nat) : State → Out :=
  execOp .masterKeyExport id (fun m c d =>
    let r := inp m d c 0
    withQuorum 2 id m c d (fun cids d =>
    let body := r.take 0x18C0
    let msg := ascii "ORNATH-ATTEST-1" ++ body
    let k := d.custody c.slice
    if !dsaOk 2 (seg r 0x58 2592) msg (seg r 0x18C0 4627) || !ecOk (seg r 0xA78 97) msg (seg r 0x2AD8 96)
      || field r 4 1 != 19 || field r 3 1 != 1 then failWith .inputInvalid id d
    else
      match hybSeal 1 (seg r 0xAE0 1568) (seg r 0x1100 32) d with
      | none => failWith .inputInvalid id d
      | some (ct, ss, d) =>
        let hdr := leBytes 2 0xA7C5 ++ leBytes 1 1 ++ leBytes 1 c.slice ++ seg r 6 1 ++ zeros 3 ++ d.mkId c.slice
          ++ sha3_256 (seg r 0x58 2592) ++ zeros 16
        let plain := fit 32 (masterOf d c.slice) ++ leBytes 2 (masterGen d c.slice) ++ zeros 6
          ++ registryBytes k.custodians ++ k.policy.flatMap (leBytes 1) ++ zeros 10
        let sealed_ := gcmCtr ss (zeros 12) plain
        let e := hdr ++ ct ++ sealed_ ++ gcmTag ss (zeros 12) hdr sealed_ 16 ++ idPub d ++ idEcPub d ++ zeros 7
        let (a, b, d) := idSign e d
        custodyOk id c.slice cids [(2, e ++ a ++ zeros 5 ++ b)] d))

/-- The opened body of an export envelope for this slice (check 2 of R386). -/
def openEnvelope (d : Dev) (s : Nat) (e : Bytes) : Option Bytes :=
  let mk := masterOf d s
  let hdr := e.take 64
  let body := e.take 0x13D0
  let sealed_ := seg e 0x680 696
  if field e 0 2 != 0xA7C5 || field e 2 1 != 1 || !allZero (seg e 5 3) || !allZero (seg e 48 16)
    || seg e 16 32 != idDigest d || field e 4 1 != s
    || !dsaOk 2 (seg e 0x948 2592) body (seg e 0x13D0 4627) || !ecOk (seg e 0x1368 97) body (seg e 0x25E8 96) then none
  else
    (hybOpen 1 (tkMat mk) (tkX mk) (seg e 0x40 1600)).bind (fun ss =>
      if gcmTag ss (zeros 12) hdr sealed_ 16 == seg e (0x680 + 696) 16 then some (gcmCtr ss (zeros 12) sealed_) else none)

/-- MASTER_KEY_IMPORT (R386). -/
def execMasterKeyImport (id : Nat) : State → Out :=
  execOp .masterKeyImport id (fun m c d =>
    if ledgerUsed d c.slice != 0 then failWith .policyRefused id d
    else
      match openEnvelope d c.slice (inp m d c 0) with
      | none => failWith .keyBlobInvalid id d
      | some b =>
        let reg := registryOf (seg b 40 640)
        let pol := (List.range 6).map (fun i => field b (680 + i) 1)
        let q := quorum m d c 1 reg (pol.getD 1 0) none
        match q.bad with
        | some st => failWith st id q.dev
        | none =>
          let n : MasterKey := { gen := field b 32 2, key := b.take 32 }
          let d := takeMaster c.slice n true q.dev
          custodyOk id c.slice q.cids [] (d.modCust c.slice (fun x => { x with custodians := reg, policy := pol })))

/-! Audit (R388, R392, R393). -/

/-- AUDIT_CONFIG CONFIGURE (R388, R391, R505 [02]). -/
def execAuditConfigure (id : Nat) : State → Out :=
  execPhase .auditConfig 0 id (fun m c d =>
    let b := inp m d c 0
    let depth := field b 8 4
    let slot := field b 12 1
    let slots := field b 0x20 4
    if !allZero (seg b 13 3) || !allZero (seg b 0x24 12) then failWith .packetMalformed id d
    else if field b 0 8 % 64 != 0 || depth < 64 || 16777216 < depth || field b 0x10 8 % 8 != 0
      || field b 0x18 8 % 64 != 0 || slots < 1 || 65536 < slots
      || (c.slice != 0 && (3 < slot || !(d.pslot c.slice slot).valid)) then failWith .fieldRejected id d
    else if 0 < ((d.custody c.slice).audit).inRing then failWith .policyRefused id d
    else
      let d := d.modCust c.slice (fun x => { x with audit := { x.audit with
        configured := true, base := field b 0 8, depth := depth, pasidSlot := slot, headAddr := field b 0x10 8,
        sealBase := field b 0x18 8, sealSlots := slots } })
      custodyOk id c.slice 0 [] (auditFlush c.slice d))

/-- AUDIT_CONFIG ACK (R388). -/
def execAuditAck (id : Nat) : State → Out :=
  execPhase .auditConfig 1 id (fun m c d =>
    let q := field (inp m d c 0) 0 8
    if ((d.custody c.slice).audit).head < q then failWith .fieldRejected id d
    else
      let d := d.modCust c.slice (fun x => { x with audit := { x.audit with acked := max x.audit.acked q } })
      custodyOk id c.slice 0 [] (auditFlush c.slice d))

/-- AUDIT_SEAL (R392). -/
def execAuditSeal (id : Nat) : State → Out :=
  execOp .auditSeal id (fun _ c d =>
    let (n, d) := auditSealNow c.slice 0x0B0D d
    outcomeIs { status := .ok, outs := [], result := leBytes 8 n } id d)

/-- AUDIT_AUTO_SEAL (R392): after 4,095 other records. -/
def execAuditAutoSeal (sl : Fin 256) : State → Out :=
  onDev (fun d => if 4095 ≤ ((d.custody sl).audit).sinceSeal then (auditSealNow sl 0 d).2 else d)

/-- AUDIT_SEAL_SIGNED (R392): the signature of the oldest seal, in its seal slot; the head may pass the seal. -/
def execAuditSealSigned (sl : Fin 256) : State → Out :=
  onDev (fun d =>
    let r := (d.custody sl).audit
    match r.owed with
    | [] => d
    | (_, n, rec64, key) :: rest =>
      if !r.configured || d.dmaHeld then d
      else
        let (k, d) := draw 32 d
        let sig := latSignBytes 0x15 false (auditMat key) (pureStr (ascii "ORNATH-SEAL-1" ++ rec64)) k
        let d := hostWrite sl r.pasidSlot (r.sealBase + 3328 * (n % r.sealSlots)) (fit 3328 sig) d
        auditPublish sl (d.modCust sl (fun x => { x with audit := { x.audit with owed := rest } })))

/-- AUDIT_RESET (R393): the unacknowledged records of the ring are acknowledged, those that the reserve holds follow
into the ring, and the reset record carries the count. -/
def execAuditReset (id : Nat) : State → Out :=
  execOp .auditReset id (fun m c d => withQuorum 4 id m c d (fun cids d =>
    let r := (d.custody c.slice).audit
    let d := auditFlush c.slice (d.modCust c.slice (fun x =>
      { x with audit := { x.audit with acked := r.next - r.heldRecs.length } }))
    custodyOk id c.slice cids [] (auditOwn c.slice (auditPlain 7 0x0B0E (leBytes 8 r.inRing)) d)))

/-! Decommission (R387). -/

/-- SLICE_DECOMMISSION: its approvals stop fetching; once the commands admitted before it are released, the final
seal is written, when the ring has room; once it is signed, the command completes. -/
def execSliceDecommission (id : Nat) : State → Out :=
  onDevM (fun m d =>
    match findCmd d id with
    | none => d
    | some c =>
      let r := (d.custody c.slice).audit
      if c.op == .sliceDecommission && c.stage == .waiting then
        if d.cmds.any (fun e => e.slice == c.slice && decide (e.id < id)) then d
        else if (d.slice c.slice).decom = some (id, false) then
          if r.configured && r.room = 0 then d
          else (auditSealNow c.slice 0 d).2.modSlice c.slice (fun x => { x with decom := some (id, true) })
        else if r.configured && !r.owed.isEmpty then d
        else conclude id (c.outcome.getD (bare .ok)) d
      else
        runCmd .sliceDecommission id (fun m c d => withQuorum 5 id m c d (fun cids d =>
          setCmd { c with stage := .waiting, outcome := some { status := .ok, outs := [], result := [], detail := some (leBytes 4 cids ++ leBytes 2 (masterGen d c.slice) ++ zeros 2) } }
            (d.modSlice c.slice (fun x => { x with decom := some (id, false) })))) m d)

/-- The decommissioned slice goes once its command's record is released (step 5 of R387, R83 [02]). -/
def decommissioned (s : Nat) (d : Dev) : Dev :=
  match (d.slice s).decom with
  | some (id, true) =>
    if (findCmd d id).isNone then
      let d := destroySlice s d
      if d.link.adminEvent.getLsbD s then d
      else raisePf0 488 { d with link := { d.link with adminEvent := d.link.adminEvent ||| (1#256 <<< s) } }
    else d
  | _ => d

end Sys2Proof.Machine
end

