-- ==== Sys2Proof/Machine/Payment.lean ====
section
/-!
DEFINITION. The payment commands: PIN blocks, verification values and codes, DUKPT, EMV, retail MACs, key blocks
(R305 to R336 [11]).
-/
namespace Sys2Proof.Machine

/-! Digits. -/

/-- The nibbles of a byte string, the high one of each byte first. -/
def nibs (b : Bytes) : List Nat := b.flatMap (fun x => [x.toNat / 16, x.toNat % 16])

/-- Bytes from nibbles. -/
def unnibs : List Nat → Bytes
  | a :: b :: l => BitVec.ofNat 8 (16 * a + b) :: unnibs l
  | _ => []

/-- `l` filled on the right to `n` nibbles. -/
def padTo (n v : Nat) (l : List Nat) : List Nat := l.take n ++ List.replicate (n - l.length) v

/-- All are decimal digits. -/
def decimals (l : List Nat) : Bool := l.all (fun x => decide (x ≤ 9))

/-- The last `n` of a list, filled on the left with zeros. -/
def lastN (n : Nat) (l : List Nat) : List Nat := List.replicate (n - l.length) 0 ++ l.drop (l.length - n)

/-! The PAN record (R310). -/

/-- L and the digits of a PAN record. -/
def panLen (b : Bytes) : Nat := field b 0 1
def panDigits (b : Bytes) : List Nat := (nibs (seg b 1 10)).take (panLen b)

/-- A breach of R310. -/
def panBad (b : Bytes) : Bool :=
  !(decide (12 ≤ panLen b) && decide (panLen b ≤ 19)) || !decimals (panDigits b)
    || ((nibs (seg b 1 10)).drop (panLen b)).any (· != 15) || field b 11 1 != 0

/-- Digits of the PAN without the check digit. -/
def panBody (b : Bytes) : List Nat := (panDigits b).dropLast

/-- The PAN field of a PIN block format (R311). -/
def panField (fmt : Nat) (pan : Bytes) : Bytes :=
  if fmt = 4 then unnibs (padTo 32 0 ((panLen pan - 12) :: panDigits pan))
  else unnibs ([0, 0, 0, 0] ++ lastN 12 (panBody pan))

/-! PIN blocks (R311, R312). -/

/-- Bytes of a block, and whether the PAN is bound to it. -/
def pinLen (fmt : Nat) : Nat := if fmt = 4 then 16 else 8
def panBound (fmt : Nat) : Bool := fmt == 0 || fmt == 3 || fmt == 4

/-- The fill of a deciphered PIN field passes R311. -/
def fillOk (fmt : Nat) (fill : List Nat) : Bool :=
  match fmt with
  | 0 => fill.all (· == 15)
  | 2 => fill.all (· == 15)
  | 3 => fill.all (fun x => decide (10 ≤ x))
  | 4 => fill.all (· == 10)
  | _ => true

/-- The PIN digits in a PIN field, when it is valid (R312). -/
def pinOfField (fmt : Nat) (f : Bytes) : Option (List Nat) :=
  let l := (nibs f).take 16
  let n := l.getD 1 0
  let digits := (l.drop 2).take n
  if l.getD 0 16 = fmt && decide (4 ≤ n) && decide (n ≤ 12) && decimals digits && fillOk fmt (l.drop (2 + n)) then
    some digits
  else none

/-- The PIN field in a block, deciphered; `tdes` says which cipher the key is for. -/
def pinField (fmt : Nat) (k pan block : Bytes) : Bytes :=
  if fmt = 4 then blockDec false k (xorB (blockDec false k block) (panField 4 pan))
  else
    let x := blockDec true k block
    if panBound fmt then xorB x (panField fmt pan) else x

/-- A block's PIN. -/
def decPin (fmt : Nat) (k pan block : Bytes) : Option (List Nat) := pinOfField fmt (pinField fmt k pan block)

/-- A block made of a PIN, with random bytes for its fill. -/
def encPin (fmt : Nat) (k pan : Bytes) (pin : List Nat) (rnd : Bytes) : Bytes :=
  let head := [fmt, pin.length] ++ pin
  let r := (nibs rnd).take (16 - head.length)
  match fmt with
  | 1 => blockEnc true k (unnibs (padTo 16 0 (head ++ r)))
  | 2 => blockEnc true k (unnibs (padTo 16 15 head))
  | 3 => blockEnc true k (xorB (unnibs (padTo 16 10 (head ++ r.map (fun x => 10 + x % 6)))) (panField 3 pan))
  | 4 => blockEnc false k (xorB (blockEnc false k (unnibs (padTo 16 10 head) ++ fit 8 (rnd.drop 8))) (panField 4 pan))
  | _ => blockEnc true k (xorB (unnibs (padTo 16 15 head)) (panField 0 pan))

/-- A key base suits a format (R309). -/
def baseSuits (sub fmt : Nat) : Bool :=
  if fmt = 4 then decide (1 ≤ sub) && decide (sub ≤ 3) else sub == 4 || sub == 5

/-- The scan of R315 over a cipher output. -/
def scanDigits (n : Nat) (b : Bytes) : List Nat :=
  let l := nibs b
  (l.filter (fun x => decide (x ≤ 9)) ++ (l.filter (fun x => decide (10 ≤ x))).map (fun x => x - 10)).take n

/-- A decimalisation table of R316. -/
def decTableOk (b : Bytes) : Bool :=
  (nibs b).take 10 == List.range 10 && decimals (nibs b)

/-! Blocks that admission reads. -/

/-- The PVV block (R317). -/
def pvvBad (verify : Bool) (b : Bytes) : Bool :=
  let m := field b 0 1
  let n := field b 2 1
  let rf := nibs (seg b 0x14 6)
  !((m == 1 && decide (field b 1 1 ≤ 6) && n == 4 && allZero (seg b 4 16))
      || (m == 2 && field b 1 1 == 0 && decide (4 ≤ n) && decide (n ≤ 12) && decTableOk (seg b 4 8)))
    || field b 3 1 != 0 || !allZero (seg b 0x1A 6)
    || (if verify then !decimals (rf.take n) || (rf.drop n).any (· != 15) else rf.any (· != 15))

/-- The CVC record (R319). -/
def cvcBad (b : Bytes) : Bool :=
  panBad (b.take 12) || !decimals (nibs (seg b 12 2)) || !decimals ((nibs (seg b 14 2)).take 3)
    || (nibs (seg b 14 2)).getD 3 0 != 15

/-- Ones of a number of at most 32 bits. -/
def onesOf (n : Nat) : Nat := ((List.range 32).filter (bit n)).length

/-- Counter of a KSN: 21 low bits of ten bytes for TDES, four bytes for AES (R320). -/
def ksnCount (aes : Bool) (b : Bytes) : Nat :=
  if aes then beNat (seg b 8 4) else beNat (seg b 0 10) % 2 ^ 21

/-- A DUKPT block breaks R320 or R321, as TDES or AES DUKPT reads it. -/
def dukptBad (aes zero : Bool) (b : Bytes) : Bool :=
  let n := ksnCount aes b
  let wk := field b 12 1
  (if aes then !(decide (1 ≤ wk) && decide (wk ≤ 5)) else wk != 0 || !allZero (seg b 10 2))
    || !allZero (seg b 13 3)
    || (if zero then n != 0 else n == 0 || decide (onesOf n > (if aes then 16 else 10)))

/-- The EMV block (R326), for an ARPC method. -/
def emvBad (arpc : Nat) (b : Bytes) : Bool :=
  panBad (b.take 12) || !decimals (nibs (seg b 12 1)) || field b 13 1 != 0 || !allZero (seg b 28 4)
    || (arpc == 0 && !allZero (seg b 24 4)) || (arpc == 1 && !allZero (seg b 26 2))

/-! Forms. -/

/-- IN and OUT of a translation. -/
def Packet.pinIn (p : Packet) : Nat := bits p.prm 3 0
def Packet.pinOut (p : Packet) : Nat := bits p.prm 7 4

/-- IN and OUT are allowed together (R314). -/
def translateOk (p : Packet) : Bool :=
  decide (p.pinIn ≤ 4) && decide (p.pinOut ≤ 4)
    && !(panBound p.pinIn && (p.pinOut == 1 || p.pinOut == 2))

/-- ARPC method of an EMV PARAM. -/
def Packet.arpc (p : Packet) : Nat := bits p.prm 4 3

/-- An EMV PARAM is defined (R325). -/
def emvParam (p : Packet) (o : Op) : Bool :=
  bits p.prm 7 6 == 0 && decide (bits p.prm 1 0 ≤ 1) && p.arpc != 3 && (!bit p.prm 5 || p.arpc == 1)
    && (o == .arqcVerify || p.arpc != 0)

/-- Bytes of a retail MAC (R328). -/
def retailLen (p : Packet) : Nat := tab [8, 4, 6, 8] (bits p.prm 7 5)

/-- The first breach among the inline blocks of a packet. -/
def payBlocks (p : Packet) (o : Op) (l : List Arg) : Option Status :=
  let bad (i : Nat) (a : Arg) : Bool :=
    let b := p.inlineOf i
    if p.dlen i != a.lo then false
    else
      match a.role with
      | .pan => panBad b
      | .block2 =>
        (match o with
         | .pvvGenerate => pvvBad false b
         | .pvvVerify => pvvBad true b
         | .cvcGenerate => cvcBad b
         | .cvcVerify => cvcBad b
         | .arqcVerify => emvBad p.arpc b
         | .arpcGenerate => emvBad p.arpc b
         | .dukptAesTranslate =>
           let wk := field b 12 1
           dukptBad true false b || (if p.pinIn = 4 then decide (wk > 3) else decide (wk < 4))
         | .dukptTdesTranslate => dukptBad false false b
         | .dukptMacVerify => dukptBad (!bit p.prm 4) false b || (!bit p.prm 4 && decide (field b 12 1 > 3))
         | .ipekDerive => dukptBad false true b && dukptBad true true b
         | _ => false)
      | _ => false
  if ((List.range l.length).zip l).any (fun e => bad e.1 e.2) then some .packetMalformed else none

/-- Forms of the payment opcodes (R314, R318, R319, R323, R327, R328, R332, R333). The blocks that admission
reads have role `block2`. -/
def payForm (p : Packet) (o : Op) : Form :=
  let pan := inlArg .pan 12 12
  let inn := inArg .block (pinLen p.pinIn) (pinLen p.pinIn)
  let out := outArg .out0 (pinLen p.pinOut)
  let pans := onlyIf (panBound p.pinIn || panBound p.pinOut) [pan]
  let pin1 := decide (p.prm ≤ 4)
  let mk (param : Bool) (need : List Nat) (args : List Arg) : Form :=
    { param := param, need := need, args := args, block := payBlocks p o args }
  let prop := onlyIf (p.arpc == 2) [inArg .info 0 8]
  let arpc := onlyIf (p.arpc != 0) [outArg .out0 (if p.arpc = 1 then 8 else 4)]
  let retail := decide (bits p.prm 7 5 ≤ 3) && bits p.prm 4 2 == 0 && bits p.prm 1 0 != 0
  match o with
  | .pinTranslate => mk (translateOk p) [0, 1] (inn :: pans ++ [out])
  | .pvvGenerate => mk pin1 [0, 1] [inn, pan, inlArg .block2 32 32, outArg .out0 6]
  | .pvvVerify => mk pin1 [0, 1] [inn, pan, inlArg .block2 32 32]
  | .cvcGenerate => mk (decide (3 ≤ p.prm) && decide (p.prm ≤ 5)) [0] [inlArg .block2 16 16, outArg .out0 3]
  | .cvcVerify => mk (decide (3 ≤ p.prm) && decide (p.prm ≤ 5)) [0] [inlArg .block2 16 16, inArg .digest 3 3]
  | .dukptAesTranslate => mk (translateOk p && p.pinIn != 2) [0, 1] (inlArg .block2 16 16 :: inn :: pans ++ [out])
  | .dukptTdesTranslate =>
    mk (translateOk p && p.pinIn != 2 && p.pinIn != 4) [0, 1] (inlArg .block2 16 16 :: inn :: pans ++ [out])
  | .dukptMacVerify =>
    let t := p.macTagLen
    mk (bits p.prm 3 0 == 0 && bits p.prm 7 5 != 7 && !(p.tdes && decide (t > 8))) [0]
      [inlArg .block2 16 16, inArg .msg 1 4096, inArg .mac t t]
  | .ipekDerive => mk (p.prm == 0) [0] [karArg, inlArg .block2 16 16]
  | .arqcVerify => mk (emvParam p o) [0] ([inlArg .block2 32 32, inArg .msg 1 256] ++ prop ++ arpc)
  | .arpcGenerate => mk (emvParam p o) [0] (inlArg .block2 32 32 :: prop ++ arpc)
  | .retailMacGen => mk retail [0] [inArg .msg 1 65536, outArg .mac (retailLen p)]
  | .retailMacVerify => mk retail [0] [inArg .msg 1 65536, inArg .mac (retailLen p) (retailLen p)]
  | .keyblockImport => mk (p.prm == 0 || p.prm == 16) [0] [karArg, inArg .blob 16 1024]
  | _ => mk (p.prm == 0 || p.prm == 16) [0, 1] [inlArg .params 8 8, outArg .blob 1024]

/-- Strength order of R330: TDES two-key, three-key, AES-128, -192, -256. -/
def strength (alg : Nat) : Nat := tab [0, 2, 3, 4, 0, 1] alg

/-- TYPE, base and usage of the keys of the payment opcodes (R309, R314, R318, R319, R322, R323, R327, R328,
R333). -/
def payKey (c : Cmd) (i : Nat) (e : Entry) : Bool :=
  let p := c.pkt
  let s := e.subtype
  let tdes := s == 4 || s == 5
  let aes := decide (1 ≤ s) && decide (s ≤ 3)
  let dk := (e.typ == 0x60 || e.typ == 0x61) && e.may uDUKPT
  let outKey := e.typ == 0x62 && e.may uPINOUT && baseSuits s p.pinOut
  let inKey := e.typ == 0x62 && e.may uPININ && baseSuits s p.pinIn
  let wk := field (p.inlineOf 0) 12 1
  match c.op with
  | .pinTranslate => if i = 0 then inKey else outKey
  | .pvvGenerate => if i = 0 then inKey else e.typ == 0x64 && tdes && e.may uPVVGEN
  | .pvvVerify => if i = 0 then inKey else e.typ == 0x64 && tdes && e.may uPVVVERIFY
  | .cvcGenerate => e.typ == 0x65 && s == 4 && e.may uCVCGEN
  | .cvcVerify => e.typ == 0x65 && s == 4 && e.may uCVCVERIFY
  | .dukptAesTranslate => if i = 0 then dk && aes && decide (symLen wk ≤ symLen s) else outKey
  | .dukptTdesTranslate => if i = 0 then dk && s == 4 else outKey
  | .dukptMacVerify => dk && (if p.tdes then s == 4 else aes && decide (symLen wk ≤ symLen s))
  | .ipekDerive =>
    e.typ == 0x60 && e.may uDUKPT && (s == 4 || (aes && decide (symLen (field (p.inlineOf 1) 12 1) ≤ symLen s)))
  | .arqcVerify => e.typ == 0x66 && (s == 4 || aes) && e.may uARQCVERIFY && (p.arpc == 0 || e.may uARPCGEN)
  | .arpcGenerate => e.typ == 0x66 && (s == 4 || aes) && e.may uARPCGEN
  | .retailMacGen => (e.typ == 4 || (e.typ == 5 && bits p.prm 1 0 == 2)) && e.may uMACGEN
  | .retailMacVerify => (e.typ == 4 || (e.typ == 5 && bits p.prm 1 0 == 2)) && e.may uMACVERIFY
  | .keyblockImport => e.typ == 0x63 && e.may uKBPKUNWRAP
  | _ =>
    if i = 0 then
      e.typ == 0x63 && e.may uKBPKWRAP && !(tdes && p.prm == 16)
        && (match c.keys.find? (fun k => k.field == 1) with
            | some k => decide (strength s ≥ strength (baseAlg k.ent.typ k.ent.subtype))
            | none => true)
    else
      e.may uEXPORTWRAPPED && ((decide (1 ≤ e.typ) && decide (e.typ ≤ 5)) || decide (0x60 ≤ e.typ))

/-! Time (R334). -/

/-- Interval of the payment unit. -/
def payInterval (c : Cmd) : Nat :=
  let f := payForm c.pkt c.op
  let more := 550 * (cdiv (f.len c.pkt .msg) 1024 - 1)
  match c.op with
  | .cvcGenerate | .cvcVerify => 800
  | .dukptAesTranslate | .dukptTdesTranslate => 1600
  | .dukptMacVerify => 1600 + more
  | .ipekDerive | .keyblockImport | .keyblockExport => 4000
  | .arqcVerify => if c.pkt.arpc = 0 then 1143 else 1333
  | .retailMacGen | .retailMacVerify => 1333 + more
  | _ => 1000

/-- Blocks of the MAC of R327 over `n` bytes, on a key of base `alg`. -/
def emvMacWork (alg n : Nat) : List (Nat × Nat) :=
  if alg = 4 then [(cdiv n 8 + 2, 8)] else [(1 + max 1 (cdiv n 16), blockNs alg)]

/-- Blocks of a derivation of a key of base `alg` by enciphering blocks of its length. -/
def deriveWork (alg times : Nat) : Nat × Nat :=
  if alg = 4 then (2 * times, 18) else (cdiv (symLen alg) 16 * times, blockNs alg)

/-- Blocks of a DUKPT derivation (R322): of a BDK the initial key; always 10 or 16 steps; of AES the working key. -/
def dukptWork (c : Cmd) (alg : Nat) : List (Nat × Nat) :=
  let ipek := if c.typ 0 = 0x60 then 1 else 0
  if alg = 4 then [deriveWork 4 ipek, (20, 8)]
  else [deriveWork alg (ipek + 16), (cdiv (symLen (field (c.pkt.inlineOf 0) 12 1)) 16, blockNs alg)]

/-- Keys unwrapped, and serial blocks with the ns of one, of a payment command other than a key block's (R302 [10], R307).
The blocks of a DUKPT step and of an EMV derivation are those of their standards (PRESUMED, log 59). -/
def payWork (c : Cmd) : Nat × List (Nat × Nat) :=
  let p := c.pkt
  let f := payForm p c.op
  let alg (i : Nat) : Nat := baseAlg (c.typ i) (((c.key i).map (·.subtype)).getD 0)
  let pin (fmt i : Nat) : Nat × Nat := (if fmt = 4 then 2 else 1, blockNs (alg i))
  let msg := f.len p .msg
  let card := deriveWork (alg 0) (if bits p.prm 1 0 = 1 then 2 else 1)
  let arpc := if p.arpc = 0 then [] else if p.arpc = 1 then [(1, blockNs (alg 0))] else emvMacWork (alg 0) (12 + f.len p .info)
  match c.op with
  | .pinTranslate => (2, [pin p.pinIn 0, pin p.pinOut 1])
  | .pvvGenerate | .pvvVerify => (2, [pin p.pinIn 0, (1, 18)])
  | .cvcGenerate | .cvcVerify => (1, [(1, 8), (1, 18)])
  | .dukptAesTranslate | .dukptTdesTranslate =>
    (2, dukptWork c (alg 0) ++ [pin p.pinIn 0, pin p.pinOut 1])
  | .dukptMacVerify => (1, dukptWork c (alg 0) ++ emvMacWork (if p.tdes then 4 else alg 0) msg)
  | .ipekDerive => (1, [deriveWork (alg 0) 1, (4, blockNs (alg 0))])
  | .arqcVerify => (1, card :: emvMacWork (alg 0) msg ++ arpc)
  | .arpcGenerate => (1, card :: arpc)
  | _ => (1, if bits p.prm 1 0 = 2 then [(cdiv msg 8, 18)] else [(cdiv msg 8 + 2, 8)])

/-- Lane time (R302 [10], R307), with the free sum of the dummy counts; of a key block, the time of R334. -/
def payLane (c : Cmd) : Nat :=
  if c.op = .keyblockImport || c.op = .keyblockExport then 800
  else
    let (keys, w) := payWork c
    let n := (w.map (·.1)).sum
    35 * keys + 8 + (w.map (fun x => x.1 * x.2)).sum + 2 * (c.draws % (7 * n + 1))

/-- The lane part of a payment command, charged 12 intervals. -/
def payPart (c : Cmd) : Part :=
  { cls := .cipher, credits := 1, hold := payLane c, charge := 12 * payInterval c }

/-- The PAN record of a packet, where it has one. -/
def panOf (p : Packet) (o : Op) : Option Bytes :=
  let f := payForm p o
  match f.ix .pan with
  | some i => some (p.inlineOf i)
  | none =>
    if o == .cvcGenerate || o == .cvcVerify || o == .arqcVerify || o == .arpcGenerate then
      some ((p.inlineOf 0).take 12)
    else none

/-- The PAN token of an audit record (R336). -/
def panToken (d : Dev) (s : Nat) (pan : Bytes) : Bytes :=
  kmac256 (masterOf d s) ((panDigits pan).map (fun x => BitVec.ofNat 8 (0x30 + x))) 8 "ORNATH-PANTOKEN"

/-! Executions. -/

/-- The PAN record of a command, empty where its form has none. -/
def Cmd.pan (c : Cmd) : Bytes := (panOf c.pkt c.op).getD []

/-- A value that the payment unit holds, as two Boolean shares, until its registers are wiped at the end of the command
(R306). -/
def holdPay (id : Nat) (b : Bytes) (d : Dev) : Dev :=
  let (l, d) := xorShares b 1 d
  setJob id { d.job id with pay := l } d

/-- A PIN passed on under the outgoing key (R314). -/
def passPin (id : Nat) (f : Form) (c : Cmd) (pin : Option (List Nat)) (d : Dev) : Dev :=
  match pin with
  | none => failWith .inputInvalid id d
  | some pin =>
    let (r, d) := draw 16 (holdPay id (unnibs (padTo 12 15 pin)) d)
    okOuts (f.put .out0 (encPin c.pkt.pinOut (c.mat 1) c.pan pin r)) id d

/-- PIN_TRANSLATE. -/
def execPinTranslate (id : Nat) : State → Out :=
  execOp .pinTranslate id (fun m c d =>
    let f := payForm c.pkt c.op
    passPin id f c (decPin c.pkt.pinIn (c.mat 0) c.pan (f.get m d c .block)) d)

/-- The value V of R318; none when the PIN is too short. -/
def pvvOf (k pan b : Bytes) (pin : List Nat) : Option (List Nat) :=
  let n := field b 2 1
  if pin.length < n then none
  else if field b 0 1 = 1 then
    let t := lastN 11 (panBody pan) ++ [field b 1 1] ++ pin.take 4
    some (scanDigits 4 (blockEnc true k (unnibs t)))
  else
    let nat := (nibs (blockEnc true k (seg b 12 8))).map (fun x => (nibs (seg b 4 8)).getD x 0)
    some ((List.range n).map (fun i => (pin.getD i 0 + 10 - nat.getD i 0) % 10))

/-- PVV_GENERATE and PVV_VERIFY. -/
def pvvCmd (id : Nat) (m : Memory) (c : Cmd) (d : Dev) : Dev :=
  let f := payForm c.pkt c.op
  let b := f.get m d c .block2
  match (decPin c.pkt.pinIn (c.mat 0) c.pan (f.get m d c .block)).bind (pvvOf (c.mat 1) c.pan b) with
  | none => failWith .inputInvalid id d
  | some v =>
    let enc := unnibs (padTo 12 15 v)
    let d := holdPay id enc d
    if c.op == .pvvGenerate then okOuts (f.put .out0 enc) id d
    else failWith (if enc == seg b 0x14 6 then .ok else .verifyFail) id d

/-- PVV_GENERATE. -/
def execPvvGenerate (id : Nat) : State → Out := execOp .pvvGenerate id (pvvCmd id)

/-- PVV_VERIFY. -/
def execPvvVerify (id : Nat) : State → Out := execOp .pvvVerify id (pvvCmd id)

/-- The code of R319, in BCD. -/
def cvcOf (n : Nat) (k b : Bytes) : Bytes :=
  let s := padTo 32 0 (panDigits b ++ nibs (seg b 12 2) ++ (nibs (seg b 14 2)).take 3)
  let a := unnibs (s.take 16)
  let r := blockEnc true k (xorB (std .tdes 8 [2] [k.take 8, a]) (unnibs (s.drop 16)))
  unnibs (padTo 6 15 (scanDigits n r))

/-- CVC_GENERATE. -/
def execCvcGenerate (id : Nat) : State → Out :=
  execOp .cvcGenerate id (fun m c d =>
    let f := payForm c.pkt c.op
    let x := cvcOf c.prm (c.mat 0) (f.get m d c .block2)
    okOuts (f.put .out0 x) id (holdPay id x d))

/-- CVC_VERIFY. -/
def execCvcVerify (id : Nat) : State → Out :=
  execOp .cvcVerify id (fun m c d =>
    let f := payForm c.pkt c.op
    let x := cvcOf c.prm (c.mat 0) (f.get m d c .block2)
    failWith (if x == f.get m d c .digest then .ok else .verifyFail) id (holdPay id x d))

/-- The IPEK of a BDK (R322): from the KSN with its counter, the 21 low bits, cleared for TDES. -/
def ipekOf (sub : Nat) (bdk b : Bytes) : Bytes :=
  std .ipek (symLen sub) [sub] [bdk, if sub = 4 then beBytes 10 (beNat (b.take 10) / 2 ^ 21 * 2 ^ 21) else b.take 8]

/-- The working key: `use` 0 for PIN encryption, 1 for MAC verification (R322). -/
def workingKey (c : Cmd) (use : Nat) (b : Bytes) : Bytes :=
  let sub := ((c.key 0).map (·.subtype)).getD 0
  let ik := if c.typ 0 = 0x60 then ipekOf sub (c.mat 0) b else c.mat 0
  if sub = 4 then std .dukptTdes 16 [use] [ik, b.take 10]
  else std .dukptAes (symLen (field b 12 1)) [field b 12 1, use] [ik, b.take 12]

/-- The DUKPT translations (R323). -/
def dukptTranslate (id : Nat) (m : Memory) (c : Cmd) (d : Dev) : Dev :=
  let f := payForm c.pkt c.op
  passPin id f c (decPin c.pkt.pinIn (workingKey c 0 (f.get m d c .block2)) c.pan (f.get m d c .block)) d

/-- DUKPT_AES_TRANSLATE. -/
def execDukptAesTranslate (id : Nat) : State → Out := execOp .dukptAesTranslate id (dukptTranslate id)

/-- DUKPT_TDES_TRANSLATE. -/
def execDukptTdesTranslate (id : Nat) : State → Out := execOp .dukptTdesTranslate id (dukptTranslate id)

/-- DUKPT_MAC_VERIFY (R323). -/
def execDukptMacVerify (id : Nat) : State → Out :=
  execOp .dukptMacVerify id (fun m c d =>
    let f := payForm c.pkt c.op
    let k := workingKey c 1 (f.get m d c .block2)
    let x := f.get m d c .msg
    let t := (if c.pkt.tdes then isoMac 3 k (isoPad 1 8 x) else std .cmac 16 [] [k, x]).take c.pkt.macTagLen
    failWith (if t == f.get m d c .mac then .ok else .verifyFail) id d)

/-- Why IPEK_DERIVE is refused (R152 [05], R324); a block that does not suit the BDK's base breaks R320. -/
def ipekRefusal (d : Dev) (c : Cmd) (kar : Bytes) : Option Status :=
  let r := reqOf kar
  let sub := ((c.key 0).map (·.subtype)).getD 0
  let may (u : Nat) : Bool := !bit r.usage u || ((c.key 0).map (fun e => e.may u)).getD false
  match karCheck d kar false with
  | some st => some st
  | none =>
    if r.typ != 0x61 || r.sub != sub || !may uEXPORTBLOB || !may uEXPORTWRAPPED then some .fieldRejected
    else if dukptBad (sub != 4) true (c.pkt.inlineOf 1) then some .packetMalformed
    else if tooDeep c 0 then some .policyRefused
    else if !roomLeft d c 0 then some .resourceQuota
    else none

/-- IPEK_DERIVE (R324). -/
def execIpekDerive (id : Nat) : State → Out :=
  execOp .ipekDerive id (fun m c d =>
    let f := payForm c.pkt c.op
    let kar := f.get m d c .kar
    let r := reqOf kar
    let b := f.get m d c .block2
    let sub := ((c.key 0).map (·.subtype)).getD 0
    match ipekRefusal d c kar with
    | some st => failWith st id d
    | none => makeKey id (childOf c 0 (entryOf r (ipekOf sub (c.mat 0) b) [] false)) true 0 [] d)

/-! EMV (R327). -/

/-- The card master key. -/
def cardKey (c : Cmd) (b : Bytes) : Bytes :=
  let sub := ((c.key 0).map (·.subtype)).getD 0
  std .emvSession (symLen sub) [0, sub] [c.mat 0, unnibs (padTo 20 0 (panDigits b)), leBytes 1 (panLen b), seg b 12 1]

/-- The key that SKD selects. -/
def emvKey (c : Cmd) (b : Bytes) : Bytes :=
  let sub := ((c.key 0).map (·.subtype)).getD 0
  if bits c.prm 1 0 = 1 then std .emvSession (symLen sub) [1, sub] [cardKey c b, seg b 14 2] else cardKey c b

/-- A cryptogram of 8 bytes over data, with a padding method. -/
def emvMac (c : Cmd) (k x : Bytes) (pad : Nat) : Bytes :=
  if ((c.key 0).map (·.subtype)).getD 0 = 4 then isoMac 3 k (isoPad pad 8 x) else (std .cmac 16 [] [k, x]).take 8

/-- The ARPC of a method. -/
def arpcOf (c : Cmd) (b prop : Bytes) : Bytes :=
  let arqc := seg b 16 8
  if c.pkt.arpc = 1 then
    let k := if bit c.prm 5 then cardKey c b else emvKey c b
    let x := xorB arqc (seg b 24 2 ++ zeros 6)
    if ((c.key 0).map (·.subtype)).getD 0 = 4 then blockEnc true k x
    else (blockEnc false k (x ++ zeros 8)).take 8
  else (emvMac c (emvKey c b) (arqc ++ seg b 24 4 ++ prop) 2).take 4

/-- ARQC_VERIFY. -/
def execArqcVerify (id : Nat) : State → Out :=
  execOp .arqcVerify id (fun m c d =>
    let f := payForm c.pkt c.op
    let b := f.get m d c .block2
    if emvMac c (emvKey c b) (f.get m d c .msg) (if bit c.prm 2 then 2 else 1) == seg b 16 8 then
      okOuts (if c.pkt.arpc = 0 then [] else f.put .out0 (arpcOf c b (f.get m d c .info))) id d
    else failWith .verifyFail id d)

/-- ARPC_GENERATE. -/
def execArpcGenerate (id : Nat) : State → Out :=
  execOp .arpcGenerate id (fun m c d =>
    let f := payForm c.pkt c.op
    okOuts (f.put .out0 (arpcOf c (f.get m d c .block2) (f.get m d c .info))) id d)

/-! Retail MACs (R328). -/

/-- The MAC of a METHOD. -/
def retailMac (c : Cmd) (x : Bytes) : Bytes :=
  (match bits c.prm 1 0 with
   | 1 => isoMac 3 (c.mat 0) (isoPad 1 8 x)
   | 2 => isoMac 1 (c.mat 0) (isoPad 1 8 x)
   | _ => isoMac 3 (c.mat 0) (isoPad 2 8 x)).take (retailLen c.pkt)

/-- RETAIL_MAC_GEN. -/
def execRetailMacGen (id : Nat) : State → Out :=
  execOp .retailMacGen id (fun m c d =>
    let f := payForm c.pkt c.op
    okOuts (f.put .mac (retailMac c (f.get m d c .msg))) id d)

/-- RETAIL_MAC_VERIFY. -/
def execRetailMacVerify (id : Nat) : State → Out :=
  execOp .retailMacVerify id (fun m c d =>
    let f := payForm c.pkt c.op
    failWith (if retailMac c (f.get m d c .msg) == f.get m d c .mac then .ok else .verifyFail) id d)

/-! Key blocks (R329 to R333). -/

/-- A character of a key block as a number. -/
def chr (b : Bytes) (i : Nat) : Nat := (b.getD i 0).toNat

/-- Value of a hexadecimal character. -/
def hexVal (c : Nat) : Option Nat :=
  if 0x30 ≤ c && c ≤ 0x39 then some (c - 0x30)
  else if 0x41 ≤ c && c ≤ 0x46 then some (c - 0x37)
  else if 0x61 ≤ c && c ≤ 0x66 then some (c - 0x57)
  else none

/-- Decimal number in characters; none when one is no digit. -/
def decNum (b : Bytes) : Option Nat :=
  b.foldl (fun r c => r.bind (fun n =>
    if 0x30 ≤ c.toNat && c.toNat ≤ 0x39 then some (10 * n + (c.toNat - 0x30)) else none)) (some 0)

/-- An alphanumeric character. -/
def isAlnum (c : Nat) : Bool :=
  (decide (0x30 ≤ c) && decide (c ≤ 0x39)) || (decide (0x41 ≤ c) && decide (c ≤ 0x5A))
    || (decide (0x61 ≤ c) && decide (c ≤ 0x7A))

/-- A byte string as hexadecimal characters. -/
def hexOf (b : Bytes) : Bytes := (nibs b).map (fun n => BitVec.ofNat 8 (if n < 10 then 0x30 + n else 0x37 + n))

/-- `n` decimal digits of a number. -/
def decOf : Nat → Nat → Bytes
  | 0, _ => []
  | k + 1, n => decOf k (n / 10) ++ [BitVec.ofNat 8 (0x30 + n % 10)]

/-- The usage codes of R330: code, TYPE (0: the algorithm itself), and the bits of modes E, D, B, G, V, C, X. -/
def usageModes (u : Bytes) : Option (Nat × List (Nat × List Nat)) :=
  let gv (g v : Nat) : List (Nat × List Nat) := [(0x47, [g]), (0x56, [v]), (0x43, [g, v])]
  let ed (e x : Nat) : List (Nat × List Nat) := [(0x45, [e]), (0x44, [x]), (0x42, [e, x])]
  let table : List (Bytes × Nat × List (Nat × List Nat)) :=
    [(ascii "B0", 0x60, [(0x58, [uDUKPT])]), (ascii "B1", 0x61, [(0x58, [uDUKPT])]),
     (ascii "C0", 0x65, gv uCVCGEN uCVCVERIFY), (ascii "D0", 0, ed uENCRYPT uDECRYPT),
     (ascii "E0", 0x66, [(0x58, [uARQCVERIFY, uARPCGEN])]), (ascii "K0", 0x63, ed uKBPKWRAP uKBPKUNWRAP),
     (ascii "M1", 0, gv uMACGEN uMACVERIFY), (ascii "M3", 0, gv uMACGEN uMACVERIFY),
     (ascii "P0", 0x62, ed uPINOUT uPININ), (ascii "V1", 0x64, gv uPVVGEN uPVVVERIFY),
     (ascii "V2", 0x64, gv uPVVGEN uPVVVERIFY)]
  (table.find? (fun e => e.1 == u)).map (·.2)

/-- TYPE, SUBTYPE and mode bits that a usage, algorithm and mode map to; none where R330 refuses them. -/
def usageMap (u : Bytes) (alg mode : Nat) : Option (Nat × Nat × Nat) :=
  match usageModes u with
  | none => none
  | some (t, modes) =>
    let okAlg := if u == ascii "M3" then alg == 4 else if u == ascii "M1" then alg == 4 || alg == 5 else true
    match modes.find? (fun e => e.1 == mode) with
    | some (_, l) => if okAlg then some (if t = 0 then (alg, 0, maskOf l) else (t, alg, maskOf l)) else none
    | none => none

/-- The optional blocks from offset `o`: `n` of them, with the 'KP' found on the way; the offset after them. -/
def optBlocks (kb usage : Bytes) : Nat → Nat → Option Bytes → Option (Nat × Option Bytes)
  | 0, o, kp => some (o, kp)
  | n + 1, o, kp =>
    let bid := seg kb o 2
    match hexVal (chr kb (o + 2)), hexVal (chr kb (o + 3)) with
    | some a, some b =>
      let len := 16 * a + b
      let ok := bid == ascii "KP" || bid == ascii "PB" || bid == ascii "TS"
        || (bid == ascii "KS" && usage == ascii "B0") || (bid == ascii "IK" && usage == ascii "B1")
        || (decide (0x30 ≤ chr kb o) && decide (chr kb o ≤ 0x39))
      if ok && decide (4 ≤ len) && decide (o + len ≤ kb.length) then
        optBlocks kb usage n (o + len) (if bid == ascii "KP" then some (seg kb (o + 4) (len - 4)) else kp)
      else none
    | _, _ => none

/-- What check 2 of R332 reads from a header. -/
structure KbHdr where
  version : Nat
  usage : Bytes
  alg : Nat
  mode : Nat
  exp : Nat
  kp : Option Bytes
  body : Nat

/-- Check 2 of R332: header syntax, version, length, optional blocks, and hexadecimal characters after them. -/
def kbHdr (std1 : Bool) (kbpk : Nat) (kb : Bytes) : Option KbHdr :=
  let v := chr kb 0
  let tdes := kbpk == 4 || kbpk == 5
  let usage := seg kb 5 2
  let okV := ((v == 0x42 || v == 0x43) && tdes && !std1) || (v == 0x44 && !tdes)
  let exp := chr kb 11
  match decNum (seg kb 12 2) with
  | none => none
  | some n =>
    if !okV || decNum (seg kb 1 4) != some kb.length || !isAlnum (chr kb 9) || !isAlnum (chr kb 10)
      || chr kb 9 == 0x63 || !(exp == 0x45 || exp == 0x4E || exp == 0x53) || decide (n > 10)
      || seg kb 14 2 != ascii "00" then none
    else
      match optBlocks kb usage n 16 none with
      | none => none
      | some (o, kp) =>
        if o > 512 || (kb.drop o).any (fun c => (hexVal c.toNat).isNone) then none
        else some { version := v, usage := usage, alg := chr kb 7, mode := chr kb 8, exp := exp, kp := kp, body := o }

/-- Algorithm of a decrypted key, from the header's letter and its length. -/
def kbAlg (letter len : Nat) : Option Nat :=
  if letter = 0x54 then (if len = 16 then some 4 else if len = 24 then some 5 else none)
  else if letter = 0x41 then
    (if len = 16 then some 1 else if len = 24 then some 2 else if len = 32 then some 3 else none)
  else none

/-- Why KEYBLOCK_IMPORT is refused before its key block is looked at: a parent at DEPTH 8 (R160 [05]), and order 1 of
R332. -/
def kbRefusal (d : Dev) (c : Cmd) : Option Status :=
  if tooDeep c 0 then some .policyRefused else if !roomLeft d c 0 then some .resourceQuota else none

/-- KEYBLOCK_IMPORT (R332). At order 7 every KAR rule gives FIELD_REJECTED (DEDUCED, log 62). The key field opens to a length prefix in bits, the key, and padding. -/
def execKeyblockImport (id : Nat) : State → Out :=
  execOp .keyblockImport id (fun m c d =>
    let f := payForm c.pkt c.op
    let kar := f.get m d c .kar
    let kb := f.get m d c .blob
    let r := reqOf kar
    let kbpk := ((c.key 0).map (·.subtype)).getD 0
    match kbRefusal d c with
    | some st => failWith st id d
    | none =>
      match kbHdr (c.prm == 16) kbpk kb with
      | none => failWith .keyBlobInvalid id d
      | some h =>
        let fld := Config.std .keyblockOpen [h.version] [c.mat 0, kb]
        let len := beNat (fld.take 2) / 8
        match (kbAlg h.alg len).bind (fun a => (usageMap h.usage a h.mode).map (fun u => (a, u))) with
        | none => failWith .keyBlobInvalid id d
        | some (alg, t, s, modeBits) =>
          let ceil := modeBits ||| maskOf ([uEXPORTBLOB, uMIRROR] ++ onlyIfNat (h.exp == 0x45) uEXPORTWRAPPED)
          let mat := seg fld 2 len
          if strength kbpk < strength alg || !Config.stdOk .keyblockOpen [h.version] [c.mat 0, kb]
            || beNat (fld.take 2) % 8 != 0 || fld.length != (if alg ≤ 3 then 48 else 32)
            || r.typ != t || r.sub != s || anyBit r.usage (2 ^ 32 - 1 - ceil) then failWith .keyBlobInvalid id d
          else
            if (karCheck d kar false).isSome then failWith .fieldRejected id d
            else
              let e := childOf c 0 (entryOf r mat [] false)
              makeKey id e (h.kp.all (fun k => k == hexOf (fit 3 e.kcv))) 0 [] d)
where
  /-- A number under a condition, as a list. -/
  onlyIfNat (b : Bool) (n : Nat) : List Nat := if b then [n] else []

/-- The header of an exported key block: 16 characters, 'KP', and a 'PB' that brings it to 32 (R331). -/
def kbHeader (version total alg : Nat) (req kcv : Bytes) : Bytes :=
  [BitVec.ofNat 8 version] ++ decOf 4 total ++ seg req 0 2 ++ [if alg ≤ 3 then 0x41 else 0x54] ++ seg req 2 1
    ++ seg req 4 2 ++ seg req 3 1 ++ ascii "0200" ++ ascii "KP0A" ++ hexOf (fit 3 kcv) ++ ascii "PB0600"

/-- KEYBLOCK_EXPORT (R333). -/
def execKeyblockExport (id : Nat) : State → Out :=
  execOp .keyblockExport id (fun m c d =>
    let f := payForm c.pkt c.op
    let req := f.get m d c .params
    let exp := chr req 3
    match c.key 1 with
    | none => d
    | some e =>
      let alg := baseAlg e.typ e.subtype
      let tdes := ((c.key 0).map (·.subtype)).getD 0 ≥ 4
      let okKvn := isAlnum (chr req 4) && isAlnum (chr req 5) && chr req 4 != 0x63
      match usageMap (seg req 0 2) alg (chr req 2) with
      | none => failWith .fieldRejected id d
      | some (t, s, need) =>
        if t != e.typ || s != e.subtype || anyBit need (2 ^ 32 - 1 - e.usage) || !okKvn
          || !(exp == 0x45 || exp == 0x4E || exp == 0x53) || field req 6 2 != 0 then failWith .fieldRejected id d
        else
          let n := (if alg ≤ 3 then 96 else 64) + (if tdes then 16 else 32)
          let v := if tdes then 0x42 else 0x44
          let h := kbHeader v (32 + n) alg req e.kcv
          let (r, d) := draw 64 d
          let kb := h ++ std .keyblockSeal n [v] [c.mat 0, h, e.material, r]
          okOuts (f.put .blob (fit 1024 (leBytes 2 kb.length ++ kb))) id d)

end Sys2Proof.Machine
end

