-- ==== Sys2Proof/Machine/Rings.lean ====
section
/-!
DEFINITION. Queue and ring registers, doorbells, enabling, disabling, framing faults, the push window (R92 to
R118 [03], R42 [01]).
-/
namespace Sys2Proof.Machine

/-! Positions (R93, R94). -/

/-- The position in an index word: INDEX in bits [15:0], WRAP in bit 16. -/
def posOfWord (n v : Nat) : Nat := bits v 16 16 * n + bits v 15 0

/-- The index word of a position; 0 of a ring that has never had a depth (R110). -/
def wordOfPos (n p : Nat) : Nat := if n = 0 then 0 else if p < n then p else 65536 + (p - n)

/-- Slots from `c` to `p`. -/
def usedFrom (n c p : Nat) : Nat := (p + 2 * n - c) % (2 * n)

/-- The phase expected at a position (R95). -/
def phaseAt (n p : Nat) : Bool := decide (p < n)

/-- Reorder slots held by queue `q` of a slice (Q_OCC). -/
def slotsHeld (d : Dev) (s q : Nat) : Nat := (d.cmds.filter (fun c => c.slice == s && c.qk == q)).length

/-! Submission queues. -/

/-- A doorbell or a restart that is discarded. -/
def sqDrop (s q : Nat) (d : Dev) : Dev := d.modSq s q (fun x => { x with dbDrop := true })

/-- SQ_DOORBELL (R100). -/
def execSqDoorbell (sl : Fin 256) (q : Fin 16) (v : BitVec 32) : State → Out :=
  onDev (fun d =>
    let x := d.sq sl q
    let p := posOfWord x.depth v.toNat
    if !d.open_ sl then d
    else if x.st == .disabled || x.st == .draining || x.depth ≤ bits v.toNat 15 0
      || usedFrom x.depth x.pos p > x.depth then sqDrop sl q d
    else if p = x.pos && x.st != .qerr then d.modSq sl q (fun x => { x with prod := none, notNewAt := none })
    else d.modSq sl q (fun x => { x with prod := some p }))

/-- SQ_RESTART (R116). -/
def execSqRestart (sl : Fin 256) (q : Fin 16) (v : BitVec 32) : State → Out :=
  onDev (fun d =>
    let x := d.sq sl q
    if !d.open_ sl || !v.getLsbD 31 then d
    else if x.st != .qerr || x.depth ≤ bits v.toNat 15 0 then sqDrop sl q d
    else d.modSq sl q (fun x => { x with
      pos := posOfWord x.depth v.toNat, errReason := 0, errPos := 0, st := .running, notNewAt := none,
      contAt := none, ciOwed := x.ciAddr != 0, prod := x.prod.filter (fun p =>
        let u := usedFrom x.depth (posOfWord x.depth v.toNat) p
        decide (0 < u) && decide (u ≤ x.depth)) }))

/-- CFG_FAULT of an enable of submission queue `q` (R111), 0 when it succeeds. A slot that a PASID_UNBIND is closing
still holds its PASID, and the queue is enabled (R76 [02] does not say; DESIGN CHOICE, log 69). -/
def sqFault (x : Slice) (s q : Nat) (y : Sq) : Nat :=
  if x.cfg.queues ≤ q then 1
  else if y.depth < 2 || y.depth > 65536 then 2
  else if y.base = 0 then 3
  else if s != 0 && !(x.pasids.getD y.pasidSlot ⟨false, 0, false⟩).valid then 4
  else if (x.cq y.cqSel).st == .disabled then 5
  else if y.window = 0 || y.window > 4096 then 6
  else if y.poll > 20000 then 7
  else 0

/-- SQ_CFG fields other than ENABLE, as written (R110). -/
def sqCfgWrite (v : Nat) (y : Sq) : Sq :=
  { y with pasidSlot := bits v 30 29, cqSel := bits v 23 20, depth := bits v 16 0 }

/-- A write of SQ_CFG with ENABLE 1 (R110, R111). -/
def sqEnableWrite (s q v : Nat) (d : Dev) : Dev :=
  if !d.open_ s || (d.sq s q).st != .disabled then d
  else
    let y := sqCfgWrite v (d.sq s q)
    let f := sqFault (d.slice s) s q y
    d.modSq s q (fun _ =>
      if f != 0 then { y with cfgFault := f }
      else { y with cfgFault := 0, st := .running, pos := 0, prod := none, pollDue := false, pollAt := d.clk,
                    ciOwed := false, notNewAt := none, contAt := none, errReason := 0, errPos := 0 })

/-- SQ_ENABLE (R111). -/
def execSqEnable (sl : Fin 256) (q : Fin 16) (v : BitVec 32) : State → Out := onDev (sqEnableWrite sl q v.toNat)

/-- Streams of a queue that is reset are discarded (R133 [04]). -/
def dropQueueStreams (s q : Nat) (d : Dev) : Dev :=
  sweep (d.modSlice s (fun x => { x with streams := x.streams.filter (fun t => t.queue != q) }))

/-- A write of SQ_CFG with ENABLE 0 to a queue that is RUNNING or in QERR (R112). -/
def sqDisableWrite (s q : Nat) (d : Dev) : Dev :=
  let x := d.sq s q
  if d.open_ s && (x.st == .running || x.st == .qerr) then
    d.modSq s q (fun x => { x with st := .draining, prod := none, pollDue := false, notNewAt := none,
                                   contAt := none })
  else d

/-- SQ_DISABLE (R112). -/
def execSqDisable (sl : Fin 256) (q : Fin 16) : State → Out := onDev (sqDisableWrite sl q)

/-- SQ_DRAIN_DONE (R112): the DRAINING queue holds no reorder slot. -/
def execSqDrainDone (sl : Fin 256) (q : Fin 16) : State → Out :=
  onDev (fun d =>
    if (d.sq sl q).st == .draining && slotsHeld d sl q == 0 then
      dropQueueStreams sl q (d.modSq sl q (fun x => { x with st := .disabled }))
    else d)

/-- SQ_POLL (R101): the poll interval is over. -/
def execSqPoll (sl : Fin 256) (q : Fin 16) : State → Out :=
  onDev (fun d =>
    let x := d.sq sl q
    if x.st == .running && x.poll != 0 && decide (x.pollAt + 50 * x.poll ≤ d.clk) then
      d.modSq sl q (fun x => { x with pollDue := true, pollAt := d.clk })
    else d)

/-! Completion rings. -/

/-- CQ_DOORBELL (R105, R106): the position lies between the read position last accepted and the head last written; a stalled ring resumes when room is made. -/
def execCqDoorbell (sl : Fin 256) (r : Fin 16) (v : BitVec 32) : State → Out :=
  onDev (fun d =>
    let x := d.cq sl r
    let p := posOfWord x.depth v.toNat
    if !d.open_ sl then d
    else if x.st == .disabled || x.depth ≤ bits v.toNat 15 0
      || usedFrom x.depth x.rd p > usedFrom x.depth x.rd x.headOut then
      d.modCq sl r (fun x => { x with dbDrop := true })
    else d.modCq sl r (fun x => { x with
      rd := p, st := if x.st == .stalled && usedFrom x.depth p x.head < x.depth then .running else x.st }))

/-- CQ_CFG fields other than ENABLE, as written (R110). -/
def cqCfgWrite (v : Nat) (y : Cq) : Cq :=
  { y with pasidSlot := bits v 30 29, intEn := bit v 28, depth := bits v 16 0 }

/-- CFG_FAULT of an enable of completion ring `q` (R111). -/
def cqFault (x : Slice) (s q : Nat) (y : Cq) : Nat :=
  if x.cfg.queues ≤ q then 1
  else if y.depth < 2 || y.depth > 65536 then 2
  else if y.base = 0 then 3
  else if s != 0 && !(x.pasids.getD y.pasidSlot ⟨false, 0, false⟩).valid then 4
  else if y.headAddr = 0 then 8
  else 0

/-- A write of CQ_CFG with ENABLE 1 (R111, R105). -/
def cqEnableWrite (s q v : Nat) (d : Dev) : Dev :=
  if !d.open_ s || (d.cq s q).st != .disabled then d
  else
    let y := cqCfgWrite v (d.cq s q)
    let f := cqFault (d.slice s) s q y
    d.modCq s q (fun _ =>
      if f != 0 then { y with cfgFault := f }
      else { y with cfgFault := 0, st := .running, head := 0, headOut := 0, rd := 0, since := 0, firstAt := none,
                    uncovered := [] })

/-- CQ_ENABLE (R111). -/
def execCqEnable (sl : Fin 256) (r : Fin 16) (v : BitVec 32) : State → Out := onDev (cqEnableWrite sl r v.toNat)

/-- A write of CQ_CFG with ENABLE 0 (R112): discarded while a queue that is not DISABLED names the ring. -/
def cqDisableWrite (s r : Nat) (d : Dev) : Dev :=
  let x := d.slice s
  if !d.open_ s || (List.range 16).any (fun q => (x.sq q).st != .disabled && (x.sq q).cqSel == r) then d
  else d.modCq s r (fun y => { y with st := .disabled })

/-- CQ_DISABLE (R112). -/
def execCqDisable (sl : Fin 256) (r : Fin 16) : State → Out := onDev (cqDisableWrite sl r)

/-- Vector 0 of a slice for ring `r` (R107). -/
def cqSignal (s r : Nat) (d : Dev) : Dev :=
  raiseSlice s 0 (d.modCq s r (fun x => { x with since := 0, firstAt := none }))

/-- CQ_COALESCE_TIMEOUT (R107). -/
def execCqCoalesceTimeout (sl : Fin 256) (r : Fin 16) : State → Out :=
  onDev (fun d =>
    let x := d.cq sl r
    match x.firstAt with
    | some t =>
      if x.intEn && x.coalTime != 0 && x.since != 0 && decide (t + 100 * x.coalTime ≤ d.clk) then
        cqSignal sl r d
      else d
    | none => d)

/-! Framing faults (R114 to R117). -/

/-- A doorbell covers the consumer position (R100). -/
def doorbellDue (x : Sq) : Bool :=
  match x.prod with
  | some p => decide (0 < usedFrom x.depth x.pos p) && decide (usedFrom x.depth x.pos p ≤ x.depth)
  | none => false

/-- A framing fault of queue `q` of slice `s` at its consumer position. -/
def framingFault (s q reason : Nat) (translation : Bool) (d : Dev) : Dev :=
  let d := if translation then pasidFault s ((d.sq s q).base + 64 * ((d.sq s q).pos % (d.sq s q).depth)) 6 d else d
  if d.link.qerrHalt then raiseFault 403 0 0 none d
  else
    raisePf0 s (raiseSlice s 2 (d.modSq s q (fun x => { x with
      st := .qerr, errReason := reason, errPos := x.pos, notNewAt := none, contAt := none,
      pollDue := false })))

/-- GRANULE0_TIMEOUT (R102): 1 ms after the read that first found the granule not new, while a doorbell covers it. -/
def execGranule0Timeout (sl : Fin 256) (q : Fin 16) : State → Out :=
  onDev (fun d =>
    match (d.sq sl q).notNewAt with
    | some t =>
      if (d.sq sl q).st == .running && doorbellDue (d.sq sl q) && decide (t + 1000000 ≤ d.clk) && d.alive then
        framingFault sl q 7 false d
      else d
    | none => d)

/-! Consumer-index words (R103). -/

/-- The consumer word of a queue written when it is owed and 250 ns have passed since the last; a write whose translation
fails is not made, is reported, and is made again at the next advance (R118). -/
def publishCi (s q : Nat) (d : Dev) : Dev :=
  let x := d.sq s q
  let due := match x.ciAt with
    | some t => decide (t + 250 ≤ d.clk)
    | none => true
  if !x.ciOwed || x.ciAddr = 0 || !due || d.dmaHeld then d
  else if x.ciFails then pasidFault s x.ciAddr 5 (d.modSq s q (fun x => { x with ciOwed := false, ciFails := false }))
  else hostWrite s x.pasidSlot x.ciAddr (leBytes 4 (wordOfPos x.depth x.pos))
    (d.modSq s q (fun x => { x with ciOwed := false, ciAt := some d.clk }))

/-- Every consumer word that is owed and due. -/
def publishDue (d : Dev) : Dev :=
  forEach d.slices (fun (e : Nat × Slice) d =>
    forEach e.2.sqs (fun (f : Nat × Sq) d => if f.2.ciOwed then publishCi e.1 f.1 d else d) d) d

/-! The push window (R42). -/

/-- Push slot `n`. -/
def Slice.pslotAt (x : Slice) (n : Nat) : PushSlot := tget ⟨[], 0⟩ x.push n

/-- Bytes written to a push slot that is not posted; it is posted once all 64 bytes of granule 0 are. -/
def pushBytes (s n off : Nat) (b : Bytes) (d : Dev) : Dev :=
  let x := d.slice s
  if !x.pushFree.getLsbD n then d
  else
    let w := (b.zipIdx off).filter (fun (e : Byte × Nat) => decide (e.2 < 256))
    let put (p : PushSlot) (e : Byte × Nat) : PushSlot :=
      { bytes := tset p.bytes e.2 e.1, written := if e.2 < 64 then p.written ||| (1#64 <<< e.2) else p.written }
    let p := w.foldl put (x.pslotAt n)
    d.modSlice s (fun x => { x with
      push := tset x.push n p,
      pushFree := if p.written == BitVec.allOnes 64 then x.pushFree &&& ~~~(1#16 <<< n) else x.pushFree })

/-- PUSH_SLOT_POST (R42, R57, R117). -/
def execPushSlotPost (sl : Fin 256) (slot : Fin 16) (off : Fin 256) (data : Bytes) : State → Out :=
  onDev (fun d => if d.open_ sl && !d.link.halt then pushBytes sl slot off data d else d)

/-- The slot is freed (R42): nothing of granule 0 counts as written. -/
def freePush (s n : Nat) (d : Dev) : Dev :=
  d.modSlice s (fun x => { x with push := tset x.push n { x.pslotAt n with written := 0 },
                                  pushFree := x.pushFree ||| (1#16 <<< n) })

end Sys2Proof.Machine
end

