-- ==== Sys2Proof/Machine/Families.lean ====
section
/-!
DEFINITION. One place for what every opcode's family says: its form, the keys that suit it, its engine work, who
may issue it (R125, R126, R136 to R138 [04], R27 [01]).
-/
namespace Sys2Proof.Machine

/-- Forms of groups 0x01 and 0x0C (R61, R66, R70 [02]; R404, R405, R415, R417, R509 [14]; R426, R433 [15]; R452
[16]). -/
def adminForm (p : Packet) (o : Op) : Form :=
  let zero := p.prm == 0
  match o with
  | .sliceCreate => { args := [inArg .in0 32 32, outArg .out0 40, outArg .out1 4] }
  | .sliceConfigure => { args := [inArg .in0 32 32, outArg .out0 40] }
  | .pasidBind | .pasidUnbind => { args := [inArg .in0 8 8] }
  | .engineService => { param := zero, args := [inlArg .in0 8 8, outArg .out0 8] }
  | .tamperPolicySet =>
    match p.prm with
    | 0 => { args := [inArg .in0 32 32] }
    | 3 => { args := [inArg .in0 8 8] }
    | n => { param := decide (n < 3) }
  | .patchLoad => { param := zero, args := [inArg .in0 4792 48312] }
  | .moduleLoad => { param := zero, args := [inArg .in0 4792 47800, inArg .in1 2689 2689] }
  | .policyLoad => { param := zero, args := [inArg .in0 4792 21176, inArg .in1 2689 2689] }
  | .selfTest => { param := zero, args := [inArg .in0 4 4, outArg .out0 8] }
  | .katRun => { param := bits p.prm 4 0 != 0 && bits p.prm 7 5 == 0, args := [outArg .out0 8] }
  | .entropyStatus => { param := zero, args := [outArg .out0 64] }
  | .echo => { param := zero, args := [inArg .in0 0 4096, outArg .out0 (p.dlen 0)] }
  | .faultInject => { param := zero, args := [inArg .in0 8 8] }
  | _ => {}

/-- The form of a module opcode (R435 [15]): the direction and length of each descriptor are length rules. -/
def moduleForm (p : Packet) (e : Bytes) : Form :=
  let at_ (i : Nat) : Arg := { role := .in0, out := (p.desc i).isOut, lo := 0, hi := 2 ^ 32 }
  let ok (i : Nat) : Bool :=
    let x := modDesc e i
    let n := p.dlen i
    (p.desc i).isOut == bit x 31 && (if bit x 31 then n == bits x 23 0 else decide (n ≤ bits x 23 0))
  { need := List.range (modKeys e), args := (List.range (modDescs e)).map at_,
    lens := (List.range (modDescs e)).all ok }

/-- The form of a packet on an operation. -/
def formOf (d : Dev) (p : Packet) (o : Op) : Form :=
  if o = .moduleOp then
    match moduleFor d p.opcode with
    | some e => moduleForm p e
    | none => {}
  else
    match p.opcode / 256 with
    | 2 => keyForm p o
    | 3 => latForm p o
    | 4 => if p.opcode % 256 < 0x10 then hashForm p o else if p.opcode % 256 < 0x20 then slhForm p o else treeForm p o
    | 5 => codeForm p o
    | 6 => if p.opcode % 256 < 0x10 then rsaForm p o else ecForm p o
    | 7 => cipherForm p o
    | 8 => payForm p o
    | 9 => boardForm p o
    | 0xA => boardForm p o
    | 0xB => custForm p o
    | _ => adminForm p o

/-- TYPE and usage of an SLH-DSA key (R224 [07]). -/
def slhKey (c : Cmd) (e : Entry) : Bool :=
  if c.op == .slhdsaSign then e.fits (0x20 + c.pkt.slhSet) uSIGN true
  else e.fits (0x20 + c.pkt.slhSet) uVERIFY false

/-- Check 3 of R27: the key in field `i` suits the opcode and its PARAM. -/
def keySuits (d : Dev) (c : Cmd) (i : Nat) (e : Entry) : Bool :=
  if c.op = .moduleOp then
    match moduleFor d c.pkt.opcode with
    | some t => e.usage &&& modUsage t == modUsage t
    | none => true
  else
    match c.pkt.opcode / 256 with
    | 2 => keyOpKey c i e
    | 3 => latKey c i e
    | 4 =>
      if c.pkt.opcode % 256 < 0x10 then hashKey c e
      else if c.pkt.opcode % 256 < 0x20 then slhKey c e else treeKey c e
    | 5 => codeKey c e
    | 6 => if isRsa c.op then rsaKey c e else ecKey c e
    | 7 => cipherKey c e
    | 8 => payKey c i e
    | _ => if c.op = .mirrorPut then e.may uMIRROR else true

/-- The parts of a command's engine work; one without parts has no engine class (R137). -/
def partsOf (d : Dev) (c : Cmd) : List Part :=
  if c.op = .moduleOp then
    match moduleFor d c.pkt.opcode with
    | some e =>
      [if modUnit e = 1 then part .lattice 1 (modService e) else part .classical (modSlices e) (modService e)]
    | none => []
  else
    match c.pkt.opcode / 256 with
    | 2 => keyParts d c
    | 3 => latParts d c
    | 4 =>
      if c.pkt.opcode % 256 < 0x10 then [part .hash 1 (hashTime d c)]
      else if c.pkt.opcode % 256 < 0x20 then [slhPart c] else treeParts d c
    | 5 => [part .code 1 (codeTime c)]
    | 6 => [classicalPart c]
    | 7 => [cipherPart c]
    | 8 => [payPart c]
    | _ =>
      if c.op = .katRun then (allClasses.filter (fun k => bit c.prm (classNo k))).map (fun k => part k 1 20000)
      else []

/-- Engine classes of a command (R137). -/
def classesOf (d : Dev) (c : Cmd) : List EngClass := ((partsOf d c).map (·.cls)).eraseDups

/-- The command needs a DRBG when it is dispatched (R183 [06], R242 [08], R262 [09], R287 [10], R313 [11]). -/
def needsDrbg (d : Dev) (c : Cmd) : Bool :=
  (partsOf d c).any (fun x => x.cls == .cipher) && c.op != .katRun
    || (match c.pkt.opcode / 256 with
        | 3 => latDrbg c.op
        | 4 => c.op == .slhdsaKeygen || (c.op == .slhdsaSign && !bit c.prm 4) || c.op == .lmsKeygen
                 || c.op == .xmssKeygen
        | 5 => true
        | 6 => classicalDrbg c.op
        | _ => false)

/-- Descriptors that are read before the dispatch: the KAR of a command that makes a key, the request of a RESERVE. -/
def startInputs (d : Dev) (c : Cmd) : List Nat :=
  let f := formOf d c.pkt c.op
  ((f.ix .kar).toList ++ (if c.op == .lmsReserve || c.op == .xmssReserve then (f.ix .params).toList else []))

/-- The KAR of a command, once it has been read. -/
def karOf (d : Dev) (c : Cmd) : Option Bytes :=
  match (formOf d c.pkt c.op).ix .kar with
  | some i => if (c.early i).length = 32 then some (c.early i) else none
  | none => none

/-- Why a command is refused for its KAR (R152 [05] and the rules of its opcode). -/
def karRefusal (d : Dev) (c : Cmd) (kar : Bytes) : Option Status :=
  let p := c.pkt
  match c.op with
  | .keyGenerate => generateRefusal d c kar
  | .keyImportBlob | .keyUnwrap => importRefusal d c kar
  | .keyDerive => deriveRefusal d c kar
  | .mlkemKeygen => genRefusal d c kar (0x10 + p.set2) 0
  | .mldsaKeygen => genRefusal d c kar (0x14 + p.set2) 0
  | .fndsaKeygen => genRefusal d c kar (0x18 + p.set2) 0
  | .slhdsaKeygen => genRefusal d c kar (0x20 + p.slhSet) 0
  | .lmsKeygen | .xmssKeygen => treeKeygenRefusal d c kar
  | .hqcKeygen | .mceKeygen => genRefusal d c kar (codeType c.op p.set3) 0
  | .rsaKeygen => genRefusal d c kar 0x48 p.prm
  | .ecKeygen => genRefusal d c kar (0x50 + p.curve) 0
  | .mlkemEncaps | .hybridKemEncaps => secretKar d c p.css false 0x34 kar
  | .mlkemDecaps | .hybridKemDecaps => secretKar d c p.css true 0x34 kar
  | .hqcEncaps | .mceEncaps => secretKar d c p.css false (codeSub c.op) kar
  | .hqcDecaps | .mceDecaps => secretKar d c p.css true (codeSub c.op) kar
  | .ecdh | .xdh => agreeKar d c kar
  | .ipekDerive => ipekRefusal d c kar
  | .keyblockImport => kbRefusal d c
  | _ => none

/-- What ends a command before its dispatch, with no engine time taken: a refused KAR, and a quota or allowance that lacks
room (R152 [05], R209 [06], R239 [07], R258 [08], R282 [09], R332 [11]); what R163 [05] and R234 [07] refuse. -/
def startRefusal (d : Dev) (c : Cmd) : Option Status :=
  if c.dmaErr.isSome then none
  else
    match c.op, c.keys.head? with
    | .lmsReserve, some k | .xmssReserve, some k => reserveRefusal (d.ent k.idx) c (c.early 0)
    | .keyReplace, some k => replaceRefusal d c (d.ent k.idx)
    | _, _ => (karOf d c).bind (karRefusal d c)

/-- The new entry of a command that makes a key is PENDING from its dispatch on, and counts against the quota and the
allowance from then (R152, worked example of [08]). -/
def reserveEntry (c : Cmd) (d : Dev) : Cmd × Dev :=
  match karOf d c with
  | none => (c, d)
  | some kar =>
    if c.entry.isSome || c.foreign.isSome then (c, d)
    else
      let r := reqOf kar
      let units := if c.op = .keyImportBlob || c.op = .keyUnwrap then importUnits c r else unitsFor r.typ r.sub false
      match allocEnt c.slice { blankEntry 1 with units := units } d with
      | some (i, d) => ({ c with entry := some i }, d)
      | none => (c, d)

/-- The opcodes that accept segments (R131). -/
def streamable (o : Op) : Bool :=
  match o with
  | .hash | .xof | .hmacGen | .hmacVerify | .kmacGen | .kmacVerify | .encrypt | .decrypt | .aeadEncrypt
  | .aeadDecrypt | .macGen | .macVerify => true
  | _ => false

/-- "Issued by" of R136. -/
def mayIssue (d : Dev) (s : Nat) (p : Packet) (o : Op) : Bool :=
  match o with
  | .moduleOp =>
    match moduleFor d p.opcode with
    | some e => modMask e s
    | none => true
  | .boardBind | .ringStatus | .spillConfig | .lcTransition | .debugChallenge | .selfTest | .faultInject => s == 0
  | .sliceDecommission => s != 0
  | _ => p.opcode / 256 != 1 || s == 0

/-- LIFECYCLE_REFUSED (R365, R369, R373 [13]; R400 [14]; R136 [04] for FAULT_INJECT). After a transition the commands
that R369 lets through are admitted, SLICE_CREATE among them, where R66 [02] says that it admits none that attaches a
key (DEDUCED, log 51). -/
def lifecycleRefused (d : Dev) (p : Packet) (o : Op) : Bool :=
  let g := p.opcode / 256
  let core := g == 1 || o == .lcTransition
  let lc := d.lc
  let table :=
    if lc = 0 then core || (g == 0xC && o != .faultInject)
    else if isTestUnlocked lc then o != .identityAttest
    else if isTestLocked lc then o != .identityAttest && o != .faultInject
    else if lc = 17 then core || o == .identityAttest || (g == 0xC && o != .faultInject)
    else if lc = 18 then o != .faultInject
    else if lc = 19 then o != .faultInject && o != .debugChallenge
    else if lc = 20 then core || o == .identityAttest || o == .debugChallenge || (g == 0xC && o != .faultInject)
    else false
  !table || (d.prot.latched && !(core || g == 0xC || o == .identityAttest))
    || (d.link.lcClosed && !(core || o == .identityAttest))
    || (d.link.debugOpen && !(core || o == .identityAttest || g == 0xC))

end Sys2Proof.Machine
end

