-- ==== Sys2Proof/Machine/Hook.lean ====
section
/-!
DEFINITION. The policy module's hook (R452 to R454 [16]): which commands reach it, the view it is given, its
start.
-/
namespace Sys2Proof.Machine

/-- HOOK_MASK bit of an opcode group. -/
def hookBit (opcode : Nat) : Option Nat :=
  match opcode / 256 with
  | 2 => some 0
  | 9 => some 1
  | 0xA => some 2
  | 0xB => some 3
  | _ => none

/-- The command's group is hooked by the module in force. -/
def isHooked (d : Dev) (c : Cmd) : Bool :=
  match d.linen.policy, hookBit c.pkt.opcode with
  | some p, some b => p.hookMask.getLsbD b
  | _, _ => false

/-- The hook view (R453): its header and the attribute records of the resolved keys. -/
def hookView (d : Dev) (c : Cmd) : Bytes :=
  let kar := if (formOf d c.pkt c.op).ix .kar = some 0 then fit 32 (c.early 0) else zeros 32
  let key (i : Nat) : Bytes :=
    match c.keys.find? (fun k => k.field == i) with
    | some k => attrRecord d k.idx
    | none => zeros 64
  leBytes 2 c.pkt.opcode ++ leBytes 1 c.prm ++ leBytes 1 c.slice ++ leBytes 1 d.lc ++ zeros 3
    ++ leBytes 8 d.devTime ++ leBytes 4 (c.pkt.keys.getD 0 0) ++ leBytes 4 (c.pkt.keys.getD 1 0)
    ++ leBytes 4 (c.pkt.keys.getD 2 0) ++ zeros 4 ++ kar ++ key 0 ++ key 1 ++ key 2

/-- Words written from a word address; bytes are taken low byte first. -/
def putWords (m : List (Nat × Word16)) (a : Nat) (b : Bytes) : List (Nat × Word16) :=
  (List.range (b.length / 2)).foldl (fun m i => memPut m (a + i) (BitVec.ofNat 16 (field b (2 * i) 2))) m

/-- The hook of a command starts: the view in the policy window, ENTRY in policy mode as task 1 with IEH and IEL
set. -/
def startHook (c : Cmd) (d : Dev) (m : Memory) : Dev × Memory :=
  let entry := (d.linen.policy.map (·.entry)).getD 0xE000
  ({ d with linen := { d.linen with
       hook := some (c.id, d.clk), sr := 0xB000, pc := BitVec.ofNat 16 entry, taskId := 1, rep := none, resume := false,
       waiting := false, nest := [] } },
   { m with dram := putWords m.dram 0x6000 (hookView d c) })

/-- Hooked commands are served one at a time, in admission order (R454). -/
def hookNext (d : Dev) (m : Memory) : Dev × Memory :=
  let busy : Bool := match d.linen.hook with
    | some (id, _) => d.cmds.any (fun (c : Cmd) => c.id == id && c.stage == .hooked)
    | none => false
  if busy then (d, m)
  else
    match d.cmds.find? (fun (c : Cmd) => c.stage == .hooked) with
    | some c => startHook c d m
    | none => (d, m)

end Sys2Proof.Machine
end

