-- ==== Sys2Proof/Machine/Admission.lean ====
section
/-!
DEFINITION. Admission and key resolution (R20, R23 to R29 [01]; R119 to R133, R138, R503 [04]; R153, R154 [05];
R220 [07]; R251 [08]; R269 [09]; R288, R299 [10]; R336 [11]; R389, R391 [13]).
-/
namespace Sys2Proof.Machine

/-! Packets. -/

/-- The packet in the granules of an entry (R119, R121). -/
def packetOf (g0 : Bytes) (conts : List Bytes) (fault : Bool) : Packet :=
  { flags := BitVec.ofNat 8 (field g0 1 1), opcode := field g0 2 2, tag := field g0 4 4, notBefore := field g0 8 8,
    keys := [field g0 0x10 4, field g0 0x14 4, field g0 0x18 4], param := BitVec.ofNat 8 (field g0 0x1C 1),
    ndesc := field g0 0x1D 1, inlineLen := field g0 0x1E 2,
    body := fit 32 (g0.drop 32) ++ conts.flatMap (fun g => fit 56 (g.drop 8)),
    contOk := conts.all (fun g => allZero (seg g 1 7)), pushFault := fault }

/-- NBV (R120). -/
def Packet.nbv (p : Packet) : Bool := p.flags.getLsbD 0

/-- Item 1 of R503. -/
def flagsOk (p : Packet) (o : Op) : Bool :=
  bits p.flags.toNat 7 6 == 0 && !p.flags.getLsbD 1 && (p.segf == 0 || streamable o)
    && (p.nbv || p.notBefore == 0)

/-- Item 2: the body layout (R121, R122, R131). -/
def layoutOk (p : Packet) : Bool :=
  let used := p.skip + 16 * p.ndesc + p.inlineLen
  decide (used ≤ p.body.length) && p.contOk && allZero (p.body.drop used)
    && (p.segf == 0 || allZero (seg p.body 1 7)) && (p.segf != 2 || p.total == 0)

/-- Item 3: the ATTR checks that no role decides (R124); slice 0's PASID_SLOT is not used (R505 [02]). -/
def attrOk (s : Nat) (x : Desc) : Bool := x.attr.toNat < 32 && x.space != 3 && (s == 0 || x.pslot == 0 || x.space == 0)

/-- Item 5: NDESC, key fields, roles (R122, R124, R125). Of a module opcode the directions are length rules
(R435 [15]). -/
def rolesOk (f : Form) (o : Op) (p : Packet) : Bool :=
  let role (a : Arg) (x : Desc) : Bool :=
    (o == .moduleOp || x.isOut == a.out) && !(x.isOut && x.space == 2) && (!a.inl || x.space == 2)
  p.ndesc == f.args.length
    && (List.range 3).all (fun i => if f.need.contains i then p.hasKey i else f.may.contains i || !p.hasKey i)
    && (List.zipWith role f.args p.descs).all id

/-- Step 2 of R23, in the order of R503. -/
def formatStatus (d : Dev) (c : Cmd) (f : Form) : Option Status :=
  let p := c.pkt
  if !flagsOk p c.op || !layoutOk p || !p.descs.all (attrOk c.slice) then some .packetMalformed
  else if !f.param then some .paramUnsupported
  else if !rolesOk f c.op p then some .packetMalformed
  else
    match f.block with
    | some st => some st
    | none =>
      let blk := if p.opcode / 256 = 4 then hashBlock c else if p.opcode / 256 = 7 then cipherBlock c else none
      match blk with
      | some st => some st
      | none => if p.nbv && decide (d.devTime + 60000000000 < p.notBefore) then some .notBeforeRange else none

/-! Lengths, overlap, rights. -/

/-- The ranges of R124. -/
def rangeOk (p : Packet) (x : Desc) : Bool :=
  match x.space with
  | 0 => decide (x.addr + x.len ≤ 2 ^ 64)
  | 1 => decide (x.addr + x.len ≤ 65536)
  | _ => decide (x.addr + x.len ≤ p.inlineLen)

/-- Message bytes of a segment. -/
def segBytes (f : Form) (p : Packet) : Nat := f.len p .msg + f.len p .src

/-- The stream that a segment continues: open, on its queue, with its bound fields (R132). -/
def boundStream (d : Dev) (c : Cmd) : Option Stream :=
  match streamOf d c with
  | some t =>
    if t.op = c.op && t.param == c.pkt.param && t.keyFields == c.pkt.keys then some t else none
  | none => none

/-- The longest message a stream of the opcode may declare: 16 MiB of an AEAD_DECRYPT that is not chunked (R133), 2^40
of the ciphers (R295, R299 [10]). -/
def streamMax (c : Cmd) : Option Nat :=
  if c.op == .aeadDecrypt && c.prm % 16 != 4 then some 16777216
  else if c.pkt.opcode / 256 == 7 then some (2 ^ 40)
  else none

/-- The totals of a stream (R133). -/
def totalsOk (d : Dev) (c : Cmd) (f : Form) : Bool :=
  let n := segBytes f c.pkt
  match c.pkt.segf with
  | 0 => true
  | 1 => decide (n ≤ c.pkt.total) && ((streamMax c).map (fun k => decide (c.pkt.total ≤ k))).getD true
  | 2 =>
    match boundStream d c with
    | some t => decide (t.admitted + n ≤ t.total)
    | none => true
  | _ =>
    match boundStream d c with
    | some t => c.pkt.total == t.total && t.admitted + n == t.total
    | none => true

/-- Step 3 of R23. -/
def lengthsOk (d : Dev) (c : Cmd) (f : Form) : Bool :=
  let p := c.pkt
  let fits (a : Arg) (x : Desc) : Bool := decide (a.lo ≤ x.len) && decide (x.len ≤ a.hi)
  p.descs.all (rangeOk p) && (List.zipWith fits f.args p.descs).all id && f.lens
    && (p.opcode / 256 != 4 || hashLenOk d c) && (p.opcode / 256 != 7 || cipherLenOk c) && totalsOk d c f

/-- Two buffers of slice `s` lie in one space, and in host memory under one PASID slot (R130); slice 0 has none (R505
[02]). -/
def oneSpace (s : Nat) (x y : Desc) : Bool := x.space == y.space && (s == 0 || x.space != 0 || x.pslot == y.pslot)

/-- Two buffers of slice `s` overlap (R130): some byte belongs to both. -/
def meets (s : Nat) (x y : Desc) : Bool :=
  oneSpace s x y && x.len != 0 && y.len != 0 && decide (x.addr < y.addr + y.len) && decide (y.addr < x.addr + x.len)

/-- The same range. -/
def sameBuf (s : Nat) (x y : Desc) : Bool := oneSpace s x y && x.addr == y.addr && x.len == y.len

/-- Step 4 of R23. -/
def overlapOk (s : Nat) (f : Form) (p : Packet) : Bool :=
  let n := List.range p.ndesc
  n.all (fun i => n.all (fun j =>
    i == j || !(p.desc i).isOut || !meets s (p.desc i) (p.desc j)
      || (f.inplace == some (j, i) && sameBuf s (p.desc i) (p.desc j))))

/-- PASID_UNBOUND (R75, R76, R505). -/
def pasidUnbound (d : Dev) (c : Cmd) : Bool :=
  c.slice != 0 && c.pkt.descs.any (fun x => x.space == 0
    && (!(d.pslot c.slice x.pslot).valid || (d.pslot c.slice x.pslot).closing))

/-- EXCHANGE_NOT_OWNED (R80). -/
def notOwned (d : Dev) (c : Cmd) : Bool :=
  (List.range 16).any (fun n => namesPage c n && !((d.slice c.slice).page n).owner)

/-- STREAM_STATE_INVALID (R132). -/
def streamWrong (d : Dev) (c : Cmd) : Bool :=
  match c.pkt.segf with
  | 0 => false
  | 1 => (d.slice c.slice).streams.any (fun t => t.sid == c.pkt.sid)
  | _ => (boundStream d c).isNone

/-- Streams open on the device (R220). -/
def openStreams (d : Dev) : Nat := (d.slices.map (fun (e : Nat × Slice) => e.2.streams.length)).sum

/-- ENGINE_UNAVAILABLE: a class of the command has no unit in service (R138). -/
def unavailable (d : Dev) (c : Cmd) : Bool :=
  (classesOf d c).any (fun k => inServiceCount d (Sys2Proof.Machine.EngClass.toUnit k) == 0)
    || (c.pkt.opcode / 256 == 8 && !(List.range 4).any (fun g => (d.unit .payment g).st == .inService
          && (List.range 12).any (fun i => (d.unit .cipher (12 * g + i)).st == .inService)))

/-- Step 5 of R23, in the order of R138. -/
def rightsStatus (d : Dev) (c : Cmd) : Option Status :=
  let p := c.pkt
  let admin := p.opcode / 256 == 1
  if !d.link.started && !admin then some .deviceStarting
  else if d.micro.patchRequired && !admin then some .patchRequired
  else if lifecycleRefused d p c.op then some .lifecycleRefused
  else if !mayIssue d c.slice p c.op then some .rightsDenied
  else if pasidUnbound d c then some .pasidUnbound
  else if notOwned d c then some .exchangeNotOwned
  else if streamWrong d c then some .streamStateInvalid
  else if p.segf = 1 && ctxSlots d 48 14 ≤ openStreams d then some .streamLimit
  else if unavailable d c then some .engineUnavailable
  else if p.nbv && d.board.lock == .unlocked then some .timeUnlocked
  else none

/-- The operation an opcode names: assigned, or of a module in force (R11 [00], R435 [15]). -/
def opOf (d : Dev) (opcode : Nat) : Option Op :=
  match opOfCode opcode with
  | some o => some o
  | none => if (moduleFor d opcode).isSome then some .moduleOp else none

/-- The first failure of admission (R23). A push-slot entry with a framing fault is malformed (R99 [03]). -/
def admitStatus (d : Dev) (c : Cmd) : Option Status :=
  let f := formOf d c.pkt c.op
  if c.pkt.pushFault then some .packetMalformed
  else if (opOf d c.pkt.opcode).isNone then some .opcodeUnknown
  else
    match formatStatus d c f with
    | some st => some st
    | none =>
      if !lengthsOk d c f then some .lengthMismatch
      else if !overlapOk c.slice f c.pkt then some .overlapInvalid
      else rightsStatus d c

/-! Key resolution. -/

/-- Check 2 of R27: the parent's generation is the stamped one. -/
def parentOk (d : Dev) (e : Entry) : Bool :=
  e.parent == 0 || ((d.ent (hIdx e.parent)).gen == hGen e.parent && (d.ent (hIdx e.parent)).st == .active)

/-- The key is STATEFUL and has no one-time index left (R153 item 2, R232 [07]). A reservation, which gives it new ones,
runs all the same (R234; DEDUCED, log 47). -/
def sigExhausted (o : Op) (e : Entry) : Bool :=
  e.has fStateful && decide (e.ceiling ≤ e.next) && o != .lmsReserve && o != .xmssReserve

/-- The checks of R27 on the handle in field `i`, in order. `c` holds the keys resolved before it, for the rules that
compare two keys (R333 [11]). -/
def checkHandle (d : Dev) (c : Cmd) (i : Nat) : Status ⊕ KeyRes :=
  match (localHandle d (c.pkt.keys.getD i 0)).bind (liveIndex d c.slice) with
  | none => .inl .keyHandleStale
  | some idx =>
    let e := d.ent idx
    let ok : KeyRes := { field := i, idx := idx, handle := handleOf idx e.gen, ent := e }
    if checkOneOnly c.op then .inr ok
    else if !parentOk d e then .inl .keyParentRevoked
    else if !keySuits d { c with keys := c.keys ++ [ok] } i e then .inl .keyUsageDenied
    else if c.op = .keyPublicGet then .inr ok
    else if e.activation != 0 && decide (d.devTime < e.activation) then .inl .keyNotYetActive
    else if e.expiry != 0 && decide (e.expiry ≤ d.devTime) then .inl .keyExpired
    else if sigExhausted c.op e then .inl .keySigExhausted
    else if e.useLimit != 0 && decide (e.useLimit ≤ e.useCount) then .inl .keyUseExhausted
    else .inr ok

/-- Every handle of a command, in the order of the packet. -/
def checkHandles (d : Dev) (c : Cmd) : Status ⊕ Cmd :=
  ((List.range 3).filter c.pkt.hasKey).foldl (fun r i =>
    match r with
    | .inl st => .inl st
    | .inr c =>
      match checkHandle d c i with
      | .inl st => .inl st
      | .inr k => .inr { c with keys := c.keys ++ [k] }) (.inr { c with keys := [] })

/-- The command completes at key resolution. -/
def failResolve (st : Status) (id : Nat) (d : Dev) : Dev :=
  match findCmd d id with
  | some c =>
    let d := if c.audit = 1 then
        d.modCust c.slice (fun x => { x with audit := { x.audit with reserved := x.audit.reserved - 1 } })
      else d
    toPool { c with outcome := some (bare st), audit := 0 } d
  | none => d

/-- Fixed device policy (R269 [09]). -/
def policyRefuses (d : Dev) (c : Cmd) : Bool := c.op == .rsaKeygen && decide (c.prm < 0x1F) && d.lc == 19

/-- The opcodes recorded at AUDIT_LEVEL 0x00 (R391 [13], R336 [11]). -/
def auditedOp (p : Packet) (o : Op) : Bool :=
  match o with
  | .keyAttrGet | .keyPublicGet => false
  | .mlkemKeygen | .mldsaKeygen | .fndsaKeygen | .slhdsaKeygen | .lmsKeygen | .xmssKeygen | .hqcKeygen
  | .mceKeygen | .rsaKeygen | .ecKeygen => true
  | .mlkemEncaps | .mlkemDecaps | .hybridKemEncaps | .hybridKemDecaps | .hqcEncaps | .hqcDecaps | .mceEncaps
  | .mceDecaps | .ecdh | .xdh => !p.css
  | .ipekDerive | .keyblockImport | .keyblockExport | .schedAdd | .schedCancel | .mirrorPut | .mirrorRemove
  | .lmsReserve | .xmssReserve => true
  | _ => p.opcode / 256 == 2 || p.opcode / 256 == 0xB

/-- How a command's record is taken: 0 none, 1 reserved, 2 never waits (R389). -/
def auditNeed (d : Dev) (c : Cmd) : Nat :=
  if !(d.custody c.slice).audit.started then 0
  else if c.op = .auditConfig || c.op = .auditReset then 2
  else if auditedOp c.pkt c.op || (d.slice c.slice).cfg.auditLevel = 1 then 1
  else 0

/-- Units of 64 KiB of the release buffer that a command takes (R288). -/
def releaseNeed (c : Cmd) : Nat :=
  let n := ((c.pkt.descs.filter (·.isOut)).map (·.len)).sum
  if c.pkt.opcode / 256 = 7 && n > 4096 then cdiv n 65536 else 0

/-- Units an open AEAD_DECRYPT stream that is not chunked holds (R288, R299). -/
def streamUnits (t : Stream) : Nat :=
  if t.op = .aeadDecrypt && t.param.toNat % 16 != 4 && t.total > 4096 && !t.keys.isEmpty then cdiv t.total 65536
  else 0

/-- Units of the release buffer a slice holds. -/
def releaseUsed (d : Dev) (s : Nat) : Nat :=
  ((d.cmds.filter (·.slice == s)).map (·.relUnits)).sum + ((d.slice s).streams.map streamUnits).sum

/-- Units of the release buffer a slice may hold. -/
def releaseAllowed (d : Dev) (s : Nat) : Nat := 0x100000000 * (d.slice s).cfg.quota / 131072 / 65536

/-- Units of 4 KiB for the host inputs of a Tweed command: a supplied public key and a ciphertext (R251). -/
def stageNeed (c : Cmd) : Nat :=
  if c.pkt.opcode / 256 = 5 then
    ((List.zipWith (fun (a : Arg) (x : Desc) =>
      if (a.role == .ek || a.role == .ct) && !x.isOut && x.space == 0 then cdiv x.len 4096 else 0)
      (codeForm c.pkt c.op).args c.pkt.descs)).sum
  else 0

/-- The stream of a first segment, as it will be once resolved. -/
def firstUnits (d : Dev) (c : Cmd) : Nat :=
  if c.pkt.segf = 1 then
    match streamOf d c with
    | some t => streamUnits { t with keys := c.keys }
    | none => 0
  else 0

/-- The key fields whose keys a command counts a use on (R154, R158 [05]): none of a management command, an inspection
or an export of its own key, KEY0 alone of KEY_WRAP, none of a middle or final segment (R132). -/
def countsUse (c : Cmd) (i : Nat) : Bool :=
  !checkOneOnly c.op && c.op != .keyPublicGet && c.op != .keyExportBlob && !(c.op == .keyWrap && i != 0)
    && decide (c.pkt.segf ≤ 1)

/-- The entries a command counts a use on, each once (R28). -/
def usedIdx (c : Cmd) : List Nat := ((c.keys.filter (fun k => countsUse c k.field)).map (·.idx)).eraseDups

/-- The command takes a one-time index (R232). -/
def takesIndex (c : Cmd) : Bool := c.op == .lmsSign || c.op == .xmssSign

/-- Checks 5 and 6 at the moment the uses are counted: a command that waited for the policy module may find the last
use, or the last index, taken (R155; DEDUCED, log 48). -/
def usesGone (d : Dev) (c : Cmd) : Option Status :=
  if takesIndex c && c.keys.any (fun k => sigExhausted c.op (d.ent k.idx)) then some .keySigExhausted
  else if (usedIdx c).any (fun i => (d.ent i).useLimit != 0 && decide ((d.ent i).useLimit ≤ (d.ent i).useCount)) then
    some .keyUseExhausted
  else none

/-- A use counted; the count saturates (R145). -/
def countUse (e : Entry) : Entry := { e with useCount := min 0xFFFFFFFF (e.useCount + 1) }

/-- Uses counted and one-time index taken (R28, R232). -/
def countUses (c : Cmd) (d : Dev) : Cmd × Dev :=
  let d := forEach (usedIdx c) (fun i d => modEnt i countUse d) d
  if takesIndex c then
    match c.keys.head? with
    | some k => ({ c with otIndex := some (d.ent k.idx).next }, modEnt k.idx (fun e => { e with next := e.next + 1 }) d)
    | none => (c, d)
  else (c, d)

/-- The command channel for the transfers of a command: the one it has, or the first that carries no command and has no
fault pending (R460, R468, R502 [17]). Which one, and that it is taken when the command is resolved, or at its dispatch
where none was idle then, are the model's choice (DESIGN CHOICE, log 63). -/
def chanFor (d : Dev) (c : Cmd) : Option Nat :=
  if c.pkt.descs.all (fun x => x.space == 2 || x.len == 0) then none
  else c.chan.or ((List.range 56).find? (fun k => !d.prot.pendingFc.getLsbD (272 + k)
    && !d.cmds.any (fun (e : Cmd) => e.chan == some k)))

/-- What follows the policy module's answer: space, then uses, then the scheduling stage. -/
def finishResolve (id : Nat) (d : Dev) : Dev :=
  match findCmd d id with
  | none => d
  | some c =>
    let rel := if streamUnits { (streamOf d c).getD ⟨0, 0, .echo, 0, [], [], 0, none, 0, [], [], 0⟩ with keys := c.keys } != 0
      then 0 else releaseNeed c
    let stg := stageNeed c
    if releaseUsed d c.slice + rel + firstUnits d c > releaseAllowed d c.slice && rel + firstUnits d c != 0
      || unitsUsed d c.slice + stg > unitsAllowed d c.slice && stg != 0 then
      toPool { c with outcome := some (bare .resourceQuota) } d
    else
    match usesGone d c with
    | some st => failResolve st id d
    | none =>
      let (c, d) := countUses c d
      let (c, d) := noteMatrix c d
      let c := { c with relUnits := rel, stageUnits := stg,
                        token := if c.pkt.opcode / 256 = 8 then (panOf c.pkt c.op).map (panToken d c.slice) else none }
      let c := { c with classes := classesOf d c, stage := .ready, readyAt := d.clk, chan := chanFor d c }
      let d := if c.pkt.segf = 1 then
          d.modSlice c.slice (fun x => { x with streams := x.streams.map (fun t =>
            if t.sid = c.pkt.sid && t.queue = c.qk then { t with keys := c.keys } else t) })
        else d
      setCmd c (if c.classes.isEmpty then linenPend 16 d else d)

/-- Key resolution of an admitted command (R27 to R29). -/
def resolve (id : Nat) (d : Dev) : Dev :=
  match findCmd d id with
  | none => d
  | some c =>
    let checked : Status ⊕ Cmd :=
      if 2 ≤ c.pkt.segf then
        match streamOf d c with
        | some t => .inr { c with keys := t.keys }
        | none => .inl .streamStateInvalid
      else checkHandles d c
    match checked with
    | .inl st => failResolve st id d
    | .inr c =>
      if policyRefuses d c then failResolve .policyRefused id d
      else
        let need := auditNeed d c
        let r := (d.custody c.slice).audit
        if need = 1 && (!r.configured || r.room = 0) then
          raiseSlice c.slice 3 (setCmd { c with stage := .held, keys := [] } d)
        else
          let d := if need = 1 then
              d.modCust c.slice (fun x => { x with audit := { x.audit with reserved := x.audit.reserved + 1 } })
            else d
          let c := { c with audit := need }
          if isHooked d c && decide (c.pkt.segf ≤ 1) then setCmd { c with stage := .hooked } d
          else finishResolve id (setCmd c d)

/-- The policy module's verdict on the command whose hook runs (R453). -/
def hookVerdict (allow : Bool) (d : Dev) : Dev :=
  match d.linen.hook with
  | none => d
  | some (id, _) =>
    let d := { d with linen := { d.linen with hook := none } }
    match findCmd d id with
    | some c => if c.stage != .hooked then d else if allow then finishResolve id d else failResolve .policyRefused id d
    | none => d

/-! Admission. -/

/-- Bytes that admission and resolution may read ahead: what came with the entry, and small inputs of the
exchange window (log 18). -/
def aheadOf (m : Memory) (s : Nat) (p : Packet) (aux : List (Nat × Bytes)) : TMap Bytes :=
  let host := aux.filter (fun e => decide (e.1 < p.ndesc) && !(p.desc e.1).isOut && (p.desc e.1).space == 0
    && e.2.length == (p.desc e.1).len)
  let win := (List.range p.ndesc).filter (fun i => !(p.desc i).isOut && (p.desc i).space == 1
    && decide ((p.desc i).len ≤ 4096))
  let l := win.map (fun i => (i, memRead m.hbm (xwBase s + (p.desc i).addr) (p.desc i).len))
  (host ++ l).foldl (fun t (e : Nat × Bytes) => tset t e.1 e.2) []

/-- A command as admission finds it. -/
def newCmd (d : Dev) (m : Memory) (s q : Nat) (push : Option Nat) (pos : Nat) (p : Packet) (aux : List (Nat × Bytes)) :
    Cmd :=
  { id := d.nextId, slice := s, queue := q, ring := (d.sq s q).cqSel, push := push, pos := pos, pkt := p,
    op := (opOf d p.opcode).getD .echo, stage := .ready, refused := false, wasHeld := false, readyAt := d.clk, keys := [],
    classes := [], inputs := aheadOf m s p aux, dmaErr := none, units := [], charge := [], startAt := 0,
    endAt := 0, overlap := false, retried := false, front := false, saved := none, order := 0, revs := (0, 0), hits := [],
    entry := none, undo := none, otIndex := none, relUnits := 0, stageUnits := 0, audit := 0, token := none, foreign := none, chan := none,
    banks := (0, 0), ranAway := false, noSpill := false, draws := 0, outcome := none, outLen := 0, time := 0 }

/-- A segment refused at admission discards its open stream: a non-final one always, a final one for its
lengths (R133, R219 [07]). An opcode outside the stream-capable set has no stream block and names none. -/
def dropRefused (c : Cmd) (st : Status) (d : Dev) : Dev :=
  if streamable c.op && (c.pkt.segf = 1 || c.pkt.segf = 2 || (c.pkt.segf = 3 && st = .lengthMismatch)) && (streamOf d c).isSome then
    sweep (dropStream c.slice c.pkt.sid d)
  else d

/-- A segment accepted: a first one opens its stream (R132). -/
def enterStream (c : Cmd) (d : Dev) : Dev :=
  let n := segBytes (formOf d c.pkt c.op) c.pkt
  match c.pkt.segf with
  | 0 => d
  | 1 =>
    let t : Stream :=
      { sid := c.pkt.sid, queue := c.qk, op := c.op, param := c.pkt.param, keyFields := c.pkt.keys, keys := [],
        total := c.pkt.total, outLen := if hasParamBlock c then some (outLenOf c) else none, admitted := n,
        data := [], heads := [], lastAt := d.clk }
    d.modSlice c.slice (fun x => { x with streams := x.streams ++ [t] })
  | _ => d.modSlice c.slice (fun x => { x with streams := x.streams.map (fun t =>
      if t.sid = c.pkt.sid then { t with admitted := t.admitted + n } else t) })

/-- Step 1 of R67 [02]: the slice named by an admitted SLICE_DESTROY is DESTROYING. -/
def enterDestroy (c : Cmd) (d : Dev) : Dev :=
  let x := d.slice c.prm
  if c.op = .sliceDestroy && c.prm != 0 && (x.st == .active || x.st == .paused) then
    d.modSlice c.prm (fun x => { x with st := .destroying })
  else d

/-- The Zenari ports' domains, off on an unbound device, are on again when BOARD_BIND is admitted (R488 [18]). -/
def enterBind (c : Cmd) (d : Dev) : Dev :=
  if c.op = .boardBind then
    { d with link := { d.link with domainsOff := d.link.domainsOff.filter (fun x => x != 27 && x != 28) } }
  else d

/-- The rate counters of R22 count an admission of queue `q`. -/
def countRate (s q : Nat) (d : Dev) : Dev :=
  let sec := d.clk / 1000000000
  let d := d.modSq s q (fun x =>
    { x with rateSec := sec, rateCount := (if x.rateSec = sec then x.rateCount else 0) + 1 })
  { d with sched := { d.sched with
      rateSec := sec, rateCount := (if d.sched.rateSec = sec then d.sched.rateCount else 0) + 1 } }

/-- Both rates of R22 leave room for an admission of queue `q`. -/
def rateRoom (d : Dev) (s q : Nat) : Bool :=
  let sec := d.clk / 1000000000
  let x := d.sq s q
  (x.rateSec != sec || decide (x.rateCount < 2000000))
    && (d.sched.rateSec != sec || decide (d.sched.rateCount < 40000000))

/-- An entry admitted (R23 to R25): it takes a slot whatever its status; refused, its record is in the pool with
the admission time; else it is held or resolved. The count of commands admitted (R77 [02]) takes in refused entries
(DESIGN CHOICE, log 49). -/
def admitCmd (s q : Nat) (push : Option Nat) (pos : Nat) (p : Packet) (aux : List (Nat × Bytes)) (m : Memory) (d : Dev) :
    Dev :=
  let c := newCmd d m s q push pos p aux
  let d := countRate s q { d with nextId := d.nextId + 1 }
  let d := d.modSlice s (fun x => { x with admitted := x.admitted + 1 })
  match admitStatus d c with
  | some st =>
    let d := dropRefused c st { d with cmds := d.cmds ++ [{ c with
      stage := .done, refused := true, outcome := some (bare st), time := d.devTime }] }
    if st = .pasidUnbound then raisePf0 s d else d
  | none =>
    let d := enterBind c (enterDestroy c (enterStream c d))
    if p.nbv && decide (d.devTime < p.notBefore) then
      { d with cmds := d.cmds ++ [{ c with stage := .held, wasHeld := true }] }
    else resolve c.id { d with cmds := d.cmds ++ [c] }

/-- Some scheduled action is due at or before a tick and has not fired. -/
def actionAhead (d : Dev) : Bool := d.board.actions.any (fun e => actionDue d e.2)

/-- HOLD_EXPIRY (R25; R389 [13] of a command that waits for an audit record): the command goes on to key resolution,
after the actions of its tick (R128). -/
def execHoldExpiry (id : Nat) : State → Out :=
  onBoth (fun d m =>
    match findCmd d id with
    | some c =>
      if c.stage = .held && d.alive && (!c.pkt.nbv || (decide (c.pkt.notBefore ≤ d.devTime) && !actionAhead d)) then
        hookNext (resolve id d) m
      else (d, m)
    | none => (d, m))

/-- STREAM_IDLE_TIMEOUT (R133): 1 s with no segment in flight. -/
def execStreamIdleTimeout (sl : Fin 256) (sid : Fin 256) : State → Out :=
  onDev (fun d =>
    match (d.slice sl).streams.find? (fun t => t.sid == sid.val) with
    | none => d
    | some t =>
      let busy := d.cmds.any (fun c => c.slice == sl.val && c.inFlight && c.pkt.segf != 0 && c.pkt.sid == sid.val
        && c.qk == t.queue)
      if !busy && decide (t.lastAt + 1000000000 ≤ d.clk) then sweep (dropStream sl sid d) else d)

end Sys2Proof.Machine
end

