-- ==== Sys2Proof/Machine/Dma.lean ====
section
/-!
DEFINITION. The DMA engine's manager channels, the inputs of commands, the scratch banks, zeroisation of
on-package memory (R460 to R480, R502 [17]).
-/
namespace Sys2Proof.Machine

/-! Descriptors (R461, R462). -/

/-- Fields of a DMA descriptor. -/
def dSrc (b : Bytes) : Nat := field b 0 8
def dDst (b : Bytes) : Nat := field b 8 8
def dCount (b : Bytes) : Nat := field b 0x10 4
def dCtrl (b : Bytes) : Nat := field b 0x14 2
def dNext (b : Bytes) : Nat := field b 0x18 8
def dOp (b : Bytes) : Nat := bits (dCtrl b) 15 13
def dInt (b : Bytes) : Bool := bit (dCtrl b) 12
def dStop (b : Bytes) : Bool := bit (dCtrl b) 11
def dDstSpace (b : Bytes) : Nat := bits (dCtrl b) 7 6
def dSrcSpace (b : Bytes) : Nat := bits (dCtrl b) 5 4

/-- The range lies in its space: host memory, the manager region, or scratch addresses whose alias is not 3
(R462, R463). -/
def inSpace (space a n : Nat) : Bool :=
  if space = 0 then decide (a + n ≤ 2 ^ 64)
  else if space = 1 then decide (a + n ≤ 0x400000000)
  else decide (a + n ≤ 0x1000000) && decide (a % 0x40000 + n ≤ 0x30000)

/-- A descriptor error of R462. -/
def descError (b : Bytes) : Bool :=
  decide (2 < dOp b) || (dStop b && dOp b != 2) || bits (dCtrl b) 10 8 != 0 || bits (dCtrl b) 3 0 != 0
    || dDstSpace b == 3 || dSrcSpace b == 3 || (dOp b == 1 && dSrcSpace b != 0) || field b 0x16 2 != 0
    || dCount b == 0 || dNext b % 32 != 0 || !inSpace (dDstSpace b) (dDst b) (dCount b)
    || (dOp b != 1 && !inSpace (dSrcSpace b) (dSrc b) (dCount b))

/-! Local memories as a channel addresses them (R463, R473, R477). -/

/-- Offset of the manager region in on-package memory (R476). -/
def mgrBase : Nat := 0x3C0000000

/-- Bank, alias and memory address of a scratch address. -/
def scrBank (a : Nat) : Nat := a / 0x40000
def scrAlias (a : Nat) : Nat := a / 0x10000 % 4
def scrCell (a : Nat) : Nat := scrBank a * 0x10000 + a % 0x10000

/-- `n` bytes read from a local space; a read through any view returns the word (R473). -/
def localRead (m : Memory) (space a n : Nat) : Bytes :=
  if space = 1 then memRead m.hbm (mgrBase + a) n
  else (List.range n).map (fun i => memGet m.scr (scrCell (a + i)))

/-- One byte written to scratch, through the plain, the set or the clear view (R473). -/
def scrPut (m : Memory) (a : Nat) (x : Byte) : Memory :=
  let c := scrCell a
  let old : Byte := memGet m.scr c
  { m with scr := memPut m.scr c (if scrAlias a = 0 then x else if scrAlias a = 1 then old ||| x else old &&& ~~~x) }

/-- Bytes written to a local space. -/
def localWrite (m : Memory) (space a : Nat) : Bytes → Memory
  | [] => m
  | x :: xs =>
    localWrite (if space = 1 then { m with hbm := memPut m.hbm (mgrBase + a) x } else scrPut m a x) space (a + 1) xs

/-- ERR of an access of channel `c` to a local space, 0 where it is allowed: 5 to a scratch bank it does not own or
that is being wiped, 4 to a manager region whose key is destroyed or that is not zeroised yet (R463, R472, R477,
R480). -/
def accessErr (d : Dev) (c space a : Nat) : Nat :=
  if space = 2 then
    if (d.bank (scrBank a)).owner = c - 55 && !(d.bank (scrBank a)).wiping then 0 else 5
  else if space = 1 && !hbmOk d 256 then 4
  else 0

/-! A manager channel's run (R461, R464, R468, R470). -/

/-- The channel halts with an error and raises its vector; a tag failure is a CONTAINED fault of the stack. -/
def chanHalt (c err addr : Nat) (write : Bool) (d : Dev) : Dev :=
  let d := if err = 4 then raiseFault (268 + addr / 4096 % 2) (mgrBase + addr) (if write then 5 else 4) none d else d
  raisePf0 (440 + c) (modChan c (fun h => { h with st := .halted, err := err, errAddr := addr, dirWrite := write }) d)

/-- An error of a request: ERR 1 while bytes are still to be requested, ERR 2 after (R468). -/
def lateErr (late : Bool) : Nat := if late then 2 else 1

/-- The outcome of a read for a channel that is not data: the channel halts. A failed translation comes before its
request and is always ERR 1; it is logged under source 402 (R50 [02]). -/
def chanReadError (c : Nat) (r : DmaRead) (d : Dev) : Dev :=
  match r with
  | .data _ => d
  | .translation a => chanHalt c 1 a false (raiseFault 402 a 4 none d)
  | .error a after =>
    let d := if after then modChan c (fun h => { h with count := 0 }) d else d
    chanHalt c (lateErr after) a false d
  | .tagFail a after =>
    let d := if after then modChan c (fun h => { h with count := 0 }) d else d
    chanHalt c 4 a false d

/-- A descriptor read at DMA_CUR: checked, then in progress. A fill has no reads, so its COUNT reads 0. -/
def chanTake (c : Nat) (r : DmaRead) (d : Dev) : Dev :=
  match r with
  | .data b =>
    let b := fit 32 b
    if descError b then chanHalt c 3 (d.chan c).errAddr (d.chan c).dirWrite d
    else modChan c (fun h => { h with desc := b, staged := [], stagedOther := [],
                                      count := if dOp b = 1 then 0 else dCount b }) d
  | _ => chanReadError c r d

/-- The channel can be worked on: a manager channel, running, with DMA not held (R88 [02]). -/
def chanRuns (d : Dev) (c : Nat) : Bool := decide (56 ≤ c) && (d.chan c).st == .running && !d.dmaHeld

/-- GO (R469): ignored unless the channel is IDLE, and while its fault is not acknowledged (R468). -/
def chanGo (c : Nat) (d : Dev) : Dev :=
  if decide (56 ≤ c) && d.reachable && (d.chan c).st == .idle && !d.prot.pendingFc.getLsbD (272 + c) then
    modChan c (fun h => { h with st := .running, cur := h.head, desc := [], staged := [], stagedOther := [],
                                 mismatch := false }) d
  else d

/-- DMA_GO: the list starts at DMA_HEAD with what reading its first descriptor returned (R469). -/
def execDmaGo (c : Fin 64) (first : DmaRead) : State → Out :=
  onDev (fun d =>
    if (d.chan c).st != .idle then d
    else
      let d := chanGo c d
      if chanRuns d c then chanTake c first d else d)

/-- RESET (R469): a running channel stops; a halted one loses its error, its mismatch, its count and its latches. -/
def chanStop (c : Nat) (d : Dev) : Dev :=
  if c < 56 || !d.reachable then d
  else modChan c (fun h =>
    match h.st with
    | .idle => h
    | .running => { h with st := .idle, desc := [], staged := [], stagedOther := [] }
    | .halted => { h with st := .idle, desc := [], staged := [], stagedOther := [], err := 0, mismatch := false,
                          count := 0, errAddr := 0, dirWrite := false, cmp := 0 }) d

/-- DMA_RESET. -/
def execDmaReset (c : Fin 64) : State → Out := onDev (chanStop c)

/-- Bytes of a copy whose write bursts are complete once `n` of `total` are staged: a burst ends at each 256-byte
boundary of the destination (R465, R466). -/
def burstsDone (dst total n : Nat) : Nat :=
  if total ≤ n then total else (dst + n) / 256 * 256 - dst

/-- The copy's ranges overlap, the destination above the source, so that it runs in descending order (R467). -/
def descending (b : Bytes) : Bool :=
  dSrcSpace b == dDstSpace b && decide (dSrc b < dDst b) && decide (dDst b < dSrc b + dCount b)

/-- Bytes of the copy already written when `n` are staged. -/
def writtenAt (b : Bytes) (n : Nat) : Nat :=
  if dOp b != 0 || (descending b && decide (n < dCount b)) then 0 else burstsDone (dDst b) (dCount b) n

/-- Bytes put at a destination: host writes go out from PF0 without a PASID. -/
def putAt (space a : Nat) (x : Bytes) (dm : Dev × Memory) : Dev × Memory :=
  if x.isEmpty then dm
  else if space = 0 then (emit (.hostWrite none a x) dm.1, dm.2)
  else (dm.1, localWrite dm.2 space a x)

/-- Data staged for a channel: the write bursts it completes are issued, while the destination is the channel's. -/
def chanStage (c : Nat) (other : Bool) (x : Bytes) (dm : Dev × Memory) : Dev × Memory :=
  let (d, m) := dm
  let h := d.chan c
  let b := h.desc
  if other then
    (modChan c (fun h => { h with stagedOther := (h.stagedOther ++ x).take (dCount b) }) d, m)
  else
    let s := (h.staged ++ x).take (dCount b)
    let w0 := writtenAt b h.staged.length
    let w1 := writtenAt b s.length
    let d := modChan c (fun h => { h with staged := s, count := min h.count (dCount b - s.length) }) d
    let e := if w0 < w1 then accessErr d c (dDstSpace b) (dDst b) else 0
    if e != 0 then (chanHalt c e (dDst b + w0) true d, m)
    else putAt (dDstSpace b) (dDst b + w0) (seg s w0 (w1 - w0)) (d, m)

/-- The first offset at which two strings differ. -/
def firstDiff : Bytes → Bytes → Option Nat
  | x :: xs, y :: ys => if x = y then (firstDiff xs ys).map (· + 1) else some 0
  | _, _ => none

/-- The descriptor has completed: its vector if it asks for one; then the next descriptor, or DONE (R464, R470). -/
def chanNext (c : Nat) (next : Option DmaRead) (d : Dev) : Dev :=
  let b := (d.chan c).desc
  let d := if dInt b then raisePf0 (440 + c) d else d
  if dNext b = 0 then modChan c (fun h => { h with st := .idle, done := true, desc := [], staged := [], stagedOther := [] }) d
  else
    let d := modChan c (fun h => { h with cur := dNext b, desc := [], staged := [], stagedOther := [] }) d
    match next with
    | some r => chanTake c r d
    | none => d

/-- A write of a channel failed after `n` bytes (R468). -/
def chanWriteError (c : Nat) (wr : WriteResult) (n : Nat) (d : Dev) : Dev :=
  let a := dDst (d.chan c).desc + n
  match wr with
  | .ok => d
  | .busError | .lateError => chanHalt c (lateErr (decide ((d.chan c).count = 0))) a true (raiseFault 402 a 5 none d)
  | .tagFail => chanHalt c 4 a true d

/-- A fill's bytes from a destination address: byte i of the constant where the address is i modulo 8 (R464). -/
def fillBytes (const : Nat) (a n : Nat) : Bytes := (List.range n).map (fun i => (leBytes 8 const).getD ((a + i) % 8) 0)

/-- The source of a descriptor in progress, and whether all of it is there. -/
def chanSource (m : Memory) (h : Channel) : Bytes × Bool :=
  if dSrcSpace h.desc = 0 then (h.staged, h.staged.length == dCount h.desc)
  else (localRead m (dSrcSpace h.desc) (dSrc h.desc) (dCount h.desc), true)

/-- The other range of a compare. -/
def chanOther (m : Memory) (h : Channel) : Bytes × Bool :=
  if dDstSpace h.desc = 0 then (h.stagedOther, h.stagedOther.length == dCount h.desc)
  else (localRead m (dDstSpace h.desc) (dDst h.desc) (dCount h.desc), true)

/-- The compare's outcome (R464, R462). -/
def chanCompare (c : Nat) (x y : Bytes) (next : Option DmaRead) (d : Dev) : Dev :=
  match firstDiff x y with
  | none => chanNext c next d
  | some i =>
    let d := if (d.chan c).mismatch then d else modChan c (fun h => { h with mismatch := true, cmp := i }) d
    if dStop (d.chan c).desc then raisePf0 (440 + c) (modChan c (fun h => { h with st := .halted }) d)
    else chanNext c next d

/-- What is left of a copy or a fill written, and the descriptor ended; or the write fails after `n` bytes. -/
def chanFinish (c : Nat) (x : Bytes) (from_ : Nat) (wr : WriteResult) (n : Nat) (next : Option DmaRead)
    (dm : Dev × Memory) : Dev × Memory :=
  let b := (dm.1.chan c).desc
  let stop := if wr = .ok then dCount b else min (max n from_) (dCount b)
  let (d, m) := putAt (dDstSpace b) (dDst b + from_) (seg x from_ (stop - from_)) dm
  if wr = .ok then (chanNext c next d, m) else (chanWriteError c wr stop d, m)

/-- DMA_DESC_COMPLETE (R464, R467, R468): once the reads are there, the rest is written and the channel goes on. `wr`
says how its last writes went and `at_` after how many bytes a failing one; `next` what reading the next descriptor
returned. A running channel without a descriptor takes `next` as its descriptor read. -/
def execDmaDescComplete (c : Fin 64) (wr : WriteResult) (at_ : Nat) (next : Option DmaRead) : State → Out :=
  onBoth (fun d m =>
    let h := d.chan c
    let b := h.desc
    if !chanRuns d c then (d, m)
    else if b.isEmpty then
      match next with
      | some r => (chanTake c r d, m)
      | none => (d, m)
    else if dOp b = 1 then
      let e := accessErr d c (dDstSpace b) (dDst b)
      if e != 0 then (chanHalt c e (dDst b) true d, m)
      else chanFinish c (fillBytes (dSrc b) (dDst b) (dCount b)) 0 wr at_ next (d, m)
    else
      let (x, there) := chanSource m h
      let e := accessErr d c (dSrcSpace b) (dSrc b)
      let f := accessErr d c (dDstSpace b) (dDst b)
      if !there then (d, m)
      else if e != 0 then (chanHalt c e (dSrc b) false d, m)
      else if f != 0 && (dOp b = 2 || writtenAt b h.staged.length < dCount b) then
        (chanHalt c f (dDst b) (dOp b = 0) d, m)
      else if dOp b = 2 then
        let (y, also) := chanOther m h
        if also then (chanCompare c x y next (modChan c (fun h => { h with count := 0 }) d), m) else (d, m)
      else
        chanFinish c x (if dSrcSpace b = 0 then writtenAt b h.staged.length else 0) wr at_ next
          (modChan c (fun h => { h with count := 0 }) d, m))

/-! Inputs of commands (R468, R251 [08], R50 [02]). -/

/-- A DMA error of a command's input: the first one decides its status. A Tweed command that is not dispatched yet
completes at once, with DMA_BUS_ERROR whatever the error (R251 [08]); a module job's sequencer sees the error. -/
def inputError (id : Nat) (st : Status) (d : Dev) : Dev :=
  match findCmd d id with
  | none => d
  | some c =>
    if c.pkt.opcode / 256 = 5 && c.stage == .ready then conclude id (bare .dmaBusError) d
    else
      let mark (e : Nat × MicroCtx) : Nat × MicroCtx := if e.2.cmd = id then (e.1, { e.2 with dmaErr := true }) else e
      let d := setCmd { c with dmaErr := c.dmaErr.or (some st) } d
      { d with micro := { d.micro with ctxs := d.micro.ctxs.map mark } }

/-- The read of an input descriptor of a command returns. -/
def cmdRead (id i : Nat) (r : DmaRead) (d : Dev) : Dev :=
  match findCmd d id with
  | none => d
  | some c =>
    let x := c.pkt.desc i
    if !c.unfinished || c.outcome.isSome || c.dmaErr.isSome || c.pkt.ndesc ≤ i || x.isOut || x.len = 0
      || x.space = 2 || (tfind c.inputs i).isSome then d
    else
      match r with
      | .data b =>
        if x.space = 0 then
          noteAts (pasidOf d c.slice x.pslot) x.addr x.len (setCmd { c with inputs := tset c.inputs i (fit x.len b) } d)
        else d
      | .translation a => if x.space = 0 then inputError id .dmaBusError (pasidFault c.slice a 4 d) else d
      | .error _ after => if x.space = 0 then inputError id (if after then .dmaLateError else .dmaBusError) d else d
      | .tagFail a _ => if x.space = 1 then raiseFault (268 + a / 4096 % 2) a 4 (some id) d else d

/-- DMA_READ_COMPLETION (R468). -/
def execDmaReadCompletion (t : DmaTarget) (r : DmaRead) : State → Out :=
  onBoth (fun d m =>
    match t with
    | .cmd id i => if d.dmaHeld then (d, m) else (cmdRead id i r d, m)
    | .chan c other =>
      if !chanRuns d c || (d.chan c).desc.isEmpty then (d, m)
      else
        match r with
        | .data x => chanStage c other x (d, m)
        | _ => (chanReadError c r d, m))

/-! Scratch banks (R471, R472). -/

/-- A write to SCR_OWN: only banks 32 to 47, and only to free or to a manager channel. -/
def scrOwnWrite (b v : Nat) (d : Dev) : Dev :=
  let n := bits v 15 8
  if !d.reachable || b < 32 || 47 < b || 8 < n then d
  else if n = 0 || bit v 16 then startWipe b n d
  else modBank b (fun k => { k with owner := n }) d

/-- SCR_OWN_HANDOVER. -/
def execScrOwnHandover (b : Fin 64) (v : BitVec 32) : State → Out := onDev (scrOwnWrite b v.toNat)

/-- SCR_WIPE_DONE: 0.6 µs after the wipe began, the bank is zero. -/
def execScrWipeDone (b : Fin 64) : State → Out :=
  onBoth (fun d m =>
    if (d.bank b).wiping && decide ((d.bank b).wipeEnd ≤ d.clk) then
      (modBank b (fun k => { k with wiping := false }) d, { m with scr := memClear m.scr (b.val * 0x10000) 0x10000 })
    else (d, m))

/-! Zeroisation (R478, R480). -/

/-- HBM_ZEROISE_DONE: a slice's regions, or all of on-package memory, read zero; a SLICE_CREATE that waited for the
window goes on. -/
def execHbmZeroiseDone (sl : Option (Fin 256)) : State → Out :=
  onBoth (fun d m =>
    let k := sl.map (·.val)
    if !d.dma.zeroing.contains k || !d.powered then (d, m)
    else
      let d := { d with dma := { d.dma with zeroing := d.dma.zeroing.filter (fun z => z != k) } }
      let wake (c : Cmd) : Cmd :=
        if c.op == .sliceCreate && c.stage == .waiting && !windowOwed d c.prm then { c with stage := .results } else c
      (mapCmds wake d, { m with hbm :=
        match k with
        | none => []
        | some s => memClear m.hbm (xwBase s) 0x10000 }))

end Sys2Proof.Machine
end

