-- ==== Sys2Proof/Machine/Fetch.lean ====
section
/-!
DEFINITION. The fetch units and the push lane: which queue may be read, framing, and the copy of an entry into
admission (R20 to R22, R38, R42, R43 [01]; R95 to R103, R113 to R115 [03]).
-/
namespace Sys2Proof.Machine

/-! Whether a queue may be read. -/

/-- The slots R38 guarantees an enabled queue. -/
def guarantee (x : Sq) : Nat := if x.st = .disabled then 0 else min 4 x.window

/-- Every queue of the device that is not as reset: slice, number, registers. -/
def allQueues (d : Dev) : List (Nat × Nat × Sq) :=
  d.slices.flatMap (fun (e : Nat × Slice) => e.2.sqs.map (fun (f : Nat × Sq) => (e.1, f.1, f.2)))

/-- Slots taken from the shared part of the pool. -/
def sharedUsed (d : Dev) : Nat :=
  ((allQueues d).map (fun (e : Nat × Nat × Sq) => slotsHeld d e.1 e.2.1 - guarantee e.2.2)).sum

/-- Slots in the shared part of the pool. -/
def sharedSize (d : Dev) : Nat := 65536 - ((allQueues d).map (fun (e : Nat × Nat × Sq) => guarantee e.2.2)).sum

/-- Slots that a slice's commands hold. -/
def sliceHeld (d : Dev) (s : Nat) : Nat := (d.cmds.filter (fun (c : Cmd) => c.slice == s)).length

/-- A command of queue `q` may take a slot: the queue's window (R38), the slice's REORDER_CAP (R69 [02]) and the
pool leave one, and the rates of R22 do. -/
def slotRoom (d : Dev) (s q : Nat) : Bool :=
  let x := d.sq s q
  let n := slotsHeld d s q
  decide (n < x.window) && decide (sliceHeld d s < (d.slice s).cfg.cap)
    && (decide (n < guarantee x) || decide (sharedUsed d < sharedSize d)) && rateRoom d s q

/-- The device takes entries of slice `s`: the slice is ACTIVE, a round has begun since it was resumed, and it is
not being decommissioned (R59 [02], R387 [13]), no life-cycle transition runs (R369 [13]), and neither HOLD nor a stop keeps it back (R398 [14]). -/
def sliceFetches (d : Dev) (s : Nat) : Bool :=
  let x := d.slice s
  x.st == .active && decide (x.fetchFrom ≤ d.sched.rounds) && x.decom.isNone && !d.keptBack s && d.alive
    && d.link.lcRun.isNone

/-- Queue `q` is ready to be read: a poll gives cause, or a doorbell whose re-read is not being waited for (R101,
R102), and nothing keeps it back, nor the wait for continuation granules (R98). -/
def fetchReady (d : Dev) (s q : Nat) : Bool :=
  let x := d.sq s q
  let waits (o : Option Nat) (t : Nat) : Bool := o.isSome && decide (d.clk < t)
  x.st == .running && sliceFetches d s && !d.dmaHeld && slotRoom d s q
    && (x.pollDue || x.contAt.isSome || (doorbellDue x && !waits x.notNewAt x.rereadAt))
    && !waits x.contAt (x.contAt.getD 0)

/-- Number of a queue on the device. -/
def queueNo (s q : Nat) : Nat := s * 16 + q

/-- Fetch unit of a queue: eight units of 512 queues. -/
def fetchUnit (k : Nat) : Nat := k / 512

/-- Queues of a fetch unit that are ready, by number. A unit with a fault is out of service (R411 [14]) until the fault
is acknowledged (DESIGN CHOICE, log 66). -/
def readyQueues (d : Dev) (u : Nat) : List Nat :=
  if d.prot.pendingFc.getLsbD (256 + u) then [] else
  ((allQueues d).filter (fun (e : Nat × Nat × Sq) =>
    fetchUnit (queueNo e.1 e.2.1) == u && fetchReady d e.1 e.2.1)).map (fun (e : Nat × Nat × Sq) => queueNo e.1 e.2.1)

/-- The first of a list at or after `k` in cyclic order. -/
def nextCyclic (l : List Nat) (k : Nat) : Option Nat :=
  let low (l : List Nat) : Option Nat := l.foldl (fun (b : Option Nat) (x : Nat) =>
    match b with
    | some y => some (min x y)
    | none => some x) none
  (low (l.filter (fun x => decide (k ≤ x)))).or (low l)

/-- The queue a fetch unit reads next: the one it serves until 8 entries or 64 granules, else the next ready one
in round-robin order (R22). -/
def fetchTurn (d : Dev) (u : Nat) : Option Nat :=
  let l := readyQueues d u
  match tfind d.sched.turns u with
  | some (k, e, g) => if l.contains k && e < 8 && g < 64 then some k else nextCyclic l (k + 1)
  | none => nextCyclic l 0

/-- A read of queue `k` counted in its fetch unit's turn. -/
def countTurn (k g : Nat) (d : Dev) : Dev :=
  let u := fetchUnit k
  let t := match tfind d.sched.turns u with
    | some (k', e', g') => if k' = k && e' < 8 && g' < 64 then (k, e' + 1, g' + g) else (k, 1, g)
    | none => (k, 1, g)
  { d with sched := { d.sched with turns := tset d.sched.turns u t } }

/-! Push slots (R42, R43, R99, R113). -/

/-- Bytes of a push slot's entry. -/
def pushEntry (p : PushSlot) : Bytes := (List.range 256).map (fun i => tget 0 p.bytes i)

/-- GCTL of granule `i` of an entry. -/
def gctl (b : Bytes) : Nat := field b 0 1

/-- The GCTL checks of a push slot: everything of R97 but the phase, and at most 4 granules (R99). -/
def pushFaulty (b : Bytes) : Bool :=
  let g (i : Nat) : Nat := gctl (seg b (64 * i) 64)
  let n := bits (g 0) 3 0
  !bit (g 0) 6 || bits (g 0) 5 4 != 0 || decide (3 < n)
    || (List.range (min n 3)).any (fun i => bit (g (i + 1)) 6 || bits (g (i + 1)) 5 4 != 0 || bits (g (i + 1)) 3 0 != i + 1)

/-- A posted push slot may be admitted. -/
def pushReady (d : Dev) (s n : Nat) : Bool :=
  let x := d.slice s
  !x.pushFree.getLsbD n && sliceFetches d s && (x.sq 0).st != .disabled && (x.sq 0).st != .draining && slotRoom d s 0

/-- Some posted push slot may be admitted: ring entries wait for it (R43). -/
def pushAhead (d : Dev) : Bool :=
  d.slices.any (fun (e : Nat × Slice) => (List.range 16).any (fun n => pushReady d e.1 n))

/-- PUSH_ENTRY_ADMIT (R43, R99, R113). -/
def execPushEntryAdmit (sl : Fin 256) (slot : Fin 16) (aux : List (Nat × Bytes)) : State → Out :=
  onBoth (fun d m =>
    if pushReady d sl slot then
      let b := pushEntry ((d.slice sl).pslotAt slot)
      let bad := pushFaulty b
      let n := if bad then 0 else bits (gctl b) 3 0
      let p := packetOf (seg b 0 64) ((List.range n).map (fun i => seg b (64 * (i + 1)) 64)) bad
      hookNext (admitCmd sl 0 (some slot.val) slot p aux m (freePush sl slot d)) m
    else (d, m))

/-! Framing of ring entries. -/

/-- What the reads of an entry amount to. -/
inductive Framed where
  /-- Granule 0 is not new. -/
  | notNew
  /-- A continuation granule is not new (R98). -/
  | contNotNew
  /-- A framing fault: reason, and whether a translation failed. -/
  | fault (reason : Nat) (translation : Bool)
  /-- More continuation granules are needed than were read. -/
  | short
  | entry (g0 : Bytes) (conts : List Bytes)
deriving DecidableEq, Repr

/-- GCTL.PHASE is the phase of the position (R95). -/
def isNew (n p : Nat) (b : Bytes) : Bool := bit (gctl b) 7 == phaseAt n (p % (2 * n))

/-- The continuation granules, in entry order (R114 item 2), from number `i` at position `p`. -/
def frameConts (n p i : Nat) : List RingRead → Framed ⊕ List Bytes
  | [] => .inr []
  | .failed t :: _ => .inl (.fault 6 t)
  | .data b :: rest =>
    if !isNew n p b then .inl .contNotNew
    else if bit (gctl b) 6 || bits (gctl b) 3 0 != i then .inl (.fault 3 false)
    else if bits (gctl b) 5 4 != 0 then .inl (.fault 5 false)
    else
      match frameConts n (p + 1) (i + 1) rest with
      | .inl f => .inl f
      | .inr l => .inr (fit 64 b :: l)

/-- An entry at position `p` of a ring of depth `n` (R114). -/
def frame (n p : Nat) (g0 : RingRead) (conts : List RingRead) : Framed :=
  match g0 with
  | .failed t => .fault 6 t
  | .data b =>
    let k := bits (gctl b) 3 0
    if !isNew n p b then .notNew
    else if !bit (gctl b) 6 then .fault 2 false
    else if bits (gctl b) 5 4 != 0 then .fault 5 false
    else if n < k + 1 then .fault 1 false
    else if conts.length < k then .short
    else
      match frameConts n (p + 1) 1 (conts.take k) with
      | .inl f => f
      | .inr l => .entry (fit 64 b) l

/-- The consumer position passes an entry of `k` granules (R103). -/
def passEntry (k : Nat) (x : Sq) : Sq :=
  let u := match x.prod with
    | some p => usedFrom x.depth x.pos p
    | none => 0
  { x with pos := (x.pos + k) % (2 * x.depth), ciOwed := x.ciAddr != 0, notNewAt := none, contAt := none,
           prod := if u ≤ k then none else x.prod }

/-- The bytes a ring read returned. -/
def ringBytes : RingRead → Bytes
  | .data b => b
  | .failed _ => []

/-- A read found granule 0 not new: while a doorbell covers it, the next re-read is 1 µs away, and the first such read
at the position is remembered (R102; a read made before any doorbell covered the position does not count: DESIGN
CHOICE, log 39). -/
def foundNotNew (clk : Nat) (x : Sq) : Sq :=
  if doorbellDue x then
    { x with notNewAt := some (x.notNewAt.getD clk),
             rereadAt := if x.notNewAt.isSome && clk < x.rereadAt then x.rereadAt else clk + 1000 }
  else x

/-- What a read of the entry at the consumer position does. `again` says that the continuation granules have
been read once more, under the granule 0 that was found new (R98). -/
def takeEntry (again : Bool) (s q : Nat) (g0 : RingRead) (conts : List RingRead) (aux : List (Nat × Bytes))
    (d : Dev) (m : Memory) : Dev × Memory :=
  let x := d.sq s q
  let k := queueNo s q
  let read (g : Nat) (d : Dev) : Dev := countTurn k g (d.modSq s q (fun x => { x with pollDue := false }))
  match frame x.depth x.pos g0 conts with
  | .short => (d, m)
  | .notNew => (read 1 (d.modSq s q (foundNotNew d.clk)), m)
  | .contNotNew =>
    if again then (read 1 (framingFault s q 4 false d), m)
    else (read 1 (d.modSq s q (fun x => { x with contAt := some (d.clk + 1000), held0 := ringBytes g0, notNewAt := none })), m)
  | .fault r t => (read 1 (framingFault s q r t d), m)
  | .entry b l =>
    let n := l.length + 1
    let d := publishCi s q (read n (d.modSq s q (passEntry n)))
    hookNext (admitCmd s q none (wordOfPos x.depth x.pos) (packetOf b l false) aux m d) m

/-- The translation of a ring read at the consumer position is cached (R49 [02]). -/
def ringAts (s q : Nat) (x : Sq) (d : Dev) : Dev :=
  noteAts (pasidOf d s (d.sq s q).pasidSlot) (x.base + 64 * (x.pos % x.depth)) 64 d

/-- It is queue `q`'s turn to be read. -/
def mayFetch (d : Dev) (s q : Nat) : Bool :=
  fetchReady d s q && !pushAhead d && fetchTurn d (fetchUnit (queueNo s q)) == some (queueNo s q)

/-- Whether the write of the consumer word that follows will go through (R118). -/
def ciWill (s q : Nat) (ok : Bool) (d : Dev) : Dev := d.modSq s q (fun x => { x with ciFails := !ok })

/-- ENTRY_FETCH (R20, R95, R114): a read for a doorbell, or a poll read (R101). -/
def execEntryFetch (sl : Fin 256) (q : Fin 16) (rd : EntryRead) (aux : List (Nat × Bytes)) (ciOk : Bool) : State → Out :=
  onBoth (fun d m =>
    let x := d.sq sl q
    if mayFetch d sl q && (x.notNewAt.isNone || x.pollDue) && x.contAt.isNone then
      takeEntry false sl q rd.g0 rd.conts aux (ringAts sl q x (ciWill sl q ciOk d)) m
    else (d, m))

/-- CONTINUATION_REREAD (R98): the continuation granules alone are read again. -/
def execContinuationReread (sl : Fin 256) (q : Fin 16) (conts : List RingRead)
    (aux : List (Nat × Bytes)) (ciOk : Bool) : State → Out :=
  onBoth (fun d m =>
    let x := d.sq sl q
    if mayFetch d sl q && x.contAt.isSome then
      takeEntry true sl q (.data x.held0) conts aux (ringAts sl q x (ciWill sl q ciOk d)) m
    else (d, m))

/-- GRANULE0_REREAD (R102): of a granule that a doorbell covers and that was not new. -/
def execGranule0Reread (sl : Fin 256) (q : Fin 16) (rd : EntryRead) (aux : List (Nat × Bytes)) (ciOk : Bool) : State → Out :=
  onBoth (fun d m =>
    let x := d.sq sl q
    if mayFetch d sl q && x.notNewAt.isSome && doorbellDue x && decide (x.rereadAt ≤ d.clk) && x.contAt.isNone then
      takeEntry false sl q rd.g0 rd.conts aux (ringAts sl q x (ciWill sl q ciOk d)) m
    else (d, m))

end Sys2Proof.Machine
end

