-- ==== Sys2Proof/Machine/Flags.lean ====
section
/-!
DEFINITION. Flags and arithmetic of the SV16 (R443 to R447 [16]).
-/
namespace Sys2Proof.Machine

/-- The four flags an instruction sets. -/
structure Flags where
  z : Bool
  n : Bool
  c : Bool
  v : Bool
deriving DecidableEq, Repr

/-- Flags held in SR. -/
def flagsOf (sr : Word16) : Flags :=
  { z := sr.getLsbD 0, n := sr.getLsbD 1, c := sr.getLsbD 2, v := sr.getLsbD 3 }

/-- SR with its flags replaced; every other bit stays. -/
def withFlags (sr : Word16) (f : Flags) : Word16 :=
  (sr &&& 0xFFF0) ||| BitVec.ofNat 16 (b2n f.z + 2 * b2n f.n + 4 * b2n f.c + 8 * b2n f.v)

/-- The bits of SR that exist (R443). -/
def srMask : Word16 := 0xB11F

/-- A 16-bit result with Z and N from it. -/
def flag16 (r : Word16) (c v : Bool) : Word16 × Flags := (r, { z := r == 0, n := r.msb, c := c, v := v })

/-- The sum with a carry in (R445): carry out of bit 15, signed overflow. -/
def addFlags (a b : Word16) (cin : Bool) : Word16 × Flags :=
  let r := BitVec.ofNat 16 (a.toNat + b.toNat + b2n cin)
  flag16 r (decide (65536 ≤ a.toNat + b.toNat + b2n cin)) (decide (r.toInt ≠ a.toInt + b.toInt + b2n cin))

/-- The difference with a borrow in (R445). -/
def subFlags (a b : Word16) (bin : Bool) : Word16 × Flags :=
  let r := a - b - BitVec.ofNat 16 (b2n bin)
  flag16 r (decide (a.toNat < b.toNat + b2n bin)) (decide (r.toInt ≠ a.toInt - b.toInt - b2n bin))

/-- A result of the logical instructions, SWAPB and SXB: C and V are 0 (R445). -/
def logicFlags (r : Word16) : Word16 × Flags := flag16 r false false

/-- NEG (R445). -/
def negFlags (a : Word16) : Word16 × Flags := flag16 (0 - a) (a != 0) (a == 0x8000)

/-- INC and DEC by `k`, 1 or −1: C unchanged (R445). -/
def stepFlags (a : Word16) (k : Int) (c : Bool) : Word16 × Flags :=
  let r := BitVec.ofInt 16 (a.toInt + k)
  flag16 r c (decide (r.toInt ≠ a.toInt + k))

/-- LSL by a count of 0 to 31 (R447). -/
def lslFlags (a : Word16) (n : Nat) : Word16 × Flags :=
  if n = 0 then flag16 a false false
  else if n < 16 then flag16 (a <<< n) (a.getLsbD (16 - n)) false
  else flag16 0 false false

/-- LSR. -/
def lsrFlags (a : Word16) (n : Nat) : Word16 × Flags :=
  if n = 0 then flag16 a false false
  else if n < 16 then flag16 (a >>> n) (a.getLsbD (n - 1)) false
  else flag16 0 false false

/-- ASR. -/
def asrFlags (a : Word16) (n : Nat) : Word16 × Flags :=
  if n = 0 then flag16 a false false
  else if n < 16 then flag16 (a.sshiftRight n) (a.getLsbD (n - 1)) false
  else flag16 (if a.msb then 0xFFFF else 0) a.msb false

/-- ASL: V is 1 when shifting the result back arithmetically does not restore the operand. -/
def aslFlags (a : Word16) (n : Nat) : Word16 × Flags :=
  if n = 0 then flag16 a false false
  else if n < 16 then flag16 (a <<< n) (a.getLsbD (16 - n)) ((a <<< n).sshiftRight n != a)
  else flag16 0 false (a != 0)

/-- ROL by the count modulo 16: C is the last bit rotated round. -/
def rolFlags (a : Word16) (n : Nat) : Word16 × Flags :=
  let r := a.rotateLeft (n % 16)
  if n % 16 = 0 then flag16 a false false else flag16 r (r.getLsbD 0) false

/-- ROR. -/
def rorFlags (a : Word16) (n : Nat) : Word16 × Flags :=
  let r := a.rotateRight (n % 16)
  if n % 16 = 0 then flag16 a false false else flag16 r r.msb false

/-- The product of two registers, signed or unsigned. -/
def product (signed : Bool) (a b : Word16) : Int := if signed then a.toInt * b.toInt else (a.toNat * b.toNat : Int)

/-- SMUL and UMUL (R445): C and V are 0; Z and N are those of the 32-bit product. -/
def mulFlags (signed : Bool) (a b : Word16) : Word32 × Flags :=
  let r := BitVec.ofInt 32 (product signed a b)
  (r, { z := r == 0, n := r.msb, c := false, v := false })

/-- SMAC (R445): C unchanged, V the signed overflow of the sum. -/
def smacFlags (acc : Word32) (a b : Word16) (f : Flags) : Word32 × Flags :=
  let s := acc.toInt + product true a b
  let r := BitVec.ofInt 32 s
  (r, { z := r == 0, n := r.msb, c := f.c, v := decide (r.toInt ≠ s) })

/-- UMAC (R445): C the carry out of bit 31, V unchanged. -/
def umacFlags (acc : Word32) (a b : Word16) (f : Flags) : Word32 × Flags :=
  let s := acc.toNat + a.toNat * b.toNat
  let r := BitVec.ofNat 32 s
  (r, { z := r == 0, n := r.msb, c := decide (2 ^ 32 ≤ s), v := f.v })

/-- Quotient, remainder, flags and whether DZ is set, of SDIV and UDIV (R446). -/
def divide (signed : Bool) (a b : Word16) : Word16 × Word16 × Flags × Bool :=
  if b = 0 then (0xFFFF, a, { z := false, n := true, c := false, v := true }, true)
  else if signed && a == 0x8000 && b == 0xFFFF then (0x8000, 0, { z := false, n := true, c := false, v := true }, false)
  else
    let q := if signed then BitVec.ofInt 16 (a.toInt.tdiv b.toInt) else BitVec.ofNat 16 (a.toNat / b.toNat)
    let r := if signed then BitVec.ofInt 16 (a.toInt.tmod b.toInt) else BitVec.ofNat 16 (a.toNat % b.toNat)
    (q, r, { z := q == 0, n := q.msb, c := false, v := false }, false)

/-- The sixteen conditions of Bcc (R444); DZS reads DZ. -/
def condition (cc : Nat) (sr : Word16) : Bool :=
  let f := flagsOf sr
  match cc with
  | 0 => true
  | 1 => f.z
  | 2 => !f.z
  | 3 => f.c
  | 4 => !f.c
  | 5 => f.n
  | 6 => !f.n
  | 7 => f.v
  | 8 => !f.v
  | 9 => !f.c && !f.z
  | 10 => f.c || f.z
  | 11 => f.n == f.v
  | 12 => f.n != f.v
  | 13 => !f.z && f.n == f.v
  | 14 => f.z || f.n != f.v
  | _ => sr.getLsbD 4

end Sys2Proof.Machine
end

