-- ==== Sys2Proof/Machine/Operands.lean ====
section
/-!
DEFINITION. Operands of the SV16: its registers, its three address spaces and its addressing modes (R440 to R444
[16]).
-/
namespace Sys2Proof.Machine

/-- Linen changed. -/
def modLinen (f : Linen → Linen) (d : Dev) : Dev := { d with linen := f d.linen }

/-- SR.MODE: policy mode. -/
def Linen.policyMode (l : Linen) : Bool := l.sr.getLsbD 15

/-- The stack pointer in force: KSP in kernel mode, PSP in policy mode (R443). -/
def Linen.sp (l : Linen) : Word16 := if l.policyMode then l.psp else l.ksp

/-- Register `r` of a 4-bit field: V0 to V7, then X0 (SP) to X7. -/
def Linen.reg (l : Linen) (r : Nat) : Word16 :=
  if r < 8 then tget 0 l.v r else if r = 8 then l.sp else tget 0 l.x (r - 8)

/-- Linen with a register written. -/
def Linen.setReg (l : Linen) (r : Nat) (v : Word16) : Linen :=
  if r < 8 then { l with v := tset l.v r v }
  else if r = 8 then (if l.policyMode then { l with psp := v } else { l with ksp := v })
  else { l with x := tset l.x (r - 8) v }

/-- Register `r`. -/
def svReg (d : Dev) (r : Nat) : Word16 := d.linen.reg r

/-- The device with a register of Linen written. -/
def svSet (r : Nat) (v : Word16) (d : Dev) : Dev := modLinen (fun l => l.setReg r v) d

/-- Flags set. -/
def svFlags (f : Flags) (d : Dev) : Dev := modLinen (fun l => { l with sr := withFlags l.sr f }) d

/-- The second operand of an arithmetic or shift instruction. -/
def srcVal (d : Dev) : SvSrc → Word16
  | .reg r => svReg d r
  | .imm v => v

/-- Words of an instruction with such an operand (R444). -/
def srcWords : SvSrc → Nat
  | .reg _ => 1
  | .imm _ => 2

/-! Spaces (R440, R441). -/

/-- A word of data space; none where the access gives a data-space fault. The OTP window and the window on the command
being carried out, whose layout the manual does not give, read as free values (log 27). -/
def dataRead (d : Dev) (m : Memory) (a : Nat) : Option (Word16 × Dev) :=
  let pol := d.linen.policyMode
  if a < 0x6000 then (if pol then none else some (memGet m.dram a, d))
  else if a < 0x8000 then some (memGet m.dram a, d)
  else if 0xC000 ≤ a || pol then none
  else if d.linen.bank = 0 then (if a < 0xA000 then some (memGet m.dram a, d) else none)
  else if d.linen.bank = 1 || d.linen.bank = 2 then
    let (n, d) := drawNat d
    some (BitVec.ofNat 16 n, d)
  else none

/-- A word of data space may be written: kernel RAM, the policy window, the vault RAM. -/
def dataWritable (d : Dev) (a : Nat) : Bool :=
  let pol := d.linen.policyMode
  if a < 0x6000 then !pol
  else if a < 0x8000 then true
  else !pol && d.linen.bank == 0 && decide (a < 0xA000)

/-- The memory with a word of data space written; none where the access faults. -/
def dataWrite (d : Dev) (m : Memory) (a : Nat) (v : Word16) : Option Memory :=
  if dataWritable d a then some { m with dram := memPut m.dram a v } else none

/-- A word of instruction space: mask ROM below 0x8000, RAM above. -/
def instrRead (m : Memory) (a : Nat) : Word16 :=
  if a < 0x8000 then BitVec.ofNat 16 (field (Config.rom 0) (2 * a) 2) else memGet m.iram a

/-! Effective addresses (R444). -/

/-- An index register's code. -/
def isIndex (r : Nat) : Bool := decide (8 ≤ r)

/-- The operand names an index register where one is required. -/
def eaOk : SvEa → Bool
  | .ind x => isIndex x
  | .postInc x => isIndex x
  | .preDec x => isIndex x
  | .disp x _ => isIndex x
  | .abs _ => true

/-- Words of an instruction with a memory operand. -/
def eaWords : SvEa → Nat
  | .disp _ _ => 2
  | .abs _ => 2
  | _ => 1

/-- The address of a memory operand. -/
def eaAddr (d : Dev) : SvEa → Word16
  | .ind x => svReg d x
  | .postInc x => svReg d x
  | .preDec x => svReg d x - 1
  | .disp x k => svReg d x + k
  | .abs a => a

/-- The index register stepped by one word after the access, or before it. -/
def eaStep (e : SvEa) (d : Dev) : Dev :=
  match e with
  | .postInc x => svSet x (svReg d x + 1) d
  | .preDec x => svSet x (svReg d x - 1) d
  | _ => d

/-- A port operand's words, its validity and the port. -/
def portWords : SvPort → Nat
  | .imm _ => 2
  | .ind _ => 1

def portOk : SvPort → Bool
  | .imm _ => true
  | .ind x => isIndex x

def portNo (d : Dev) : SvPort → Nat
  | .imm p => p
  | .ind x => (svReg d x).toNat % 4096

/-- A jump operand's words, its validity and the target. -/
def targetWords : SvTarget → Nat
  | .abs _ => 2
  | .ind _ => 1

def targetOk : SvTarget → Bool
  | .abs _ => true
  | .ind x => isIndex x

def targetAddr (d : Dev) : SvTarget → Word16
  | .abs a => a
  | .ind x => svReg d x

end Sys2Proof.Machine
end

