-- ==== Sys2Proof/Machine/Sdu.lean ====
section
/-!
DEFINITION. The supervisor digest unit (R455 to R458 [16]): its registers, its message, its result, its context.
-/
namespace Sys2Proof.Machine

/-- What an access to a port of the unit comes to: done, with the word read; or stalled (R456). -/
inductive SduAct where
  | done (v : Word16) (d : Dev)
  | stall
deriving DecidableEq, Repr

/-- The unit changed. -/
def modSdu (f : Sdu → Sdu) (d : Dev) : Dev := modLinen (fun l => { l with sdu := f l.sdu }) d

/-- Words of an input block by ALG (R455). -/
def sduBlock (alg : Nat) : Nat :=
  match alg with
  | 1 => 32
  | 2 => 64
  | 3 => 64
  | 4 => 68
  | 5 => 36
  | 6 => 32
  | 7 => 64
  | _ => 68

/-- Both input buffers hold a block. -/
def Sdu.full (u : Sdu) : Bool := decide (2 * sduBlock u.cur.alg ≤ u.buffered)

/-- A block is being compressed: one is complete, or the last one is. -/
def Sdu.busy (u : Sdu) : Bool := decide (sduBlock u.cur.alg ≤ u.buffered) || (u.finished && !u.valid)

/-- The task running (TASKID). -/
def taskOf (d : Dev) : Nat := d.linen.taskId.toNat % 8

/-- SDU_CTRL and SDU_STATUS as read ([16]). -/
def sduCtrl (u : Sdu) : Nat := u.alg * 4096 + b2n u.compat * 2048 + u.dest * 512

def sduStatus (task : Nat) (u : Sdu) : Nat :=
  b2n u.busy * 2 ^ 15 + b2n u.valid * 2 ^ 14 + b2n u.full * 2 ^ 13 + b2n (u.owner != 15 && u.owner != task) * 2 ^ 12
    + b2n u.errSeq * 4 + b2n u.errEarly * 2 + b2n u.errKey

/-- ERR_SEQ set. -/
def sduSeq (d : Dev) : Dev := modSdu (fun u => { u with errSeq := true }) d

/-- The key that KEYSEL names (R455); none where the slot is empty or its MAC fails. -/
def sduKey (d : Dev) (k : Nat) : Option Bytes :=
  if k = 0 || 0x207 < k then none
  else if k ≤ 0x200 then
    let c := copiesOf d ((k - 1) / 2)
    (if (k - 1) % 2 = 0 then c.1 else c.2).map (·.key)
  else if k = 0x201 then some (deviceSeed d)
  else if k = 0x202 then some (idSeed d)
  else if k = 0x203 then d.board.key
  else (((d.cust.filterMap (fun (e : Nat × Custody) => e.2.staged))[k - 0x204]?).map (·.key))

/-- A message opened (R455); a reserved ALG or DEST, an OUTLEN out of its range, or a vault destination outside kernel
mode gives ERR_SEQ, a key that is not there ERR_KEY. The unit is claimed for the task where it is free. -/
def sduOpen (d : Dev) : Dev :=
  let u := d.linen.sdu
  let keyed := decide (6 ≤ u.alg)
  if u.alg = 0 || 8 < u.alg || u.dest = 3 || u.outLen = 0 || 64 < u.outLen.toNat
    || (u.dest = 2 && d.linen.policyMode) then sduSeq d
  else if keyed && (sduKey d u.keySel.toNat).isNone then modSdu (fun u => { u with errKey := true }) d
  else
    let key := if keyed then (sduKey d u.keySel.toNat).getD [] else []
    let task := taskOf d
    modSdu (fun u => { u with
      cur := { alg := u.alg, key := key, slen := u.slen.toNat, outLen := u.outLen.toNat, dest := u.dest },
      owner := if u.owner = 15 then task else u.owner, opened := true, finished := false, valid := false,
      buffered := 0, msg := [], last := none, result := [], readPos := 0 }) d

/-- The task may write the unit's ports (R457). -/
def sduMine (d : Dev) : Bool := d.linen.sdu.owner == taskOf d

/-- A write to SDU_CTRL: by the owner, or a START while the unit is free. COMPAT is not written while a message is
open. -/
def sduCtrlWrite (v : Word16) (d : Dev) : Dev :=
  if !sduMine d && !(v.getLsbD 0 && d.linen.sdu.owner == 15) then d
  else
    let d := modSdu (fun u => { u with alg := bits v.toNat 15 12, dest := bits v.toNat 10 9,
                                       compat := if u.opened then u.compat else v.getLsbD 11 }) d
    if v.getLsbD 0 then sduOpen d else d

/-- The digest of a finished message: its last partial block is yet to be compressed. -/
def sduFinish (d : Dev) : Dev := modSdu (fun u => { u with opened := false, finished := true, last := none }) d

/-- A word taken into an open message, `n` bytes of it valid. -/
def sduTake (v : Word16) (n : Nat) (d : Dev) : Dev :=
  modSdu (fun u => { u with msg := u.msg ++ (leBytes 2 v.toNat).take n, buffered := u.buffered + 1 }) d

/-- A write to DIN (R455, R456). -/
def sduDin (v : Word16) (d : Dev) : SduAct :=
  let u := d.linen.sdu
  if !sduMine d then .done 0 d
  else if u.opened then
    if u.full then (if u.compat then .done 0 (sduSeq d) else .stall)
    else
      match u.last with
      | some n => .done 0 (sduFinish (sduTake v n d))
      | none => .done 0 (sduTake v 2 d)
  else if u.finished && !u.compat then
    .done 0 (sduTake v 2 (modSdu (fun u => { u with opened := true, finished := false, valid := false, buffered := 0,
                                                    msg := [], result := [], readPos := 0 }) d))
  else .done 0 (sduSeq d)

/-- A write to LAST (R455). -/
def sduLast (v : Word16) (d : Dev) : Dev :=
  if !sduMine d then d
  else if !d.linen.sdu.opened || 2 < v.toNat then sduSeq d
  else if v = 0 then sduFinish d
  else modSdu (fun u => { u with last := some v.toNat }) d

/-- A read of DOUT (R456, R457): the result, two bytes at a time, low byte first. -/
def sduDout (d : Dev) : SduAct :=
  let u := d.linen.sdu
  let early (d : Dev) : Dev := modSdu (fun u => { u with errEarly := true }) d
  if !sduMine d then .done 0 d
  else if !u.valid then (if u.compat then .done 0 (early d) else .stall)
  else if u.result.length ≤ u.readPos then .done 0 (if u.compat then early d else d)
  else .done (BitVec.ofNat 16 (field u.result u.readPos 2)) (modSdu (fun u => { u with readPos := u.readPos + 2 }) d)

/-- A write to OWNER (R455, R457): the owner frees the unit; only the kernel writes a task number. -/
def sduOwner (v : Word16) (d : Dev) : Dev :=
  let n := bits v.toNat 3 0
  if n = 15 then (if sduMine d || !d.linen.policyMode then modSdu (fun u => { u with owner := 15 }) d else d)
  else if n < 8 && !d.linen.policyMode then modSdu (fun u => { u with owner := n }) d
  else d

/-- A digest by ALG (codes of the hash functions as TYPE 0x06 numbers them). -/
def sduDigest (c : SduMsg) (x : Bytes) : Bytes :=
  match c.alg with
  | 1 => std .sha 32 [1] [x]
  | 2 => std .sha 48 [2] [x]
  | 3 => std .sha 64 [3] [x]
  | 4 => std .sha 32 [4] [x]
  | 5 => std .sha 64 [5] [x]
  | 6 => std .hmac 32 [1] [c.key, x]
  | 7 => std .hmac 48 [2] [c.key, x]
  | _ => std .kmac c.outLen [256, c.outLen] [c.key, x.drop c.slen, x.take c.slen]

/-- The ledger entry that SDU_DEST may name: PENDING, reserved by a command being carried out, and of the result's
length (R455). -/
def sduLedgerOk (d : Dev) (i n : Nat) : Bool :=
  (d.ent i).st == .pending && (d.ent i).matLen == n
    && d.cmds.any (fun (c : Cmd) => c.entry == some i && c.classes.isEmpty && c.inFlight)

/-- A result put where DEST says (R455). -/
def sduPlace (r : Bytes) (d : Dev) : Dev :=
  let u := d.linen.sdu
  let a := u.destLo.toNat + 65536 * u.destHi.toNat
  if u.cur.dest = 1 then
    if sduLedgerOk d (a % 131072) r.length then modEnt (a % 131072) (fun e => { e with material := r }) d
    else sduSeq d
  else if u.cur.dest = 2 then
    let s := a % 512 / 2
    let put (k : KeyCopy) : KeyCopy := writeCopy d s (a % 2) { gen := k.gen, key := r }
    d.modCust s (fun c => if a % 2 = 0 then { c with copyA := put c.copyA } else { c with copyB := put c.copyB })
  else modSdu (fun u => { u with result := r }) d

/-- A block has been compressed: an input buffer is free, vector 17; or it was the last one, and the result is
valid, vector 18 (R449, R455). -/
def sduBlockDone (d : Dev) : Dev :=
  let u := d.linen.sdu
  let k := sduBlock u.cur.alg
  if k ≤ u.buffered then linenPend 17 (modSdu (fun u => { u with buffered := u.buffered - k }) d)
  else if u.finished && !u.valid then
    linenPend 18 (sduPlace (sduDigest u.cur u.msg) (modSdu (fun u => { u with buffered := 0, valid := true, readPos := 0 }) d))
  else d

/-- SDU_BLOCK_DONE. -/
def execSduBlockDone : State → Out := onDev (fun d => if d.powered then sduBlockDone d else d)

/-! The context image (R458). -/

/-- Words of a context image. -/
def ctxWords : Nat := 192

/-- `n` free words. -/
def freeWords (k : Nat) : Nat → List Word16
  | 0 => []
  | n + 1 => BitVec.ofNat 16 (Config.freeNat k) :: freeWords (k + 1) n

/-- A read of CTX in kernel mode: it stalls while BUSY; the first word seals the context under the context key (the
sealed words are free values). -/
def ctxRead (d : Dev) : SduAct :=
  let u := d.linen.sdu
  if d.linen.policyMode then .done 0 d
  else if u.busy then .stall
  else
    let d := if u.ctxPos != 0 then d
      else
        let w := freeWords d.free ctxWords
        modLinen (fun l => { l with
          sduCtxs := if u.keyHeld then l.sduCtxs ++ [(w, u)] else l.sduCtxs,
          sdu := { u with ctxImage := w } }) { d with free := d.free + ctxWords }
    let p := d.linen.sdu.ctxPos
    .done (d.linen.sdu.ctxImage.getD p 0) (modSdu (fun u => { u with ctxPos := (p + 1) % ctxWords }) d)

/-- The unit zeroed and freed with ERR_SEQ, after a restore that failed. -/
def ctxFail (d : Dev) : Dev := modSdu (fun u => { sduZero false u with errSeq := true }) d

/-- A write to CTX in kernel mode, while the unit is free or the kernel's: the last word restores the context whose image
it is; a restore begun in the middle of a message or of a save, or of an image that was not sealed here, zeroes the
unit. -/
def ctxWrite (v : Word16) (d : Dev) : Dev :=
  let u := d.linen.sdu
  if d.linen.policyMode || (u.owner != 15 && u.owner != 0) then d
  else if u.opened || u.busy || u.ctxPos != 0 then ctxFail d
  else
    let w := u.ctxIn ++ [v]
    if w.length < ctxWords then modSdu (fun u => { u with ctxIn := w }) d
    else
      match d.linen.sduCtxs.find? (fun (e : List Word16 × Sdu) => e.1 == w), u.keyHeld with
      | some e, true => modSdu (fun u => { e.2 with owner := u.owner, keyHeld := true, ctxPos := 0, ctxImage := [],
                                                    ctxIn := [] }) d
      | _, _ => ctxFail d

/-! The unit's ports (R455). -/

/-- A read of port 0x100 + `p`. -/
def sduRead (p : Nat) (d : Dev) : SduAct :=
  let u := d.linen.sdu
  match p with
  | 0 => .done (BitVec.ofNat 16 (sduCtrl u)) d
  | 1 => .done (BitVec.ofNat 16 (sduStatus (taskOf d) u)) d
  | 4 => .done u.keySel d
  | 5 => .done u.slen d
  | 6 => .done u.outLen d
  | 7 => .done u.destLo d
  | 8 => .done u.destHi d
  | 9 => .done (BitVec.ofNat 16 u.owner) d
  | 10 => sduDout d
  | 11 => ctxRead d
  | _ => .done 0 d

/-- A write of port 0x100 + `p`. -/
def sduWrite (p : Nat) (v : Word16) (d : Dev) : SduAct :=
  let own (f : Sdu → Sdu) : SduAct := .done 0 (if sduMine d then modSdu f d else d)
  match p with
  | 0 => .done 0 (sduCtrlWrite v d)
  | 1 => .done 0 (modSdu (fun u => { u with errSeq := u.errSeq && !v.getLsbD 2, errEarly := u.errEarly && !v.getLsbD 1,
                                            errKey := u.errKey && !v.getLsbD 0 }) d)
  | 2 => sduDin v d
  | 3 => .done 0 (sduLast v d)
  | 4 => own (fun u => { u with keySel := v })
  | 5 => own (fun u => { u with slen := v })
  | 6 => own (fun u => { u with outLen := v })
  | 7 => own (fun u => { u with destLo := v })
  | 8 => own (fun u => { u with destHi := v })
  | 9 => .done 0 (sduOwner v d)
  | 11 => .done 0 (ctxWrite v d)
  | _ => .done 0 d

/-! The rows of the unit: one port access by the task that runs. -/

/-- Linen executes instructions. -/
def linenRuns (d : Dev) : Bool := d.powered && !d.linen.halted && !d.linen.waiting

/-- A port access of Linen's whose word goes to a register; a stalled one changes nothing. -/
def sduRow (act : Dev → SduAct) (rd : Option Nat) : State → Out :=
  onDev (fun d =>
    if !linenRuns d then d
    else
      match act d, rd with
      | .done v d, some r => svSet r v d
      | .done _ d, none => d
      | .stall, _ => d)

/-- SDU_START. -/
def execSduStart (v : BitVec 16) : State → Out := sduRow (fun d => sduWrite 0 (v ||| 1) d) none

/-- DIN. -/
def execDin (v : BitVec 16) : State → Out := sduRow (sduWrite 2 v) none

/-- LAST. -/
def execLast (v : BitVec 16) : State → Out := sduRow (sduWrite 3 v) none

/-- DOUT. -/
def execDout (rd : Fin 16) : State → Out := sduRow (sduRead 10) (some rd)

/-- SDU_OWNER_WRITE. -/
def execSduOwnerWrite (v : BitVec 16) : State → Out := sduRow (sduWrite 9 v) none

/-- CTX_SAVE: one of the 192 reads. -/
def execCtxSave (rd : Fin 16) : State → Out := sduRow (sduRead 11) (some rd)

/-- CTX_RESTORE: one of the 192 writes. -/
def execCtxRestore (v : BitVec 16) : State → Out := sduRow (sduWrite 11 v) none

end Sys2Proof.Machine
end

