-- ==== Sys2Proof/Machine/Linen.lean ====
section
/-!
DEFINITION. The Linen supervisor: its ports, taking and leaving exceptions, the frame of an instruction with its
repeat prefixes, the policy module's hook, the timers and the watchdog (R442, R448 to R454 [16]).
-/
namespace Sys2Proof.Machine

/-! The I/O port map (R442). -/

/-- What a port access comes to: a word and the device, a stall, or an I/O fault. -/
inductive PortAct where
  | done (v : Word16) (d : Dev)
  | stall
  | fault
deriving DecidableEq, Repr

/-- The port exists and the mode may reach it. -/
def portOpen (d : Dev) (p : Nat) : Bool :=
  let both := (decide (0x40 ≤ p) && decide (p ≤ 0x43)) || (decide (0x100 ≤ p) && decide (p ≤ 0x10B))
  let kern := decide (p ≤ 0xB) || (decide (0x10 ≤ p) && decide (p ≤ 0x13)) || (decide (0x200 ≤ p) && decide (p ≤ 0x7FF))
  both || (kern && !d.linen.policyMode)

/-- An access of the digest unit as a port access. -/
def ofSdu : SduAct → PortAct
  | .done v d => .done v d
  | .stall => .stall

/-- A read of a port. WDOG and the firmware's own ports, whose contents the manual does not give, read as free values
(log 27). -/
def portRead (p : Nat) (d : Dev) : PortAct :=
  let l := d.linen
  let free : PortAct := .done (BitVec.ofNat 16 (drawNat d).1) (drawNat d).2
  if !portOpen d p then .fault
  else if 0x100 ≤ p && p ≤ 0x10F then ofSdu (sduRead (p - 0x100) d)
  else
    match p with
    | 0x000 => .done l.vbr d
    | 0x001 => .done (l.iprio.setWidth 16) d
    | 0x002 => .done ((l.iprio >>> 16).setWidth 16) d
    | 0x003 => .done ((l.iprio >>> 32).setWidth 16) d
    | 0x004 => .done ((l.iprio >>> 48).setWidth 16) d
    | 0x005 => .done (l.ipend.setWidth 16) d
    | 0x006 => .done ((l.ipend >>> 16).setWidth 16) d
    | 0x007 => .done ((l.ipend >>> 32).setWidth 16) d
    | 0x008 => .done ((l.ipend >>> 48).setWidth 16) d
    | 0x00A => .done l.taskId d
    | 0x00B => .done l.bank d
    | 0x010 => .done l.timer0 d
    | 0x011 => .done l.reload0 d
    | 0x012 => .done l.timer1 d
    | 0x013 => .done l.reload1 d
    | 0x040 => .done (BitVec.ofNat 16 d.devTime) (modLinen (fun l => { l with timeLatch := BitVec.ofNat 64 d.devTime }) d)
    | 0x041 => .done ((l.timeLatch >>> 16).setWidth 16) d
    | 0x042 => .done ((l.timeLatch >>> 32).setWidth 16) d
    | 0x043 => .done ((l.timeLatch >>> 48).setWidth 16) d
    | _ => free

/-- A write to WDOG: the 16 ms begin again. -/
def wdogKick (d : Dev) : Dev := modLinen (fun l => { l with wdogAt := d.clk, wdogHalf := false }) d

/-- Word `k` of the 64 priority bits replaced. -/
def putPrio (k : Nat) (v : Word16) (b : BitVec 64) : BitVec 64 :=
  (b &&& ~~~(0xFFFF#64 <<< (16 * k))) ||| (v.setWidth 64 <<< (16 * k))

/-- A write of a port. Read-only ports ignore it; what the firmware's own ports do the manual does not give. -/
def portWrite (p : Nat) (v : Word16) (d : Dev) : PortAct :=
  let put (f : Linen → Linen) : PortAct := .done 0 (modLinen f d)
  if !portOpen d p then .fault
  else if 0x100 ≤ p && p ≤ 0x10F then ofSdu (sduWrite (p - 0x100) v d)
  else
    match p with
    | 0x000 => put (fun l => { l with vbr := v &&& 0xFF80 })
    | 0x001 => put (fun l => { l with iprio := putPrio 0 v l.iprio })
    | 0x002 => put (fun l => { l with iprio := putPrio 1 v l.iprio })
    | 0x003 => put (fun l => { l with iprio := putPrio 2 v l.iprio })
    | 0x004 => put (fun l => { l with iprio := putPrio 3 v l.iprio })
    | 0x009 => .done 0 (wdogKick d)
    | 0x00A => put (fun l => { l with taskId := v &&& 7 })
    | 0x00B => put (fun l => { l with bank := v })
    | 0x010 => put (fun l => { l with timer0 := v })
    | 0x011 => put (fun l => { l with reload0 := v })
    | 0x012 => put (fun l => { l with timer1 := v })
    | 0x013 => put (fun l => { l with reload1 := v })
    | _ => .done 0 d

/-! Taking an exception (R450). -/

/-- Linen halts with a FATAL fault (R450). -/
def linenHalt (d : Dev) : Dev := raiseFault 413 0 0 none (modLinen (fun l => { l with halted := true }) d)

/-- A word pushed through KSP; false where it does not lie in local RAM. -/
def pushKsp (v : Word16) (x : Bool × Dev × Memory) : Bool × Dev × Memory :=
  let (ok, d, m) := x
  let a := d.linen.ksp - 1
  if !ok || 0x8000 ≤ a.toNat then (false, d, m)
  else (true, modLinen (fun l => { l with ksp := a }) d, { m with dram := memPut m.dram a.toNat v })

/-- What entry leaves of the interrupt enables: 0 sync, 1 low, 2 high or NMI. -/
def entrySr (kind : Nat) (sr : Word16) : Word16 :=
  let sr := sr &&& 0x7FFF
  if kind = 0 then sr else if kind = 1 then sr &&& 0xEFFF else sr &&& 0xCFFF

/-- Taking an exception, an interrupt or the NMI: REPC and SR.RA hold what is left of an interrupted REPI (R448), REPC,
SR and PC are pushed through KSP, MODE becomes 0, the enables are cleared by kind, and PC is the table's entry. A push outside local RAM halts Linen. -/
def takeException (v kind prio : Nat) (pc sr repc : Word16) (d : Dev) (m : Memory) : Dev × Memory :=
  let (ok, d, m) := pushKsp pc (pushKsp sr (pushKsp repc (true, d, m)))
  if !ok then (linenHalt d, m)
  else
    (modLinen (fun l => { l with
      sr := entrySr kind sr, pc := instrRead m ((l.vbr &&& 0xFF80) + BitVec.ofNat 16 v).toNat, repc := repc, rep := none,
      resume := false, waiting := false, nest := prio :: l.nest }) d, m)

/-- What an entry saves: PC, SR and REPC. Inside a REPI they are the prefix, RA set, and the iterations still to run
(R448); inside a REPN, the prefix. -/
def savedAt (l : Linen) (pc : Word16) : Word16 × Word16 × Word16 :=
  match l.rep with
  | some (p, isN, left) =>
    if isN then (BitVec.ofNat 16 p, l.sr, l.repc) else (BitVec.ofNat 16 p, l.sr ||| 0x0100, BitVec.ofNat 16 left)
  | none => (pc, l.sr, l.repc)

/-- The hook that ran has its verdict, and the next hooked command's hook starts with the kernel stack as it was before
the entry. -/
def hookEnd (allow : Bool) (ksp : Word16) (d : Dev) (m : Memory) : Dev × Memory :=
  let d := hookVerdict allow d
  if d.cmds.any (fun (c : Cmd) => c.stage == .hooked) then hookNext (modLinen (fun l => { l with ksp := ksp }) d) m
  else (d, m)

/-- A hook refused for what the module did: the count rises (R454). -/
def hookFault (ksp : Word16) (d : Dev) (m : Memory) : Dev × Memory :=
  hookEnd false ksp (modLinen (fun l => { l with hookFaults := l.hookFaults + 1 }) d) m

/-- A synchronous exception taken at the instruction that raises it, or, of SYS, after it. While a hook runs in policy
mode, SYS #0 gives its verdict, and any other refuses its command (R453, R454). -/
def syncEntry (v : Nat) (pc : Word16) (d : Dev) (m : Memory) : Dev × Memory :=
  let l := d.linen
  let (pc, sr, repc) := savedAt l pc
  let hooked := l.policyMode && l.hook.isSome
  let dm := takeException v 0 3 pc sr repc d m
  if !hooked then dm
  else if v = 48 then hookEnd (tget 0 l.v 0 == 0) l.ksp dm.1 dm.2
  else hookFault l.ksp dm.1 dm.2

/-- Vector `v` is of high priority (IPRIO). -/
def highVec (l : Linen) (v : Nat) : Bool := l.iprio.getLsbD v

/-- A pending interrupt that may be taken (R449, R450): its enable is 1, and no handler of its priority runs. -/
def takeable (l : Linen) (v : Nat) : Bool :=
  decide (16 ≤ v) && decide (v ≤ 26) && l.ipend.getLsbD v
    && (if highVec l v then l.sr.getLsbD 13 && !l.nest.contains 1 else l.sr.getLsbD 12 && !l.nest.contains 0)

/-- What is taken next: the NMI (64), then the high priority, then the low, the lowest number first. -/
def nextVec (l : Linen) : Option Nat :=
  if l.nmiPend && !l.nest.contains 2 then some 64
  else
    ((List.range 64).find? (fun v => takeable l v && highVec l v)).or
      ((List.range 64).find? (fun v => takeable l v))

/-- An interrupt or the NMI taken between instructions, or between iterations of a REPI; a REPN is not interrupted. -/
def interruptEntry (v : Nat) (d : Dev) (m : Memory) : Dev × Memory :=
  let l := d.linen
  let inRepn : Bool := match l.rep with
    | some (_, isN, _) => isN
    | none => false
  if nextVec l != some v || inRepn then (d, m)
  else
    let (pc, sr, repc) := savedAt l l.pc
    let d := modLinen (fun l => if v = 64 then { l with nmiPend := false }
      else { l with ipend := l.ipend &&& ~~~(1#64 <<< v) }) d
    let high := v = 64 || highVec l v
    takeException v (if high then 2 else 1) (if v = 64 then 2 else if high then 1 else 0) pc sr repc d m

/-- EXCEPTION_ENTRY (R449, R450): the synchronous vectors are those of an instruction word that no row spells, and of a
fetch outside the policy region; 5 to 15 and 27 to 47 are never raised. -/
def execExceptionEntry (v : Fin 65) : State → Out :=
  onBoth (fun d m =>
    let l := d.linen
    if !d.powered || l.halted then (d, m)
    else if (16 ≤ v.val && v.val ≤ 26) || v.val = 64 then interruptEntry v d m
    else if l.waiting || (5 ≤ v.val && v.val < 48) then (d, m)
    else if v.val = 4 && !(l.policyMode && decide (l.pc.toNat < 0xE000)) then (d, m)
    else syncEntry v (if 48 ≤ v.val then l.pc + 1 else l.pc) d m)

/-! The frame of an instruction. -/

/-- How an instruction may be repeated (R448): freely; not under REPN (I/O); not at all. -/
inductive Repeat where
  | any | io | never
deriving DecidableEq, Repr

/-- What an instruction comes to: done, with its jump; a synchronous exception, of which nothing else remains; a
stall, which leaves everything; a system call. -/
inductive SvEnd where
  | done (d : Dev) (m : Memory) (jump : Option Word16)
  | trap (v : Nat)
  | stall
  | sys (v : Nat)
deriving DecidableEq, Repr

/-- After an instruction of `words` words: the next one, or the same one while a prefix has iterations left. -/
def advance (words : Nat) (jump : Option Word16) (l : Linen) : Linen :=
  let next := l.pc + BitVec.ofNat 16 words
  match jump, l.rep with
  | some a, _ => { l with pc := a }
  | none, some (p, isN, left) =>
    if left ≤ 1 then { l with pc := next, rep := none } else { l with rep := some (p, isN, left - 1) }
  | none, none => { l with pc := next }

/-- One instruction of Linen at its PC (R444, R448, R449): a fetch outside the policy region, a prefix before an
instruction that may not follow one, a count of 0, the privilege, then the instruction itself. -/
def svStep (words : Nat) (kernel : Bool) (rk : Repeat) (f : Dev → Memory → SvEnd) : State → Out :=
  onBoth (fun d m =>
    let l := d.linen
    let barred : Bool := match l.rep with
      | some (_, isN, _) => rk == .never || (isN && rk == .io)
      | none => false
    let skip : Bool := match l.rep with
      | some (_, _, left) => left == 0
      | none => false
    if !linenRuns d then (d, m)
    else if l.policyMode && l.pc.toNat < 0xE000 then syncEntry 4 l.pc d m
    else if barred then
      let at_ := match l.rep with
        | some (p, _, _) => BitVec.ofNat 16 p
        | none => l.pc
      syncEntry 0 at_ (modLinen (fun l => { l with rep := none }) d) m
    else if skip then (modLinen (fun l => advance words none l) d, m)
    else if kernel && l.policyMode then syncEntry 1 l.pc d m
    else
      match f d m with
      | .done d m j => (modLinen (advance words j) d, m)
      | .trap v => syncEntry v l.pc d m
      | .stall => (d, m)
      | .sys v => syncEntry v (l.pc + BitVec.ofNat 16 words) d m)

/-! Policy modules (R452). -/

/-- Bytes of a policy image before its signatures. -/
def polSigAt (b : Bytes) : Nat := 64 + 2 * field b 4 4

/-- The header of a policy image is well formed. -/
def polHeaderOk (b : Bytes) : Bool :=
  field b 0 2 == 0xA7CA && field b 2 1 == 1 && decide (field b 3 1 < 16) && decide (field b 4 4 ≤ 8192)
    && b.length == polSigAt b + 4728 && allZero (seg b 0x0A 54)

/-- The check of R452 that a policy image fails. -/
def polRefused (d : Dev) (b key : Bytes) : Option Status :=
  let want := seg d.otp.prov 0x68 32
  let at_ := polSigAt b
  let msg := ascii "ORNATH-POLICY-1" ++ b.take at_
  let signed := dsaOk 2 (key.take 2592) msg (seg b at_ 4627) && ecOk (key.drop 2592) msg (seg b (at_ + 4632) 96)
  let n := field b 4 4
  let e := field b 8 2
  if allZero want then some .policyRefused
  else if !polHeaderOk b || sha3_256 key != want || !signed then some .inputInvalid
  else if n != 0 && (e < 0xE000 || 0xE000 + n ≤ e) then some .fieldRejected
  else none

/-- The module of an image. -/
def polModule (b : Bytes) : PolicyMod :=
  { entry := field b 8 2, hookMask := BitVec.ofNat 8 (field b 3 1), digest := sha3_256 (b.take (polSigAt b)) }

/-- POLICY_LOAD (R452): it waits while a hook runs or is due (R459). -/
def execPolicyLoad (id : Nat) : State → Out :=
  onBoth (fun d m =>
    match findCmd d id with
    | none => (d, m)
    | some c =>
      let b := inp m d c 0
      let good := c.op == .policyLoad && canRun m d c && c.dmaErr.isNone && !inputTagFail d c
      if d.cmds.any (fun (e : Cmd) => e.stage == .hooked) then (d, m)
      else if !good || (polRefused d b (inp m d c 1)).isSome then
        (runCmd .policyLoad id (fun m c d => failWith ((polRefused d (inp m d c 0) (inp m d c 1)).getD .ok) id d) m d, m)
      else
        let p := if field b 4 4 = 0 then none else some (polModule b)
        (runCmd .policyLoad id (fun _ _ d => failWith .ok id
            (modLinen (fun l => { l with policy := p, hookFaults := 0 }) d)) m d,
          { m with dram := memClear m.dram 0x6000 0x2000,
                   iram := putWords m.iram 0xE000 (seg b 64 (2 * field b 4 4)) }))

/-- HOOK_TIMEOUT (R454, R459): the module is abandoned; where the kernel goes on is the firmware's, a free value. -/
def execHookTimeout (id : Nat) : State → Out :=
  onBoth (fun d m =>
    match d.linen.hook with
    | none => (d, m)
    | some (i, t) =>
      if i != id || !decide (t + 20000 ≤ d.clk) || !d.powered then (d, m)
      else
        let (n, d) := drawNat d
        let d := modLinen (fun l => { l with sr := l.sr &&& 0x7FFF, taskId := 0, pc := BitVec.ofNat 16 n, rep := none, resume := false }) d
        hookFault d.linen.ksp d m)

/-! Timers and the watchdog (R442, R449, R410). -/

/-- TIMER_EXPIRY: a count that has come to 1 is reloaded, and vector 20 or 21 is pending. -/
def execTimerExpiry (t : Fin 2) : State → Out :=
  onDev (fun d =>
    let l := d.linen
    if !d.powered then d
    else if t.val = 0 then
      (if l.timer0 = 1 then linenPend 20 (modLinen (fun l => { l with timer0 := l.reload0 }) d) else d)
    else if l.timer1 = 1 then linenPend 21 (modLinen (fun l => { l with timer1 := l.reload1 }) d)
    else d)

/-- WDOG_WRITE: any write. -/
def execWdogWrite (_v : BitVec 16) : State → Out :=
  onDev (fun d => if linenRuns d && !d.linen.policyMode then wdogKick d else d)

/-- WATCHDOG_HALF: vector 22, 8 ms after the last write. -/
def execWatchdogHalf : State → Out :=
  onDev (fun d =>
    if d.powered && d.link.started && !d.linen.wdogHalf && decide (d.linen.wdogAt + 8000000 ≤ d.clk) then
      linenPend 22 (modLinen (fun l => { l with wdogHalf := true }) d)
    else d)

/-- WATCHDOG_EXPIRY: source 413, FATAL, 16 ms after the last write. -/
def execWatchdogExpiry : State → Out :=
  onDev (fun d =>
    if d.powered && d.link.started && !d.link.halt && decide (d.linen.wdogAt + 16000000 ≤ d.clk) then
      raiseFault 413 0 0 none d
    else d)

end Sys2Proof.Machine
end

