-- ==== Sys2Proof/Machine/Sched.lean ====
section
/-!
DEFINITION. The scheduler: rounds and deficits, the choice of a command, credits and units, the end of a job
(R16 to R19, R30 to R36 [01]; R127, R132, R137 [04]; R220, R225, R236 [07]; R260, R261 [09]; R288, R300 [10]; R305
[11]; R403, R416, R417 [14]; R421 [15]).
-/
namespace Sys2Proof.Machine

/-! Shares, pools and rounds. -/

/-- The number a command's deficits and turns count under: its slice, or 256 for the ring account (R362 [12]). -/
def Cmd.account (c : Cmd) : Nat := if c.foreign.isSome then 256 else c.slice

/-- Share of an account in a class. -/
def shareOf (d : Dev) (a k : Nat) : Nat := if a = 256 then d.board.shareIn.getD k 0 else (d.slice a).cfg.share k

/-- Unit class of an engine class. -/
def ucOf (k : EngClass) : UnitClass := Sys2Proof.Machine.EngClass.toUnit k

/-- CLASS_CREDITS.POOL (R72 [02], R19): units in service, and those still draining. -/
def poolOf (d : Dev) (k : EngClass) : Nat :=
  ((List.range (unitCount (ucOf k))).filter (fun u =>
    let e := d.unit (ucOf k) u
    (e.st == .inService && decide (e.joinAt ≤ d.sched.rounds)) || e.st == .draining)).length * unitCredits (ucOf k)

/-- Commands of an account that wait at the scheduling stage in a class. -/
def readyIn (d : Dev) (a : Nat) (k : EngClass) : List Cmd :=
  d.cmds.filter (fun (c : Cmd) => c.stage == .ready && c.account == a && c.classes.contains k)

/-- Accounts with ready work in a class. -/
def readyAccounts (d : Dev) (k : EngClass) : List Nat :=
  ((d.cmds.filter (fun (c : Cmd) => c.stage == .ready && c.classes.contains k)).map (·.account)).eraseDups

/-- Engine time of a class in a round that starts now, and the shares of the accounts with ready work (R30). -/
def roundOf (d : Dev) (k : EngClass) : Nat × Nat :=
  (poolOf d k * 1000, ((readyAccounts d k).map (fun b => shareOf d b (classNo k))).sum)

/-- What the round that starts now shares out is fixed. -/
def fixRound (d : Dev) : Dev :=
  { d with sched := { d.sched with
    round := allClasses.foldl (fun (t : TMap (Nat × Nat)) k => tset t (classNo k) (roundOf d k)) [] } }

/-- An account's worth of the present round in a class, as fixed at the round's start (R30). -/
def worth (d : Dev) (a : Nat) (k : EngClass) : Nat :=
  let r := tget (0, 0) d.sched.round (classNo k)
  r.1 * shareOf d a (classNo k) / r.2

/-- Deficit of an account in a class. -/
def deficitOf (d : Dev) (a : Nat) (k : EngClass) : Int := tget 0 (d.slice a).deficit (classNo k)

/-- The new deficit of an account in a class at a round: what is carried, up to 4 rounds' worth, and the round's
worth; 0 without ready work. -/
def refilled (d : Dev) (a : Nat) (k : EngClass) : Int :=
  if (readyIn d a k).isEmpty then 0
  else min (deficitOf d a k) (4 * (worth d a k : Int)) + (worth d a k : Int)

/-- The deficits of an account refilled, and what the registers of R72 [02] show of them. -/
def refill (d0 : Dev) (a : Nat) (d : Dev) : Dev :=
  let t := allClasses.foldl (fun (t : TMap Int) k => tset t (classNo k) (refilled d0 a k)) []
  let r := (allClasses.map (fun k => if (readyIn d0 a k).isEmpty then 0 else 2 ^ classNo k)).sum
  d.modSlice a (fun x => { x with deficit := t, deficitRd := t, readyRd := BitVec.ofNat 5 r })

/-- A class that has ready work is remembered as having had it, and its domains that are off are switched on
again (R488 [18]). -/
def noteReady (k : EngClass) (d : Dev) : Dev :=
  if (readyAccounts d k).isEmpty then d
  else
    let doms := (d.link.domainsOff.filter (fun x => (List.range (unitCount (ucOf k))).any (fun u =>
      unitDomain (ucOf k) u == x && (d.unit (ucOf k) u).st == .inService))).filter
        (fun x => d.link.waking.all (fun (w : Nat × Nat) => w.1 != x))
    { d with sched := { d.sched with lastReady := tset d.sched.lastReady (classNo k) d.clk },
             link := { d.link with waking := d.link.waking ++ doms.map (fun x => (x, d.clk + 20000)) } }

/-- SCHEDULING_ROUND (R30, R72). -/
def execSchedulingRound : State → Out :=
  onDev (fun d =>
    if !d.alive || !d.link.started || d.clk < d.sched.lastRound + 1000 then d
    else
      let d := { d with sched := { d.sched with
        rounds := (d.sched.rounds + 1) % 2 ^ 64, lastRound := d.sched.lastRound + 1000 } }
      let d := fixRound d
      let accts := (liveSlices d ++ readyAccounts d .lattice ++ readyAccounts d .hash ++ readyAccounts d .code
        ++ readyAccounts d .classical ++ readyAccounts d .cipher
        ++ (if (d.slice 256).deficit.isEmpty then [] else [256])).eraseDups
      allClasses.foldl (fun d k => noteReady k d) (forEach accts (refill d) d))

/-! Credits and units. -/

/-- The power domain of a unit is on (R488 [18]). -/
def unitOn (d : Dev) (k : UnitClass) (u : Nat) : Bool := !d.link.domainsOff.contains (unitDomain k u)

/-- Free credits of a unit: in service, joined, powered. -/
def unitFree (d : Dev) (k : UnitClass) (u : Nat) : Nat :=
  let e := d.unit k u
  if e.st == .inService && decide (e.joinAt ≤ d.sched.rounds) && unitOn d k u then unitCredits k - unitUsed d k u
  else 0

/-- CLASS_CREDITS.FREE (R72 [02]). -/
def freeOf (d : Dev) (k : EngClass) : Nat :=
  poolOf d k - ((List.range (unitCount (ucOf k))).map (fun u =>
    if (d.unit (ucOf k) u).st == .inService || (d.unit (ucOf k) u).st == .draining then unitUsed d (ucOf k) u
    else 0)).sum

/-- Units of a group of a class: lanes of a Muslin or Satin group. -/
def groupUnits (k : UnitClass) (g : Nat) : List Nat :=
  let n := if k = .hash then 32 else 12
  (List.range n).map (fun i => n * g + i)

/-- The lanes of a group with a free credit. -/
def freeLanes (d : Dev) (k : UnitClass) (g : Nat) : List Nat := (groupUnits k g).filter (fun u => unitFree d k u != 0)

/-- The first of a list with the greatest value. -/
def bestOf (f : Nat → Nat) : List Nat → Option Nat
  | [] => none
  | x :: xs =>
    match bestOf f xs with
    | some y => if f x < f y then some y else some x
    | none => some x

/-- The first of a list with the least value. -/
def leastOf (f : Nat → Nat) : List Nat → Option Nat
  | [] => none
  | x :: xs =>
    match leastOf f xs with
    | some y => if f y < f x then some y else some x
    | none => some x

/-- Name of a core or group that gathers. -/
def gatherKey (k : UnitClass) (g : Nat) : Nat := 256 * uclassNo k + g

/-- A core or group gathers for a command other than `id`. -/
def gathering (d : Dev) (k : UnitClass) (g id : Nat) : Bool :=
  d.sched.gather.any (fun (e : Nat × Nat) => e.1 == gatherKey k g && e.2 != id)

/-- Where a command has its credits of a class gathered. -/
def gatherOf (d : Dev) (k : UnitClass) (id : Nat) : Option Nat :=
  (d.sched.gather.find? (fun (e : Nat × Nat) => e.2 == id && e.1 / 256 == uclassNo k)).map (·.1 % 256)

/-- A core or group begins to gather for a command. -/
def startGather (k : UnitClass) (g id : Nat) (d : Dev) : Dev :=
  { d with sched := { d.sched with gather := d.sched.gather ++ [(gatherKey k g, id)] } }

/-- Gathering for a command ends. -/
def stopGather (id : Nat) (d : Dev) : Dev :=
  { d with sched := { d.sched with gather := d.sched.gather.filter (fun (e : Nat × Nat) => e.2 != id) } }

/-- Gathering ends for commands that no longer wait at the scheduling stage. -/
def dropGathers (d : Dev) : Dev :=
  { d with sched := { d.sched with gather := d.sched.gather.filter (fun (e : Nat × Nat) =>
      d.cmds.any (fun (c : Cmd) => c.id == e.2 && c.stage == .ready)) } }

/-- The command builds the trees of a stateful key: a KEYGEN, a RESERVE, an import (R236). -/
def isBuild (c : Cmd) : Bool :=
  match c.op with
  | .lmsKeygen | .xmssKeygen | .lmsReserve | .xmssReserve => true
  | .keyImportBlob | .keyUnwrap => isTree (reqOf (c.early 0)).typ
  | _ => false

/-- Builds of 32 lanes running, and gathering for a command other than `id`. -/
def builds (d : Dev) (id : Nat) : Nat :=
  (d.cmds.filter (fun (c : Cmd) => isBuild c && c.id != id
    && ((c.stage == .running && decide (32 ≤ (c.units.filter (·.cls == .hash)).length))
      || d.sched.gather.any (fun (e : Nat × Nat) => e.2 == c.id)))).length

/-- The units a part of a command's work takes, with the time they are held to; or none yet, and the gathering
that this begins. -/
def allocPart (d : Dev) (c : Cmd) (p : Part) : Option (List UnitHold) × Dev :=
  let k := ucOf p.cls
  let one (n u : Nat) : UnitHold := { cls := k, unit := u, n := n, till := d.clk + p.hold }
  match p.cls with
  | .lattice | .code => (((List.range (unitCount k)).find? (fun u => unitFree d k u != 0)).map (fun u => [one 1 u]), d)
  | .hash | .cipher =>
    let gs := (List.range 4).filter (fun g => !gathering d k g c.id)
    let free (g : Nat) : Nat := (freeLanes d k g).length
    if p.credits = 32 && isBuild c && 3 ≤ builds d c.id then (none, d)
    else
      match (gatherOf d k c.id).or (bestOf free gs) with
      | none => (none, d)
      | some g =>
        if p.credits ≤ free g then (some (((freeLanes d k g).take p.credits).map (one 1)), d)
        else if 1 < p.credits && (gatherOf d k c.id).isNone then (none, startGather k g c.id d)
        else (none, d)
  | .classical =>
    let us := (List.range 16).filter (fun u => !gathering d k u c.id)
    match gatherOf d k c.id with
    | some u => (if p.credits ≤ unitFree d k u then some [one p.credits u] else none, d)
    | none =>
      match leastOf (unitFree d k) (us.filter (fun u => decide (p.credits ≤ unitFree d k u))) with
      | some u => (some [one p.credits u], d)
      | none =>
        let quadBusy (u : Nat) : Bool := (List.range 4).any (fun i => gathering d k (u / 4 * 4 + i) c.id)
        let cand := us.filter (fun u => (d.unit k u).st == .inService && !quadBusy u)
        match if 2 ≤ p.credits then bestOf (unitFree d k) cand else none with
        | some u => (none, startGather k u c.id d)
        | none => (none, d)

/-- When the payment unit of a group frees. -/
def payFreeAt (d : Dev) (g : Nat) : Nat :=
  ((d.cmds.flatMap (·.units)).filter (fun (h : UnitHold) => h.cls == .payment && h.unit == g)).foldl
    (fun t h => max t h.till) d.clk

/-- Lane and payment unit of a payment command (R305). -/
def allocPay (d : Dev) (c : Cmd) (p : Part) : Option (List UnitHold) :=
  let gs := (List.range 4).filter (fun g => !(freeLanes d .cipher g).isEmpty
    && (d.unit .payment g).st == .inService && decide ((d.unit .payment g).joinAt ≤ d.sched.rounds)
    && unitOn d .payment g)
  match leastOf (payFreeAt d) gs with
  | none => none
  | some g =>
    (freeLanes d .cipher g).head?.map (fun u =>
      [{ cls := .cipher, unit := u, n := 1, till := d.clk + p.hold },
       { cls := .payment, unit := g, n := 1, till := payFreeAt d g + payInterval c }])

/-- The units of all parts at once (R18). -/
def allocAll (c : Cmd) : List Part → Dev → Option (List UnitHold) × Dev
  | [], d => (some [], d)
  | p :: ps, d =>
    match if c.pkt.opcode / 256 = 8 then (allocPay d c p, d) else allocPart d c p with
    | (none, d) => (none, (allocAll c ps d).2)
    | (some l, d) =>
      match allocAll c ps d with
      | (some l', d) => (some (l ++ l'), d)
      | (none, d) => (none, d)

/-! Pre-emption (R36, R220, R300). -/

/-- Message bytes of a job that can be pre-empted; 0 of any other. -/
def splitLen (d : Dev) (c : Cmd) : Nat :=
  if c.pkt.segf = 0 && (c.pkt.opcode / 256 = 7 && c.op != .random
      || c.pkt.opcode / 256 = 4 && c.pkt.opcode % 256 < 0x10) then
    segBytes (formOf d c.pkt c.op) c.pkt
  else 0

/-- Service time of a command. -/
def serviceTime (d : Dev) (c : Cmd) : Nat := ((partsOf d c).map (·.hold)).foldl max 0

/-- Time into a job at which `b` bytes of its message are done. -/
def offsetAt (d : Dev) (c : Cmd) (b : Nat) : Nat := serviceTime d c * b / splitLen d c

/-- The last 64 KiB boundary that a running job has met, if it meets one now. -/
def boundaryNow (d : Dev) (c : Cmd) : Option Nat :=
  let n := splitLen d c
  ((List.range ((n - 1) / 65536)).map (fun i => 65536 * (i + 1))).find? (fun b =>
    decide ((c.saved.map (·.done)).getD 0 < b) && d.clk == c.startAt + offsetAt d c b)

/-- What the slot keeps of a job at message byte `b` (R220 [07], R300 [10]): chaining value, counter, accumulator, which the
mode makes of the key and what has been processed (log 11). -/
def slotAt (m : Memory) (d : Dev) (c : Cmd) (b : Nat) : CtxSlot :=
  let f := formOf d c.pkt c.op
  let heads := [f.get m d c .iv, f.get m d c .aad, f.get m d c .params]
  let of_ (i : Nat) : Bytes :=
    std .laneState 64 [i, c.pkt.opcode, c.prm] (c.mat 0 :: heads ++ [(f.get m d c .src ++ f.get m d c .msg).take b])
  { done := b, chaining := of_ 0, counter := of_ 1, acc := of_ 2 }

/-- Reserved context slots in use (R220). -/
def savedSlots (d : Dev) : Nat := (d.cmds.filter (fun (c : Cmd) => c.stage == .ready && c.saved.isSome)).length

/-- A lane's group has a dispatch waiting for a credit, or gathers. -/
def laneWanted (d : Dev) (c : Cmd) : Bool :=
  c.units.any (fun (h : UnitHold) =>
    let k := h.cls
    let g := h.unit / (if k = .hash then 32 else 12)
    let e : EngClass := if k = .hash then .hash else .cipher
    (k == .hash || k == .cipher) && (gathering d k g c.id
      || ((freeLanes d k g).isEmpty && !(readyAccounts d e).isEmpty)))

/-- PREEMPTION_SAVE: the job's context goes to a reserved slot and its lane is freed; the command is first among
the ready ones of its slice. -/
def preempt (m : Memory) (c : Cmd) (d : Dev) : Dev :=
  match boundaryNow d c with
  | some b =>
    if savedSlots d < ctxSlots d 62 2 && laneWanted d c then
      setCmd { c with stage := .ready, readyAt := d.clk, saved := some (slotAt m d c b), units := [], front := true }
        (wipeJob c.id d)
    else d
  | none => d

/-! Dispatch. -/

/-- The previous segment of the command's stream has not completed (R132 item 3). -/
def segmentAhead (d : Dev) (c : Cmd) : Bool :=
  c.pkt.segf != 0 && d.cmds.any (fun (e : Cmd) => e.slice == c.slice && decide (e.id < c.id) && e.inFlight
    && e.pkt.segf != 0 && e.pkt.sid == c.pkt.sid && e.qk == c.qk)

/-- Nothing but credits keeps a ready command from being dispatched: no fence, no stalled ring, no share of 0; a
Tweed command's inputs have been copied (R251 [08]), and a KAR has been read; a saved job of a PAUSED slice waits for its
resume (R239 [07]). -/
def mayDispatch (m : Memory) (d : Dev) (c : Cmd) : Bool :=
  c.stage == .ready && !c.classes.isEmpty && !fenced d c && !segmentAhead d c && !ringStalled d c && !mgmtBlocked d c
    && c.classes.all (fun k => shareOf d c.account (classNo k) != 0)
    && (c.pkt.opcode / 256 != 5 || inputsReady m d c)
    && (c.dmaErr.isSome || (startInputs d c).all (fun i => (inputOf m d c i).isSome))
    && (c.saved.isNone || c.foreign.isSome || (d.slice c.slice).st != .paused)

/-- The number that stands for a command's chance events: attempts, candidates, dummy rounds (log 3). -/
def drawsFor (o : Op) (l : List Part) : Bool :=
  o == .mldsaSign || o == .fndsaKeygen || o == .fndsaSign || o == .compositeSign || o == .mceKeygen
    || o == .rsaKeygen || o == .lmsSign || o == .xmssSign || l.any (fun p => p.cls == .cipher)

/-- The charge of a dispatch (R30, R31): each class's deficit is reduced, once. -/
def chargeCmd (c : Cmd) (l : List Part) (d : Dev) : Cmd × Dev :=
  if !c.charge.isEmpty then (c, d)
  else
    let ch := l.map (fun p => (classNo p.cls, p.charge))
    ({ c with charge := ch }, d.modSlice c.account (fun x => { x with
      deficit := ch.foldl (fun (t : TMap Int) (e : Nat × Nat) => tset t e.1 (tget 0 t e.1 - (e.2 : Int))) x.deficit }))

/-- The keys a segment runs on: those its stream's first segment resolved (R132). -/
def segmentKeys (d : Dev) (c : Cmd) : Cmd :=
  if 2 ≤ c.pkt.segf then
    match streamOf d c with
    | some t => { c with keys := t.keys }
    | none => c
  else c

/-- Time at which a job starts as its work counts: a resumed one has its saved part behind it, and 200 ns to load
(R220 [07], R300 [10]). -/
def startOf (d : Dev) (c : Cmd) : Nat :=
  match c.saved with
  | some x => d.clk + 200 - offsetAt d c x.done
  | none => d.clk

/-- The command on units it has been given: what its slice is charged, what its dispatch fixes (R182 [06], R243 [08], R421
[15]), and the memories of its engines at the start. -/
def begin (c : Cmd) (l : List Part) (us : List UnitHold) (ctx : Nat) (d : Dev) : Dev :=
  let (c, d) := chargeCmd c l d
  let (c, d) := reserveEntry { c with banks := (d.micro.vendorBank, d.micro.extBank), order := orderOf d c, chan := chanFor d c,
                                      revs := (d.micro.fndsaRev, d.micro.hqcRev) } d
  let (c, d) := dropMatrix c d
  let start := startOf d c
  let finish := us.foldl (fun t (h : UnitHold) => max t h.till) (start + serviceTime d c)
  let us := if c.saved.isSome then us.map (fun h => { h with till := finish }) else us
  let c := { c with stage := .running, front := false, units := us, startAt := start, overlap := c.overlap && c.saved.isSome,
                    endAt := if c.saved.isSome then start + serviceTime d c else finish }
  openCtx c ctx (setCmd c (loadJob c (needsDrbg d c) d))

/-- A command dispatched, if credits of all its classes and a sequencer's context are free; else what was done
for it. A command that its KAR or its room ends is ended first. -/
def tryDispatch (c0 : Cmd) (d0 : Dev) : Bool × Dev :=
  let c := segmentKeys d0 c0
  if 2 ≤ c.pkt.segf && (streamOf d0 c).isNone then (true, toPool { c with outcome := some (bare .streamStateInvalid) } d0)
  else if c.op = .moduleOp && (moduleFor d0 c.pkt.opcode).isNone then
    (true, toPool { c with outcome := some (bare .opcodeUnknown) } d0)
  else
    match startRefusal d0 c with
    | some st => (true, setCmd { c with stage := .results, outcome := some (bare st) } (stopGather c.id d0))
    | none =>
      let (n, d1) := if c.draws = 0 && drawsFor c.op (partsOf d0 c) then
          let (n, d) := drawNat d0
          (n + 1, d)
        else (c.draws, d0)
      let c := { c with draws := n }
      let l := partsOf d1 c
      match allocAll c l d1 with
      | (none, d) => (false, { d with free := d0.free })
      | (some us, d) =>
        match freeCtx d with
        | none => (false, { d with free := d0.free })
        | some x =>
          let d := stopGather c.id d
          if needsDrbg d c && !entropyOk d then
            (true, setCmd { c with stage := .results, outcome := some (bare .entropyFail) } d)
          else (true, begin c l us x d)

/-- The first command of a list that is dispatched. -/
def dispatchFirst : List Cmd → Dev → Option Cmd × Dev
  | [], d => (none, d)
  | c :: cs, d =>
    match tryDispatch c d with
    | (true, d) => (some c, d)
    | (false, d) => dispatchFirst cs d

/-- A list turned so that it begins after `k`. -/
def after (l : List Nat) (k : Option Nat) : List Nat :=
  match k with
  | some k => l.filter (fun x => decide (k < x)) ++ l.filter (fun x => decide (x ≤ k))
  | none => l

/-- Ascending insertion. -/
def insertNat (x : Nat) : List Nat → List Nat
  | [] => [x]
  | y :: ys => if x ≤ y then x :: y :: ys else y :: insertNat x ys

/-- A list in ascending order. -/
def sorted (l : List Nat) : List Nat := l.foldr insertNat []

/-- The commands of an account and class to be offered: the pre-empted one first, then the first of each queue, the
queues in round-robin order (R33, R220). Submission order within a queue is kept among its ready commands of the
class; a later one of another class may go before it, and a later one of the class passes one that is held or
waits for the policy module (DESIGN CHOICE, logs 26, 38). -/
def candidates (m : Memory) (d : Dev) (k : EngClass) (a : Nat) : List Cmd :=
  let l := readyIn d a k
  let qs := after (sorted (l.map (·.qk)).eraseDups) (tfind d.sched.rrQueue (classNo k * 512 + a))
  (l.filter (fun (c : Cmd) => c.front && c.saved.isSome)
    ++ qs.filterMap (fun q => l.find? (fun (c : Cmd) => c.qk == q))).filter (mayDispatch m d)

/-- Order of service of an account in a class: deficit left; above minus one round's worth; the rest (R30, R31). -/
def tier (d : Dev) (k : EngClass) (a : Nat) : Nat :=
  if 0 < deficitOf d a k then 0 else if -(worth d a k : Int) < deficitOf d a k then 1 else 2

/-- The commands of a class in the order in which they are offered the credits: those run once more after CAUTION
first (R403), then the accounts by tier, each tier in round-robin order. -/
def offers (m : Memory) (d : Dev) (k : EngClass) : List Cmd :=
  let again := d.cmds.filter (fun (c : Cmd) => c.retried && c.front && c.saved.isNone && c.classes.contains k
    && mayDispatch m d c)
  let accts := after (sorted (readyAccounts d k)) (tfind d.sched.rrSlice (classNo k))
  again ++ [0, 1, 2].flatMap (fun t => (accts.filter (fun a => tier d k a == t)).flatMap (candidates m d k))

/-- Engines may start: not in CAUTION, HOLD or a stop (R398, R403, R117). -/
def mayStart (d : Dev) : Bool :=
  d.alive && !d.prot.caution && !d.hold && decide (d.sched.resumeFrom ≤ d.sched.rounds) && d.link.started

/-- COMMAND_DISPATCH (R17, R18, R30 to R33). -/
def execCommandDispatch (k : EngClass) : State → Out :=
  onDevM (fun m d =>
    if !mayStart d then d
    else
      let d := noteReady k (dropGathers d)
      match dispatchFirst (offers m d k) d with
      | (some c, d) =>
        { d with sched := { d.sched with
            rrSlice := tset d.sched.rrSlice (classNo k) c.account,
            rrQueue := tset d.sched.rrQueue (classNo k * 512 + c.account) c.qk } }
      | (none, d) => d)

/-! The end of a job. -/

/-- A job on private or secret keys, or on secret values of a DRBG (R403). -/
def isSecret (d : Dev) (c : Cmd) : Bool :=
  match c.pkt.opcode / 256 with
  | 2 =>
    if c.op = .keyImportBlob then !bit c.prm 7
    else c.keys.isEmpty || c.keys.any (fun k => !k.ent.has fPublicOnly)
  | 4 =>
    if c.pkt.opcode % 256 < 0x10 then !c.keys.isEmpty
    else c.op != .slhdsaVerify && c.op != .lmsVerify && c.op != .xmssVerify
  | 8 => true
  | 7 => true
  | _ => if c.op = .moduleOp then !c.keys.isEmpty else c.op != .katRun && needsDrbg d c

/-- Bytes that a non-final segment brought are taken back from its stream. -/
def untake (c : Cmd) (d : Dev) : Dev :=
  if (c.outcome.map (·.status)) = some .segmentAccepted then
    let n := segBytes (formOf d c.pkt c.op) c.pkt
    d.modSlice c.slice (fun x => { x with streams := x.streams.map (fun (t : Stream) =>
      if t.sid = c.pkt.sid && t.queue = c.qk then { t with data := t.data.take (t.data.length - n) } else t) })
  else d

/-- What a discarded job did is undone and wiped. -/
def discardJob (c : Cmd) (d : Dev) : Dev := wipeJob c.id (untake c (undoReserve c (freePendingOf c d)))

/-- The job is run once more, first in its class, without a second charge; a stateful signature keeps its
randomiser (R403, R239 [07]). -/
def runAgain (c : Cmd) (d : Dev) : Dev :=
  setCmd { c with
    stage := .ready, readyAt := d.clk, retried := true, front := true, overlap := false, units := [], entry := none,
    undo := none, outcome := none, saved := none,
    draws := if c.op = .lmsSign || c.op = .xmssSign then c.draws else 0 } (discardJob c d)

/-- A lane keeps its credit until the release has read its output buffer (R288). -/
def keptLanes (c : Cmd) (o : Outcome) : List UnitHold :=
  if c.pkt.opcode / 256 = 7 && c.relUnits = 0 && !o.outs.isEmpty then
    (c.units.filter (fun (h : UnitHold) => h.cls == .cipher)).map (fun h => { h with till := 2 ^ 64 })
  else []

/-- A job at the end of its service time, with its outcome; a failed check of it raises the CONTAINED fault of its unit
then (R197 [06], R227 [07], R281 [09]). -/
def endCmd (c : Cmd) (o : Outcome) (d : Dev) : Dev :=
  if c.overlap && isSecret d c then
    if c.retried then
      setCmd { c with stage := .results, units := [], entry := none, undo := none,
                      outcome := some (bare .faultDetected) } (discardJob c d)
    else runAgain c d
  else
    let o := if c.retried && o.status = .ok then { o with status := .okRetried } else o
    let d := setCmd { c with stage := .results, units := keptLanes c o, outcome := some o } (wipeJob c.id d)
    match o.fault with
    | some k => faultOfUnit k c d
    | none => d

/-- ENGINE_JOB_END (R17, R34 to R36, R403): the job's service time is over and its execution has given its outcome;
or it meets a 64 KiB boundary. -/
def execEngineJobEnd (id : Nat) : State → Out :=
  onDevM (fun m d =>
    match findCmd d id with
    | none => d
    | some c =>
      if c.stage != .running || !d.alive then d
      else if d.clk < c.endAt then preempt m c d
      else
        match c.outcome with
        | some o => endCmd c o d
        | none => d)

/-! Results. -/

/-- The entry a successful command made becomes ACTIVE, or its shadow is swapped in or left waiting (R143, R159,
R162 [05]). -/
def settleEntry (c : Cmd) (d : Dev) : Dev :=
  match c.entry, c.op, c.keys.head? with
  | some j, .keyReplace, some k =>
    if (d.ent k.idx).shadow != some j then d
    else if bit c.prm 6 then
      modEnt k.idx (fun e => { e with flags := (e.flags &&& ~~~fShadowPending) ||| fShadowWaiting }) d
    else swapShadow k.idx d
  | some i, _, _ => if (d.ent i).st = .pending then modEnt i (fun e => { e with st := .active }) d else d
  | none, _, _ => d

/-- The new entry has been taken by a cascade meanwhile (R165 [05]). A replacement whose index a cascade has taken
completes all the same, its shadow gone with the index (R29 [01]; DEDUCED, log 50). -/
def taken (c : Cmd) (d : Dev) : Option Status :=
  match c.entry, c.op, c.keys.head? with
  | some _, .keyReplace, _ => none
  | some i, _, _ => if (d.ent i).cascaded then some .keyParentRevoked else none
  | none, _, _ => none

/-- A status with which outputs are valid. -/
def validOut (st : Status) : Bool := st == .ok || st == .okRetried || st == .okClamped || st == .segmentAccepted

/-- Bytes written to one output buffer: host memory or the exchange window (R123 [04]). -/
def writeOut (c : Cmd) (e : Nat × Bytes) (r : Dev × Memory) : Dev × Memory :=
  let x := c.pkt.desc e.1
  if e.2.isEmpty then r
  else if x.space = 0 then (hostWrite c.slice x.pslot x.addr e.2 r.1, r.2)
  else (r.1, { r.2 with hbm := memWrite r.2.hbm (xwBase c.slice + x.addr) e.2 })

/-- Every output written, in order. -/
def writeOuts (c : Cmd) (l : List (Nat × Bytes)) (r : Dev × Memory) : Dev × Memory :=
  l.foldl (fun r e => writeOut c e r) r

/-- The first `n` bytes of a list of outputs. -/
def takeOuts : List (Nat × Bytes) → Nat → List (Nat × Bytes)
  | [], _ => []
  | (i, b) :: l, n => (i, b.take n) :: takeOuts l (n - b.length)

/-- Status of a command whose output write failed (R50 [02], R468 [17]). -/
def writeStatus (w : WriteResult) : Status :=
  match w with
  | .busError => .dmaBusError
  | .lateError => .dmaLateError
  | _ => .faultDetected

/-- What else a failed output write does: the PASID fault event of a failed translation, the CONTAINED fault of a
failed tag. -/
def writeFault (c : Cmd) (w : WriteResult) (d : Dev) : Dev :=
  match w with
  | .ok => d
  | .tagFail => raiseFault 268 0 5 none d
  | _ => pasidFault c.slice ((c.pkt.descs.find? (fun x => x.isOut && x.space == 0)).map (·.addr) |>.getD 0) 5 d

/-- RESULTS_WRITTEN (R20; R50 [02], R468 [17]). A command run for a neighbour has its outputs sent back instead. After a
failed write, which bytes were written before it is a free value. -/
def execResultsWritten (id : Nat) (w : WriteResult) : State → Out :=
  onBoth (fun d m =>
    match findCmd d id with
    | none => (d, m)
    | some c =>
      let o := c.outcome.getD (bare .ok)
      if c.stage != .results || !d.alive || (!o.outs.isEmpty && d.dmaHeld) then (d, m)
      else
        match taken c d with
        | some st => (toPool { c with outcome := some (bare st), entry := none } (freePendingOf c d), m)
        | none =>
          if c.foreign.isSome then (toPool c d, m)
          else if w = .ok || o.outs.isEmpty then
            let d := if validOut o.status then settleEntry c d else freePendingOf c d
            let (d, m) := writeOuts c o.outs (d, m)
            let c := (findCmd d id).getD c
            let n := if validOut o.status then (o.outs.map (·.2.length)).sum else 0
            (toPool { c with outLen := n } d, m)
          else
            let (n, d) := drawNat d
            let total := (o.outs.map (·.2.length)).sum
            let (d, m) := writeOuts c (takeOuts o.outs (n % (total + 1))) (d, m)
            let d := writeFault c w (undoReserve c (freePendingOf c d))
            match findCmd d id with
            | some c =>
              (if c.stage = .done then d
               else toPool { c with outcome := some (bare (writeStatus w)), entry := none } d, m)
            | none => (d, m))

/-! Release (R37, R39, R104 to R107, R118). -/

/-- Records of a ring that may be released now: finished, in admission order, at most 64, as many as the ring has
room for. -/
def releasable (d : Dev) (s r : Nat) : List Cmd :=
  let y := d.cq s r
  let l := (d.cmds.filter (fun (c : Cmd) => c.slice == s && c.ring == r && c.foreign.isNone)).takeWhile
    (fun (c : Cmd) => c.stage == .done)
  l.take (min 64 (y.depth - usedFrom y.depth y.rd y.head))

/-- Records are being released to the ring's slice: neither HOLD, nor its destruction, nor a stop keeps them back. In
ERASED the KEYS_ERASED completions are released, in order with what precedes them (R399 [14]). -/
def mayRelease (d : Dev) (s r : Nat) : Bool :=
  d.alive && !d.dmaHeld && (d.prot.st != .hold || s == 0) && (d.slice s).st != .destroying && (d.slice s).st != .free
    && (d.cq s r).st != .disabled

/-- A ring that has no room for its next finished record stalls (R106). -/
def stallRing (s r : Nat) (d : Dev) : Dev :=
  let y := d.cq s r
  let waits := ((d.cmds.filter (fun (c : Cmd) => c.slice == s && c.ring == r && c.foreign.isNone)).head?).any
    (fun (c : Cmd) => c.stage == .done)
  if y.st == .running && waits && usedFrom y.depth y.rd y.head == y.depth then
    raisePf0 s (raiseSlice s 3 (d.modCq s r (fun y => { y with st := .stalled })))
  else d

/-- Records and positions of a batch from a head position. -/
def numbered (n h : Nat) : List Cmd → List (Nat × Bytes)
  | [] => []
  | c :: cs => (h, c.record) :: numbered n ((h + 1) % (2 * n)) cs

/-- The writes of a release (R51 [02], R104): each record to its slot, then the head word. -/
def releaseWrites (y : Cq) (recs : List (Nat × Bytes)) (head : Nat) : List (Nat × Bytes) :=
  recs.map (fun (e : Nat × Bytes) => (y.base + 32 * (e.1 % y.depth), e.2))
    ++ [(y.headAddr, leBytes 4 (wordOfPos y.depth head))]

/-- COMPLETION_RELEASE (R37, R104, R106, R107, R118). `failed` names the write whose translation fails, records first
and the head last: the writes before it are made, and it and those after it are not. -/
def execCompletionRelease (sl : Fin 256) (r : Fin 16) (failed : Option Nat) : State → Out :=
  onDev (fun d =>
    let s := sl.val
    let y := d.cq s r
    let batch := releasable d s r
    if !mayRelease d s r then d
    else if batch.isEmpty then stallRing s r d
    else
      let recs := y.uncovered ++ numbered y.depth y.head batch
      let head := (y.head + batch.length) % (2 * y.depth)
      let since := y.since + batch.length
      let ws := releaseWrites y recs head
      let bad := failed.filter (fun i => decide (i < ws.length))
      let d := { d with cmds := d.cmds.filter (fun (c : Cmd) => !batch.any (fun e => e.id == c.id)) }
      let d := d.modCq s r (fun y => { y with
        head := head, headOut := if bad.isNone then head else y.headOut, since := since,
        firstAt := some (y.firstAt.getD d.clk), uncovered := if bad.isNone then [] else recs })
      let d := forEach (ws.take (bad.getD ws.length)) (fun (e : Nat × Bytes) d => hostWrite s y.pasidSlot e.1 e.2 d) d
      let d := match bad with
        | some i => pasidFault s (ws.getD i (0, [])).1 5 d
        | none => d
      let d := d.modSlice s (fun x => { x with cqEvent := x.cqEvent ||| (1#16 <<< r.val) })
      let d := if y.intEn && decide (max 1 y.coalCount ≤ since) then cqSignal s r d else d
      decommissioned s (stallRing s r d))

/-! Known-answer tests and classes without a unit. -/

/-- KAT_RUN (R417): one unit of each class named; whether a unit passes is a free value. A unit that fails raises its
fault after the report is made. -/
def execKatRun (id : Nat) : State → Out :=
  execOp .katRun id (fun _ c d =>
    let want := bits c.prm 4 0
    let (n, d) := drawNat d
    let pass := want &&& n
    let fail := want - pass
    let bad := c.units.filter (fun (h : UnitHold) => bit fail (uclassNo h.cls))
    let d := setCmd { c with units := c.units.filter (fun (h : UnitHold) => !bit fail (uclassNo h.cls)) } d
    let rep := leBytes 1 pass ++ leBytes 1 fail ++ zeros 2 ++ leBytes 4 (if d.linen.policy.isSome then d.linen.hookFaults else 0)
    forEach bad (fun (h : UnitHold) d => raiseFault (unitSource h.cls + h.unit) 0 0 none d)
      (okOuts [(0, rep)] id d))

/-- CLASS_EMPTY_TIMEOUT (R416): 1 ms without a unit of a class that the command waits for. -/
def execClassEmptyTimeout (id : Nat) : State → Out :=
  onDev (fun d =>
    match findCmd d id with
    | none => d
    | some c =>
      let ks := c.classes.map ucOf ++ (if c.pkt.opcode / 256 = 8 then [UnitClass.payment] else [])
      let empty (k : UnitClass) : Bool := inServiceCount d k == 0 &&
        (match tfind d.sched.emptySince (uclassNo k) with
         | some t => decide (t + 1000000 ≤ d.clk)
         | none => false)
      if c.stage == .ready && d.alive && ks.any empty then abortWith .faultDetected id d else d)

end Sys2Proof.Machine
end

