-- ==== Sys2Proof/Machine/Regs.lean ====
section
/-!
DEFINITION. The registers as the host reads and writes them: BAR maps, access types, widths (R6 to R9 [00], R53 to
R57 [02]) and every register table of the chapters.
-/
namespace Sys2Proof.Machine

/-! Codes of the states that registers report. -/

/-- SLICE_STATUS.STATE ([02]). -/
def sliceStCode : SliceSt → Nat
  | .free => 0
  | .active => 1
  | .paused => 2
  | .destroying => 3

/-- SQ_STATE.STATE ([03]). -/
def sqStCode : SqSt → Nat
  | .disabled => 0
  | .running => 1
  | .qerr => 2
  | .draining => 3

/-- CQ_STATE.STATE ([03]). -/
def cqStCode : CqSt → Nat
  | .disabled => 0
  | .running => 1
  | .stalled => 2

/-- DMA_STATUS.STATE (R469 [17]). -/
def chanStCode : ChanSt → Nat
  | .idle => 0
  | .running => 1
  | .halted => 2

/-- TAMPER_STATUS.STATE ([14]). -/
def tamperStCode : TamperSt → Nat
  | .normal => 0
  | .hold => 1
  | .erased => 2
  | .latched => 3

/-! Reads: what a register of a width, or a byte of a buffer, holds. -/

/-- What is found at an offset: a register of so many bytes and its value, or a place in a buffer. -/
inductive Reg where
  | val (width : Nat) (v : Nat)
  | buf (b : Bytes) (off : Nat)
  | none
deriving DecidableEq, Repr

/-- SLICE_STATUS ([02]). -/
def sliceStatus (d : Dev) (s : Nat) : Nat :=
  s * 256 + (d.slice s).cfg.maskOrder * 16 + sliceStCode (d.slice s).st

/-- A bit for each of `n` things. -/
def bitsOf (n : Nat) (p : Nat → Bool) : Nat := ((List.range n).map (fun i => b2n (p i) * 2 ^ i)).sum

/-- MBX_CTRL and MGR_MBX_CTRL ([02]): their FULL bits. -/
def mbxCtrl (x : Slice) : Nat := 8 * b2n x.m2tFull + 2 * b2n x.t2mFull

/-- The 256 bytes of a mailbox buffer. -/
def mbxBytes (t : TMap Byte) : Bytes := (List.range 256).map (tget 0 t)

/-- A register of queue block `q` (R109 to R111 [03]). -/
def queueReg (d : Dev) (s q o : Nat) : Reg :=
  let x := d.sq s q
  let y := d.cq s q
  if o = 0x00 then .val 8 x.base
  else if o = 0x08 then
    .val 4 (b2n (x.st != .disabled && x.st != .draining) * 2 ^ 31 + x.pasidSlot * 2 ^ 29 + x.cqSel * 2 ^ 20 + x.depth)
  else if o = 0x0C then .val 4 (x.window * 2 ^ 16 + x.poll)
  else if o = 0x10 then .val 8 x.ciAddr
  else if o = 0x18 then
    .val 4 (sqStCode x.st * 2 ^ 30 + b2n x.dbDrop * 2 ^ 28 + x.cfgFault * 2 ^ 20 + wordOfPos x.depth x.pos)
  else if o = 0x1C then .val 4 (x.errReason * 2 ^ 24 + wordOfPos x.depth x.errPos)
  else if o = 0x20 then .val 8 y.base
  else if o = 0x28 then
    .val 4 (b2n (y.st != .disabled) * 2 ^ 31 + y.pasidSlot * 2 ^ 29 + b2n y.intEn * 2 ^ 28 + y.depth)
  else if o = 0x2C then .val 4 (y.coalCount * 2 ^ 16 + y.coalTime)
  else if o = 0x30 then .val 8 y.headAddr
  else if o = 0x38 then
    .val 4 (cqStCode y.st * 2 ^ 30 + b2n y.dbDrop * 2 ^ 28 + y.cfgFault * 2 ^ 20 + wordOfPos y.depth y.head)
  else if o = 0x3C then .val 4 0
  else if o = 0x40 then .val 4 (slotsHeld d s q)
  else .none

/-- What is at offset `o` of the page of slice `s` (R56, R108 [03]). -/
def pageReg (d : Dev) (s o : Nat) : Reg :=
  let x := d.slice s
  if o = 0 then .val 4 (sliceStatus d s)
  else if o = 8 then .val 4 x.cfg.quota
  else if o = 0xC then .val 4 (ledgerUsed d s)
  else if o = 0x100 then .val 4 x.intMask.toNat
  else if o = 0x104 then .val 4 x.intPend.toNat
  else if o = 0x200 then .val 4 x.pushFree.toNat
  else if 0x400 ≤ o && o < 0x500 then .buf (mbxBytes x.t2m) (o - 0x400)
  else if 0x500 ≤ o && o < 0x600 then .buf (mbxBytes x.m2t) (o - 0x500)
  else if o = 0x600 then .val 4 (mbxCtrl x)
  else if 0x800 ≤ o && o < 0x840 && o % 4 = 0 then
    let n := (o - 0x800) / 4
    .val 4 (2 * b2n (pageBusy d s n) + b2n (x.page n).owner)
  else if 0x2000 ≤ o && o < 0x2800 then queueReg d s ((o - 0x2000) / 0x80) (o % 0x80)
  else if o = 0x2800 then
    .val 4 (bitsOf 16 (fun q => (x.sq q).st == .qerr) * 65536 + bitsOf 16 (fun q => (x.cq q).st == .stalled))
  else if o = 0x2804 then .val 4 x.cqEvent.toNat
  else if 0x2C00 ≤ o && o < 0x2C80 && o % 4 = 0 then .val 4 0
  else .none

/-- LC_STATUS ([13]). -/
def lcStatus (d : Dev) : Nat :=
  d.otp.testUsed * 2 ^ 20 + b2n d.link.resumed * 2 ^ 12 + b2n d.link.debugOpen * 2 ^ 11 + d.otp.mode * 2 ^ 8 + d.lc

/-- MICROCODE_VERSION ([15]). -/
def microVersion (d : Dev) : Nat :=
  let p := tget noImage d.micro.vendor d.micro.vendorBank
  b2n d.micro.draining * 2 ^ 63 + b2n d.micro.patchRequired * 2 ^ 62 + floorOf d.otp * 2 ^ 48 + p.svn % 256 * 2 ^ 40
    + 2 ^ 32 + p.version % 65536 * 2 ^ 16 + 0x0A01

/-- SLICE_DEFICIT saturates at the ends of 32-bit two's complement (R72). -/
def deficitWord (v : Int) : Nat := (BitVec.ofInt 32 (max (-(2 ^ 31)) (min (2 ^ 31 - 1) v))).toNat

/-- The 32 bytes of an event log record (R413 [14]). -/
def EvRec.bytes (r : EvRec) : Bytes :=
  leBytes 4 r.esn ++ leBytes 1 r.typ ++ leBytes 1 r.level ++ leBytes 2 r.source ++ leBytes 8 r.time ++ fit 16 r.detail

/-- The 16 bytes of an MSI-X table entry (R54 [02]). -/
def msixBytes (e : Word64 × Word32 × Bool) : Bytes :=
  leBytes 8 e.1.toNat ++ leBytes 4 e.2.1.toNat ++ leBytes 4 (b2n e.2.2)

/-- A register of DMA channel `c`; of a command channel, only STATE and FAULTS report (R469 [17]). -/
def chanReg (d : Dev) (c o : Nat) : Reg :=
  let h := d.chan c
  let on := decide (56 ≤ c)
  let v (n : Nat) : Nat := if on then n else 0
  if o = 0 then .val 4 (v (h.prio * 256))
  else if o = 4 then
    .val 4 (h.faults * 2 ^ 16 + v (b2n h.dirWrite * 2 ^ 11 + h.err * 2 ^ 8 + b2n h.mismatch * 128 + b2n h.done * 4
      + chanStCode h.st) + (if on then 0 else b2n (d.cmds.any (fun (e : Cmd) => e.chan == some c))))
  else if o = 8 then .val 8 (v h.head)
  else if o = 0x10 then .val 8 (v h.cur)
  else if o = 0x18 then .val 4 (v h.count)
  else if o = 0x1C then .val 4 (v h.cmp)
  else if o = 0x20 then .val 8 (v h.errAddr)
  else .none

/-- SCR_OWN of bank `b` (R471 [17]). -/
def scrOwn (d : Dev) (b : Nat) : Nat := b2n (d.bank b).wiping * 2 ^ 31 + (d.bank b).owner

/-- What is at offset `o` of the control block of slice `s` (R77 [02]). -/
def blockReg (d : Dev) (s o : Nat) : Reg :=
  let x := d.slice s
  if o = 0 then .val 4 (sliceStatus d s)
  else if 8 ≤ o && o < 0x28 then .buf x.cfg.block (o - 8)
  else if 0x40 ≤ o && o < 0x50 && o % 4 = 0 then
    let p := d.pslot s ((o - 0x40) / 4)
    .val 4 (b2n p.valid * 2 ^ 31 + p.pasid.toNat)
  else if 0x100 ≤ o && o < 0x140 then
    let i := x.intMsg.getD ((o - 0x100) / 16) ⟨0, 0⟩
    .buf (leBytes 8 i.addr.toNat ++ leBytes 4 i.data.toNat ++ zeros 4) (o % 16)
  else if o = 0x200 then .val 8 x.admitted
  else .none

/-- What is at offset `o` of the scheduler's range (R72 [02]). -/
def schedReg (d : Dev) (o : Nat) : Reg :=
  if o = 0 then .val 8 d.sched.rounds
  else if 0x10 ≤ o && o < 0x24 && o % 4 = 0 then
    match allClasses[(o - 0x10) / 4]? with
    | some k => .val 4 (if d.link.started then poolOf d k * 4096 + freeOf d k else 0)
    | none => .none
  else if 0x2000 ≤ o && o < 0x4000 && o % 4 = 0 then
    let x := d.slice ((o - 0x2000) / 32)
    let k := o % 32 / 4
    if k < 5 then .val 4 (deficitWord (tget 0 x.deficitRd k))
    else if k = 5 then .val 4 x.readyRd.toNat
    else .none
  else .none

/-- What is at offset `o` of the fault collector's and the event fabric's ranges ([14]). -/
def faultReg (d : Dev) (o : Nat) : Reg :=
  let p := d.prot
  if o = 0x20000 then .val 4 (b2n p.fatal * 2 ^ 31 + b2n (p.pendingFc != 0) * 2 ^ 30 + p.fatalSource)
  else if o = 0x20004 then .val 4 p.escTime
  else if o = 0x20008 then .val 4 p.corrCount
  else if 0x20100 ≤ o && o < 0x20138 && o % 4 = 0 then .val 4 (p.pendingFc.toNat / 2 ^ (8 * (o - 0x20100)) % 2 ^ 32)
  else if o = 0x20200 then .val 8 p.firstAddr.toNat
  else if o = 0x20208 then .val 8 p.firstTime
  else if o = 0x20210 then .val 4 p.firstInfo.toNat
  else if o = 0x20214 then .val 4 0
  else if 0x30000 ≤ o && o < 0x34000 then
    match tfind p.log ((o - 0x30000) / 32) with
    | some r => .buf r.bytes (o % 32)
    | none => .buf (zeros 32) (o % 32)
  else if o = 0x34000 then .val 8 (p.overwritten % 2 ^ 32 * 2 ^ 32 + p.esn)
  else .none

/-- What is at offset `o` of the time base, the ring and the tamper ranges ([12], [14]). -/
def boardReg (d : Dev) (o : Nat) : Reg :=
  let b := d.board
  let p := d.prot
  if o = 0x40000 then .val 8 d.devTime
  else if o = 0x40008 then .val 4 (timeStatus d)
  else if o = 0x4000C then .val 4 b.delay.toNat
  else if 0x41000 ≤ o && o < 0x43000 then .buf (actionRecord d ((o - 0x41000) / 32)) (o % 32)
  else if o = 0x50000 then .val 4 (b.serving.toNat * 65536 + d.pos * 256 + memberCode b.member)
  else if o = 0x50008 || o = 0x5000C then
    let t := d.port ((o - 0x50008) / 4)
    .val 4 (t.flitErr * 65536 + t.lanes * 16 + linkCode t.link)
  else if o = 0x50010 then .val 8 b.lastMsn
  else if o = 0x50018 then .val 4 (b.tamperBcast.toNat * 65536 + b.commitLead)
  else if o = 0x60000 then .val 4 (p.lastSource * 65536 + tamperStCode p.st)
  else if o = 0x60004 then .val 4 p.active.toNat
  else if o = 0x60008 then .val 4 p.seen.toNat
  else if o = 0x6000C then .val 4 d.otp.fuses.toNat
  else if 0x60010 ≤ o && o < 0x60030 && o % 4 = 0 then
    .val 4 (leNat ((List.range 4).map (fun i => BitVec.ofNat 8 (levelOf d (o - 0x60010 + i)))))
  else if o = 0x60040 then .val 4 (p.cautionCount * 65536 + b2n p.caution * 256 + p.belowWarn.toNat)
  else if o = 0x60044 then .val 4 (p.tjMain.toNat * 65536 + p.tjSec.toNat)
  else if 0x60080 ≤ o && o < 0x60100 && o % 8 = 0 then .val 8 (p.batLog.getD ((o - 0x60080) / 8) 0).toNat
  else if o = 0x60100 then .val 4 p.batCount
  else if o = 0x60108 then .val 8 p.rtc
  else .none

/-- DEVICE_ID (R3 [00]): PART, STEPPING 0xA0, the speed grade of the parametric table. -/
def deviceId (d : Dev) : Nat := 0x9720A000 + d.otp.grade.toNat * 16

/-- What is at offset `o` of PF0 BAR0 (R54 [02]). -/
def pf0Reg (d : Dev) (o : Nat) : Reg :=
  if o < 0x10000 then
    if o = 0 then .val 4 (deviceId d)
    else if o = 0x10 then .val 4 (lcStatus d)
    else if o = 0x20 then .val 8 (microVersion d)
    else if o = 0x40 then .val 4 (d.micro.hqcRev % 256 * 256 + d.micro.fndsaRev % 256)
    else if 0x80 ≤ o && o < 0xA0 && o % 4 = 0 then
      .val 4 (field (fit 32 (tget noImage d.micro.vendor d.micro.vendorBank).digest) (o - 0x80) 4)
    else if 0xA0 ≤ o && o < 0xC0 && o % 4 = 0 then
      .val 4 (field (fit 32 (tget noImage d.micro.ext d.micro.extBank).digest) (o - 0xA0) 4)
    else if o = 0x200 then .val 4 (b2n (d.otp.mode == 1 && d.link.qerrHalt))
    else if o = 0x210 then .val 4 (b2n d.link.ideLock * 2 ^ 31 + b2n d.link.ideRequired)
    else if 0x300 ≤ o && o < 0x320 && o % 4 = 0 then .val 4 (d.link.adminEvent.toNat / 2 ^ (8 * (o - 0x300)) % 2 ^ 32)
    else if 0x320 ≤ o && o < 0x340 && o % 4 = 0 then .val 4 (d.link.quotaEvent.toNat / 2 ^ (8 * (o - 0x320)) % 2 ^ 32)
    else .none
  else if o < 0x20000 then schedReg d (o - 0x10000)
  else if o < 0x38000 then faultReg d o
  else if o < 0x3A000 then .buf (msixBytes (d.msixEntry ((o - 0x38000) / 16))) (o % 16)
  else if o < 0x3A040 then .buf (leBytes 64 d.link.msixPend.toNat) (o - 0x3A000)
  else if o < 0x70000 then boardReg d o
  else if o < 0x71000 then chanReg d ((o - 0x70000) / 0x40) (o % 0x40)
  else if 0x80000 ≤ o && o < 0x80100 && o % 4 = 0 then .val 4 (scrOwn d ((o - 0x80000) / 4))
  else if 0x100000 ≤ o && o < 0x200000 then blockReg d ((o - 0x100000) / 0x1000) (o % 0x1000)
  else if 0x200000 ≤ o && o < 0x240000 then
    let x := d.slice ((o - 0x200000) / 0x400)
    let i := o % 0x400
    if i < 0x100 then .buf (mbxBytes x.t2m) i
    else if i < 0x200 then .buf (mbxBytes x.m2t) (i - 0x100)
    else if i = 0x200 then .val 4 (mbxCtrl x)
    else .none
  else if 0x1000000 ≤ o && o < 0x1800000 then .buf (attrRecord d ((o - 0x1000000) / 64)) (o % 64)
  else .none

/-- All ones in every byte read. -/
def ones (w : Nat) : Nat := 2 ^ (8 * w) - 1

/-- The `w` bytes from offset `o` touch some register or buffer of the map. -/
def coversReg (f : Nat → Reg) (o w : Nat) : Bool :=
  (List.range (w + 7)).any (fun i =>
    let a := o + i - 7
    match f a with
    | .val n _ => decide (7 ≤ o + i) && decide (o < a + n)
    | .buf _ _ => decide (o ≤ a) && decide (7 ≤ o + i)
    | .none => false)

/-- A read of `w` bytes through a register map (R8, R9 [00]): all ones where it is not naturally aligned or not of the
width of what it reaches; a reserved offset reads 0. -/
def readVia (f : Nat → Reg) (o w : Nat) : Nat :=
  match f o with
  | .val n v => if w = n then v else ones w
  | .buf b i => if (w = 4 || w = 8) && o % w = 0 then leNat (seg b i w) else ones w
  | .none => if coversReg f o w then ones w else 0

/-- The registers that hold an inverted shadow copy (R409 [14]): TAMPER_LEVEL, TAMPER_FUSED, LC_STATUS, SLICE_STATUS and
PASID_SLOT of every slice, DEV_QERR_POLICY, IDE_CTRL, RING_CFG and FC_ESC_TIME, by their offsets in PF0 BAR0. -/
def shadowed : List Nat :=
  (List.range 8).map (fun i => 0x60010 + 4 * i) ++ [0x6000C, 0x10, 0x200, 0x210, 0x50018, 0x20004]
    ++ (List.range 256).flatMap (fun s =>
      (0x100000 + 0x1000 * s) :: (List.range 4).map (fun i => 0x100040 + 0x1000 * s + 4 * i))

/-- The shadow copy of a register: its inverse, because every write updates both copies in one cycle (R409). That the
two differ is a failure that arrives as FAULT_DETECT of source 404 (DEDUCED, log 65). -/
def shadowCopy (d : Dev) (o : Nat) : BitVec 32 := ~~~ BitVec.ofNat 32 (readVia (pf0Reg d) o 4)

/-- What a read of `w` bytes at offset `off` of a BAR returns. Of a page whose slice is FREE or DESTROYING, only
SLICE_STATUS answers (R57 [02]); the push window reads 0 (R42 [01]). -/
def regRead (d : Dev) (m : Memory) (bar : Bar) (off w : Nat) : Nat :=
  match bar with
  | .pf0 => if d.reachable then readVia (pf0Reg d) off w else ones w
  | .pf1 =>
    let s := off / 65536
    let o := off % 65536
    if !d.open_ s && !(d.reachable && o = 0) then ones w
    else if 0x1000 ≤ o && o < 0x2000 then 0
    else readVia (pageReg d s) o w
  | .bar2 => leNat ((List.range w).map (fun i => bar2Byte d m (off + i)))

/-! Writes (R6 to R9). -/

/-- One meaning after another. -/
def thenOut (a b : State → Out) (s : State) : Out :=
  match a s with
  | .next t => b t
  | r => r

/-- A write that changes nothing. -/
def discard : State → Out := onDev (fun d => d)

/-- Bytes put into a buffer held as a map. -/
def putBytes (t : TMap Byte) (o : Nat) (b : Bytes) : TMap Byte :=
  (b.zipIdx o).foldl (fun (t : TMap Byte) (e : Byte × Nat) => tset t e.2 e.1) t

/-- A field of a queue or a ring that may be written only while it is DISABLED (R110 [03]). -/
def sqField (s q : Nat) (f : Sq → Sq) (d : Dev) : Dev :=
  if d.open_ s && (d.sq s q).st == .disabled then d.modSq s q f else d

def cqField (s q : Nat) (f : Cq → Cq) (d : Dev) : Dev :=
  if d.open_ s && (d.cq s q).st == .disabled then d.modCq s q f else d

/-- A write to a register of queue block `q` (R109 to R112, R116 [03]). -/
def queueWrite (s : Fin 256) (q : Fin 16) (o w v : Nat) : State → Out :=
  if o = 0x00 && w = 8 then onDev (sqField s q (fun x => { x with base := v / 64 * 64 }))
  else if o = 0x08 && w = 4 then
    onDev (fun d =>
      if bit v 31 then sqEnableWrite s q v d
      else if (d.sq s q).st == .disabled then sqField s q (sqCfgWrite v) d
      else sqDisableWrite s q d)
  else if o = 0x0C && w = 4 then
    onDev (sqField s q (fun x => { x with window := bits v 28 16, poll := bits v 14 0 }))
  else if o = 0x10 && w = 8 then onDev (sqField s q (fun x => { x with ciAddr := v / 4 * 4, ciOwed := false }))
  else if o = 0x18 && w = 4 then
    onDev (fun d => if d.open_ s && bit v 28 then d.modSq s q (fun x => { x with dbDrop := false }) else d)
  else if o = 0x20 && w = 8 then onDev (cqField s q (fun x => { x with base := v / 64 * 64 }))
  else if o = 0x28 && w = 4 then
    onDev (fun d =>
      if bit v 31 then cqEnableWrite s q v d
      else if (d.cq s q).st == .disabled then cqField s q (cqCfgWrite v) d
      else cqDisableWrite s q d)
  else if o = 0x2C && w = 4 then
    onDev (cqField s q (fun x => { x with coalCount := bits v 23 16, coalTime := bits v 15 0 }))
  else if o = 0x30 && w = 8 then onDev (cqField s q (fun x => { x with headAddr := v / 4 * 4 }))
  else if o = 0x38 && w = 4 then
    onDev (fun d => if d.open_ s && bit v 28 then d.modCq s q (fun x => { x with dbDrop := false }) else d)
  else if o = 0x3C && w = 4 then execSqRestart s q (BitVec.ofNat 32 v)
  else discard

/-- A write to the page of slice `s` (R56, R57, R78, R80). -/
def pageWrite (s : Fin 256) (o w v : Nat) : State → Out :=
  if o = 0x100 && w = 4 then execIntMaskWrite s (BitVec.ofNat 32 v)
  else if o = 0x104 && w = 4 then execIntPendingClear s (BitVec.ofNat 32 v)
  else if 0x400 ≤ o && o + w ≤ 0x500 then
    onDev (fun d => if d.open_ s && !(d.slice s).t2mFull then
      d.modSlice s (fun x => { x with t2m := putBytes x.t2m (o - 0x400) (leBytes w v) }) else d)
  else if o = 0x600 && w = 4 then
    thenOut (if bit v 0 then execT2mPost s else discard) (if bit v 2 then execM2tAck s else discard)
  else if 0x800 ≤ o && o < 0x840 && w = 4 then execXwOwnerWrite s (Fin.ofNat 16 ((o - 0x800) / 4)) (BitVec.ofNat 32 v)
  else if 0x1000 ≤ o && o < 0x2000 then
    execPushSlotPost s (Fin.ofNat 16 ((o - 0x1000) / 256)) (Fin.ofNat 256 o) (leBytes w v)
  else if 0x2000 ≤ o && o < 0x2800 then queueWrite s (Fin.ofNat 16 ((o - 0x2000) / 0x80)) (o % 0x80) w v
  else if o = 0x2804 && w = 4 then
    onDev (fun d => if d.open_ s then
      d.modSlice s (fun x => { x with cqEvent := x.cqEvent &&& ~~~(BitVec.ofNat 16 v) }) else d)
  else if 0x2C00 ≤ o && o < 0x2C80 && w = 4 then
    let q : Fin 16 := Fin.ofNat 16 ((o - 0x2C00) / 8)
    if o % 8 = 0 then execSqDoorbell s q (BitVec.ofNat 32 v) else execCqDoorbell s q (BitVec.ofNat 32 v)
  else discard

/-- A change of PF0's registers, which take no write while the device is in reset or discards the request. -/
def mgrWrite (f : Dev → Dev) : State → Out := onDev (fun d => if d.reachable then f d else d)

/-- A buffer of `n` bytes with a write laid over it. -/
def overlay (b : Bytes) (o : Nat) (x : Bytes) : Bytes := (b.take o ++ x ++ b.drop (o + x.length)).take b.length

/-- A write to the MSI-X table (R82 [02]): unmasking a vector whose bit is pending sends its message. -/
def msixWrite (vec o w v : Nat) (d : Dev) : Dev :=
  let b := overlay (msixBytes (d.msixEntry vec)) o (leBytes w v)
  let masked := bit (field b 12 4) 0
  let e : Word64 × Word32 × Bool := (BitVec.ofNat 64 (field b 0 8), BitVec.ofNat 32 (field b 8 4), masked)
  let d := { d with link := { d.link with msixTable := tset d.link.msixTable vec e } }
  if !masked && d.link.msixPend.getLsbD vec then
    emit (.msix vec e.1.toNat e.2.1.toNat)
      { d with link := { d.link with msixPend := d.link.msixPend &&& ~~~(1#512 <<< vec) } }
  else d

/-- A write to INT_MSG (R84 [02]): ADDR bits [63:2] and DATA. -/
def intMsgWrite (s n o w v : Nat) (d : Dev) : Dev :=
  let i := (d.slice s).intMsg.getD n ⟨0, 0⟩
  let b := overlay (leBytes 8 i.addr.toNat ++ leBytes 4 i.data.toNat ++ zeros 4) o (leBytes w v)
  d.modSlice s (fun x => { x with intMsg := x.intMsg.set n (IntMsg.mk
    (BitVec.ofNat 64 (field b 0 8 / 4 * 4)) (BitVec.ofNat 32 (field b 8 4))) })

/-- A write to a register of DMA channel `c` (R469 [17]). -/
def chanWrite (c o w v : Nat) (d : Dev) : Dev :=
  if c < 56 then d
  else if o = 0 && w = 4 then
    if 5 < bits v 10 8 then d
    else
      let idle := (d.chan c).st == .idle
      let d := if idle then modChan c (fun h => { h with prio := bits v 10 8 }) d else d
      let d := if bit v 1 then chanStop c d else d
      if bit v 0 && idle then chanGo c d else d
  else if o = 4 && w = 4 then if bit v 2 then modChan c (fun h => { h with done := false }) d else d
  else if o = 8 && w = 8 then
    if (d.chan c).st == .idle then modChan c (fun h => { h with head := v / 32 * 32 }) d else d
  else d

/-- FC_PENDING written through the BAR: whether the tests that follow pass is a free value (R508, R411 [14]). -/
def fcPendingWrite (k : Fin 14) (v : Nat) (s : State) : Out :=
  let (n, d) := drawNat s.dev
  execFcPendingClear k (BitVec.ofNat 32 v) (n % 2 == 0) { s with dev := d }

/-- A write to PF0 BAR0 (R54 [02]). -/
def pf0Write (o w v : Nat) : State → Out :=
  if o = 0x200 && w = 4 then
    mgrWrite (fun d => if d.otp.mode = 1 then { d with link := { d.link with qerrHalt := bit v 0 } } else d)
  else if o = 0x210 && w = 4 then execIdeCtrlWrite (BitVec.ofNat 32 v)
  else if 0x300 ≤ o && o < 0x320 && w = 4 then
    mgrWrite (fun d => { d with link := { d.link with
      adminEvent := d.link.adminEvent &&& ~~~(BitVec.ofNat 256 (v * 2 ^ (8 * (o - 0x300)))) } })
  else if 0x320 ≤ o && o < 0x340 && w = 4 then
    mgrWrite (fun d => { d with link := { d.link with
      quotaEvent := d.link.quotaEvent &&& ~~~(BitVec.ofNat 256 (v * 2 ^ (8 * (o - 0x320)))) } })
  else if o = 0x20004 && w = 4 then
    mgrWrite (fun d =>
      let us := bits v 23 0
      if 1 ≤ us && us ≤ 10000000 then { d with prot := { d.prot with escTime := us } } else d)
  else if 0x20100 ≤ o && o < 0x20138 && w = 4 then fcPendingWrite (Fin.ofNat 14 ((o - 0x20100) / 4)) v
  else if o = 0x20214 && w = 4 then execFcFirstClr (BitVec.ofNat 32 v)
  else if 0x38000 ≤ o && o < 0x3A000 && (w = 4 || w = 8) then mgrWrite (msixWrite ((o - 0x38000) / 16) (o % 16) w v)
  else if o = 0x4000C && w = 4 then
    mgrWrite (fun d => { d with board := { d.board with delay := BitVec.ofNat 16 v } })
  else if o = 0x50018 && w = 4 then
    mgrWrite (fun d =>
      let lead := bits v 15 0
      { d with board := { d.board with
        tamperBcast := BitVec.ofNat 2 (bits v 17 16),
        commitLead := if lead < 10 || 10000 < lead then d.board.commitLead else lead } })
  else if 0x70000 ≤ o && o < 0x71000 then mgrWrite (chanWrite ((o - 0x70000) / 0x40) (o % 0x40) w v)
  else if 0x80000 ≤ o && o < 0x80100 && w = 4 then mgrWrite (scrOwnWrite ((o - 0x80000) / 4) v)
  else if 0x100000 ≤ o && o < 0x200000 && 0x100 ≤ o % 0x1000 && o % 0x1000 < 0x140 && (w = 4 || w = 8) then
    mgrWrite (intMsgWrite ((o - 0x100000) / 0x1000) ((o % 0x1000 - 0x100) / 16) (o % 16) w v)
  else if 0x200000 ≤ o && o < 0x240000 then
    let s : Fin 256 := Fin.ofNat 256 ((o - 0x200000) / 0x400)
    let i := o % 0x400
    if 0x100 ≤ i && i + w ≤ 0x200 then
      mgrWrite (fun d => if (d.slice s).m2tFull then d
        else d.modSlice s (fun x => { x with m2t := putBytes x.m2t (i - 0x100) (leBytes w v) }))
    else if i = 0x200 && w = 4 then
      thenOut (if bit v 0 then execT2mAck s else discard) (if bit v 2 then execM2tPost s else discard)
    else discard
  else discard

/-- Size of a BAR (R53 [02]). -/
def barSize : Bar → Nat
  | .pf0 => 0x4000000
  | .pf1 => 0x1000000
  | .bar2 => 0x1000000

/-- REGISTER_WRITE (R6 to R9 [00]): a write that is not naturally aligned, or not of the register's width, is
discarded, and so is every write while IDE is required and no stream is established (R88 [02]); an offset outside the
BAR does not exist. -/
def execRegisterWrite (bar : Bar) (off width value : Nat) (s : State) : Out :=
  if barSize bar < off + width then .fault .outsideBar
  else if !s.dev.reachable then discard s
  else
    let v := value % 2 ^ (8 * width)
    match bar with
    | .bar2 => onBoth (fun d m => (bar2Fault off true d, bar2Write d m off (leBytes width v))) s
    | .pf0 => if width = 0 || off % width != 0 then discard s else pf0Write off width v s
    | .pf1 =>
      if width = 0 || off % width != 0 then discard s
      else pageWrite (Fin.ofNat 256 (off / 65536)) (off % 65536) width v s

end Sys2Proof.Machine
end

