-- ==== Sys2Proof/Machine/Link.lean ====
section
/-!
DEFINITION. What arrives on the link beside the BARs, or outside an IDE stream: SPDM, IDE_KM, configuration requests,
requests outside a stream (R49, R53, R86 to R88 [02]).
-/
namespace Sys2Proof.Machine

/-! The SPDM responder (R86, R87). The manual names the versions, the algorithms, the certificate slot and the
measurements; the messages are SPDM's own (log 45). -/

/-- The responder's state on a transport. -/
def Dev.spdm (d : Dev) : SpdmPath → Spdm
  | .doe => d.link.spdmDoe
  | .mctp => d.link.spdmMctp

/-- The device with the responder's state on a transport changed. -/
def modSpdm (path : SpdmPath) (f : Spdm → Spdm) (d : Dev) : Dev :=
  match path with
  | .doe => { d with link := { d.link with spdmDoe := f d.link.spdmDoe } }
  | .mctp => { d with link := { d.link with spdmMctp := f d.link.spdmMctp } }

/-- What R86 negotiates. -/
def spdmAlgs : List SpdmAlg := [.ecdsaP384, .sha384, .secp384r1, .aes256Gcm]

/-- The certificate chain of slot 0: that of the identity's ECDSA P-384 key, as OTP holds it (log 11). -/
def spdmChain (d : Dev) : Bytes := Config.rom 1 ++ idEcPub d

/-- KEY_EXCHANGE (R86): an ephemeral secp384r1 key, the shared secret, and the identity's signature over both public
keys; the session is open once FINISH is verified. -/
def spdmKeyExchange (path : SpdmPath) (pub : Bytes) (d : Dev) : Dev :=
  let (e, d) := draw 48 d
  let (k, d) := draw 64 d
  match agree 1 e pub with
  | none => emit (.spdm path .refused) d
  | some z =>
    let own := std .pubOf 97 [0x51, 0] [e]
    let sig := std .ecdsaSign 96 [1, 1] [idEc d, sha384 (pub ++ own), k]
    emit (.spdm path (.keyExchange own sig)) (modSpdm path (fun x => { x with secret := some z, opened := false }) d)

/-- What the responder answers, and what becomes of its state. -/
def spdmAnswer (path : SpdmPath) (req : SpdmReq) (d : Dev) : Dev :=
  let x := d.spdm path
  match req with
  | .getVersion => emit (.spdm path (.versions [0x12, 0x13])) d
  | .negotiate v =>
    if v = 0x12 || v = 0x13 then
      emit (.spdm path (.algorithms v spdmAlgs)) (modSpdm path (fun x => { x with version := v }) d)
    else emit (.spdm path .refused) d
  | .certificate slot =>
    emit (.spdm path (if slot = 0 && x.version != 0 then .certificate 0 (spdmChain d) else .refused)) d
  | .measurement i =>
    emit (.spdm path (if 1 ≤ i && i ≤ 7 && x.version != 0 then .measurement i (measurement d i) else .refused)) d
  | .keyExchange pub => if x.version = 0 then emit (.spdm path .refused) d else spdmKeyExchange path pub d
  | .finish ok =>
    if x.secret.isSome && ok then emit (.spdm path .finished) (modSpdm path (fun x => { x with opened := true }) d)
    else emit (.spdm path .refused) (modSpdm path (fun x => { x with secret := none, opened := false }) d)
  | .endSession =>
    if x.opened then
      emit (.spdm path .ended) (modSpdm path (fun x => { x with secret := none, opened := false }) d)
    else emit (.spdm path .refused) d
  | .other _ => emit (.spdm path .refused) d

/-- The device hears a transport: DOE needs the link, MCTP comes over I3C (R86). -/
def spdmHears (d : Dev) : SpdmPath → Bool
  | .doe => d.powered && !d.link.linkLost
  | .mctp => d.powered

/-- SPDM_REQUEST (R86, R87). -/
def execSpdmRequest (path : SpdmPath) (req : SpdmReq) : State → Out :=
  onDev (fun d => if spdmHears d path then spdmAnswer path req d else d)

/-- IDE_KM (R88): keys are programmed only inside an open secured session of a transport; the stream is then
established, and writes that waited for one go out (R89). -/
def execIdeKm (stream : Fin 5) (session : Option SpdmPath) (keys : Bytes) : State → Out :=
  onDev (fun d =>
    if !session.any (fun path => spdmHears d path && (d.spdm path).opened) || keys.isEmpty then d
    else sendHeld { d with link := { d.link with
      ideStreams := d.link.ideStreams ||| (1#5 <<< stream.val)
      ideKeys := tset d.link.ideKeys stream.val keys } })

/-! Requests outside an IDE stream. -/

/-- Device ID of a function (R53). -/
def fnDeviceId : Fin 2 → Nat
  | 0 => 0x9720
  | 1 => 0x9721

/-- Class code of both functions (R53). -/
def classCode : Nat := 0x108000

/-- A doubleword of configuration space: identity and class code where PCI's header has them (PRESUMED, log 46); the
manual gives nothing else of it. -/
def cfgWord (fn : Fin 2) (off free : Nat) : Nat :=
  if off = 0 then fnDeviceId fn * 65536 + Config.vendorId % 65536
  else if off = 8 then classCode * 256 + free % 256
  else free % 2 ^ 32

/-- A configuration request (R49, R53): it reads identity, or sets the payload and read request sizes the function may
use. -/
def cfgRequest (fn : Fin 2) (a : CfgAccess) (d : Dev) : Dev :=
  match a with
  | .read off =>
    let (n, d) := drawNat d
    emit (.readData (leBytes 4 (cfgWord fn off n))) d
  | .sizes payload readReq =>
    { d with link := { d.link with
      payload := if [128, 256, 512].contains payload then payload else d.link.payload
      readReq := if [128, 256, 512, 1024, 2048, 4096].contains readReq then readReq else d.link.readReq } }

/-- TLP_OUTSIDE_IDE (R88): while IDE_REQUIRED is 1 a request outside a stream is discarded, unless it is a configuration
request or DOE; while it is 0 it acts as any other. -/
def execTlpOutsideIde (kind : TlpKind) (s : State) : Out :=
  if !s.dev.powered || s.dev.link.linkLost then discard s
  else
    match kind with
    | .config fn a => onDev (cfgRequest fn a) s
    | .doe req => execSpdmRequest .doe req s
    | .write bar off width value => if s.dev.link.ideRequired then discard s else execRegisterWrite bar off width value s
    | .read bar off width =>
      if s.dev.link.ideRequired then discard s
      else onDevM (fun m d =>
        let e := emit (.readData (leBytes width (regRead d m bar off width))) d
        if bar = .bar2 then bar2Fault off false e else e) s
    | .other => discard s

end Sys2Proof.Machine
end

