-- ==== Sys2Proof/Machine/Power.lean ====
section
/-!
DEFINITION. Power domains switched while idle (R488 [18], R416 [14]).
-/
namespace Sys2Proof.Machine

/-- Units in power domain `dom`. -/
def domainUnits (dom : Nat) : List (UnitClass × Nat) :=
  allUnitClasses.flatMap (fun k => ((List.range (unitCount k)).filter (fun u => unitDomain k u == dom)).map (fun u => (k, u)))

/-- The engine class of the units in a domain; payment units stand in the Satin groups' domains. -/
def domainClass (dom : Nat) : Option EngClass :=
  if dom = 0 || 20 < dom then none
  else if dom < 7 then some .lattice
  else if dom < 11 then some .hash
  else if dom < 15 then some .classical
  else if dom < 17 then some .code
  else some .cipher

/-- Every unit of the domain is OUT (R416). -/
def domainOut (d : Dev) (dom : Nat) : Bool :=
  (domainUnits dom).all (fun (e : UnitClass × Nat) => (d.unit e.1 e.2).st == .out || (d.unit e.1 e.2).st == .outFault)

/-- A domain of the class other than `dom` is on and has a unit in service. -/
def otherOn (d : Dev) (k : EngClass) (dom : Nat) : Bool :=
  (List.range 21).any (fun x => x != dom && domainClass x == some k && !d.link.domainsOff.contains x
    && (domainUnits x).any (fun (e : UnitClass × Nat) => (d.unit e.1 e.2).st == .inService))

/-- The class has had no ready command for 10 ms. -/
def classIdle (d : Dev) (k : EngClass) : Bool :=
  (readyAccounts d k).isEmpty && decide (tget d.link.startAt d.sched.lastReady (classNo k) + 10000000 ≤ d.clk)

/-- No unit of the domain works, drains or is tested. -/
def domainQuiet (d : Dev) (dom : Nat) : Bool :=
  (domainUnits dom).all (fun (e : UnitClass × Nat) => unitUsed d e.1 e.2 == 0 && (d.unit e.1 e.2).st != .testing
    && (d.unit e.1 e.2).st != .draining)

/-- POWER_DOMAIN_IDLE: off when its units are all OUT, or when its class is idle and another domain of it stays on. -/
def execPowerDomainIdle (dom : Fin 37) : State → Out :=
  onDev (fun d =>
    match domainClass dom with
    | none => d
    | some k =>
      if d.powered && d.link.started && !d.link.domainsOff.contains dom.val
          && (domainOut d dom || (classIdle d k && domainQuiet d dom && otherOn d k dom)) then
        { d with link := { d.link with domainsOff := d.link.domainsOff ++ [dom.val] } }
      else d)

/-- POWER_DOMAIN_WAKE: 20 µs after it was woken, the domain is on and its units' credits are there. -/
def execPowerDomainWake (dom : Fin 37) : State → Out :=
  onDev (fun d =>
    if d.link.waking.any (fun (w : Nat × Nat) => w.1 == dom.val && decide (w.2 ≤ d.clk)) then
      { d with link := { d.link with waking := d.link.waking.filter (fun (w : Nat × Nat) => w.1 != dom.val),
                                     domainsOff := d.link.domainsOff.filter (· != dom.val) } }
    else d)

/-- ZENARI_PORT_IDLE: a port of an unbound device that sees no training for 100 ms after start-up is switched off. -/
def execZenariPortIdle (port : Fin 2) : State → Out :=
  onDev (fun d =>
    if d.powered && d.link.started && !d.bound && (d.port port).link == .down
        && !d.link.domainsOff.contains (27 + port.val) && decide (d.link.startAt + 100000000 ≤ d.clk) then
      { d with link := { d.link with domainsOff := d.link.domainsOff ++ [27 + port.val] } }
    else d)

end Sys2Proof.Machine
end

