-- ==== Sys2Proof/Machine/Spill.lean ====
section
/-!
DEFINITION. Spilling work to a neighbour of the Zenari Ring (R40 [01], R361 to R363 [12]).
-/
namespace Sys2Proof.Machine

/-- What a credit flit carries: free credits and SHARE_IN by class, and the slices this device is a member for. -/
def ownAdvert (d : Dev) : Advert :=
  { free := allClasses.map (freeOf d), shareIn := d.board.shareIn,
    members := ((liveSlices d).filter (fun s => isMember d s (d.mkId s))).map (fun s => (s, d.mkId s)) }

/-- CREDIT_ADVERT_SEND: every 1 µs to both neighbours. -/
def execCreditAdvertSend : State → Out :=
  onDev (fun d =>
    if !d.alive || !d.link.started || !d.bound || d.clk < d.board.advertAt + 1000 then d
    else
      let a := ownAdvert d
      let d := { d with board := { d.board with advertAt := d.clk } }
      sendBoth false (fun p => .creditFlit p a.free a.shareIn a.members) d)

/-- CREDIT_ADVERT_FLIT: the neighbour's last one is kept, by port. -/
def execCreditAdvertFlit (port : Fin 2) (h : FlitHdr) (free : List Nat) (shareIn : List Nat)
    (members : List (Nat × Bytes)) : State → Out :=
  onDev (flitIn port h 6 (fun d =>
    { d with board := { d.board with
        adverts := tset d.board.adverts port { free := free, shareIn := shareIn, members := members } } }))

/-- Mirror handle of a resolved key: of a MIRRORED entry with a MID (R357). -/
def mirrorOf (d : Dev) (k : KeyRes) : Option Nat :=
  (d.board.midTable.find? (fun (e : Nat × Nat) => e.2 == k.idx)).map (fun (e : Nat × Nat) => mirrorHandle e.1)

/-- Bytes of the inputs and outputs of a command. -/
def ioBytes (c : Cmd) : Nat := (c.pkt.descs.map (·.len)).sum

/-- A part of the command's work finds no credit, whatever port is looked at. -/
def noCredit (d : Dev) (c : Cmd) : Bool := (allocAll c (partsOf d c) d).1.isNone

/-- The neighbour on a port takes a command: it is IN_SYNC, its last credit flit gave free credits and a share for
every class, and the slice is a member there. -/
def takes (d : Dev) (port : Nat) (c : Cmd) : Bool :=
  match tfind d.board.adverts port with
  | none => false
  | some a =>
    (d.port port).link == .up && d.board.serving.getLsbD (neighbour d port)
      && (partsOf d c).all (fun (p : Part) => decide (p.credits ≤ a.free.getD (classNo p.cls) 0)
            && a.shareIn.getD (classNo p.cls) 0 != 0)
      && a.members.contains (c.slice, d.mkId c.slice)

/-- A command may be spilled (R361, R127 [04]). -/
def spillable (m : Memory) (d : Dev) (port : Nat) (c : Cmd) : Bool :=
  let g := c.pkt.opcode / 256
  !c.pkt.flags.getLsbD 3 && c.pkt.segf == 0 && c.foreign.isNone && !c.noSpill && !c.retried && c.saved.isNone
    && ((formOf d c.pkt c.op).ix .kar).isNone
    && c.keys.all (fun k => (mirrorOf d k).isSome && !k.ent.has fStateful && k.ent.useLimit == 0)
    && decide (ioBytes c ≤ 65536) && decide (3 ≤ g) && decide (g ≤ 8) && c.op != .moduleOp
    && c.classes.all (fun k => d.board.outClasses.getLsbD (classNo k))
    && decide (c.readyAt + 1000 * d.board.wait < d.clk) && mayDispatch m d c && inputsReady m d c
    && c.dmaErr.isNone && noCredit d c && takes d port c

/-- What is sent with a spilled command. -/
def spillReqOf (m : Memory) (d : Dev) (c : Cmd) : SpillReq :=
  let ix (out : Bool) : List Nat := (List.range c.pkt.ndesc).filter (fun i => (c.pkt.desc i).isOut == out)
  let handle (i : Nat) : Word32 :=
    match c.keys.find? (fun k => k.field == i) with
    | some k => BitVec.ofNat 32 ((mirrorOf d k).getD 0)
    | none => 0
  { id := c.id, opcode := c.pkt.opcode, param := c.pkt.param, handles := [handle 0, handle 1, handle 2],
    slice := c.slice, maskOrder := orderOf d c, inputs := (ix false).map (fun i => (i, inp m d c i)),
    outLens := (ix true).map (fun i => (i, c.len i)) }

/-- SPILL_WAIT_EXPIRY (R361, R362): the command is charged as a dispatch and sent. -/
def execSpillWaitExpiry (id : Nat) (port : Fin 2) : State → Out :=
  onDevM (fun m d =>
    match findCmd d id with
    | none => d
    | some c =>
      if !mayStart d || !spillable m d port c then d
      else
        let (n, d) := if c.draws = 0 && drawsFor c.op (partsOf d c) then
            let (n, d) := drawNat d
            (n + 1, d)
          else (c.draws, d)
        let c := { c with draws := n }
        let r := spillReqOf m d c
        let (c, d) := chargeCmd c (partsOf d c) d
        let o : SpillOut := { cmd := id, port := port, until_ := d.clk + 10000000 + serviceTime d c }
        let d := setCmd { c with stage := .spilled } (stopGather id d)
        sendOn port false (.spillReqFlit port r)
          { d with board := { d.board with spillOut := d.board.spillOut ++ [o] } })

/-- The local copy a mirror handle names, for a slice: its index, if it is ACTIVE. -/
def copyOf (d : Dev) (s : Nat) (h : Word32) : Option Nat :=
  if 0x10000 ≤ h.toNat && h.toNat < 0x11000 then
    match tfind d.board.midTable (h.toNat - 0x10000) with
    | some i => if (d.ent i).st == .active && (d.ent i).owner == s then some i else none
    | none => none
  else none

/-- Descriptors of a spilled command: its inputs and outputs by number. -/
def spillBody (r : SpillReq) : Nat × Bytes :=
  let n := r.inputs.length + r.outLens.length
  let one (i : Nat) : Bytes :=
    match r.outLens.find? (fun (e : Nat × Nat) => e.1 == i) with
    | some e => zeros 8 ++ leBytes 4 e.2 ++ leBytes 4 16
    | none => zeros 8 ++ leBytes 4 (((r.inputs.find? (fun (e : Nat × Bytes) => e.1 == i)).map (·.2.length)).getD 0) ++ zeros 4
  (n, (List.range n).flatMap one)

/-- A command run for a neighbour: it belongs to the ring account and holds no slot. -/
def foreignCmd (d : Dev) (port src : Nat) (r : SpillReq) (o : Op) (keys : List KeyRes) : Cmd :=
  let b := spillBody r
  { id := d.nextId, slice := 256, queue := 0, ring := 0, push := none, pos := 0,
    pkt := { flags := 0, opcode := r.opcode, tag := 0, notBefore := 0, keys := r.handles.map BitVec.toNat,
             param := r.param, ndesc := b.1, inlineLen := 0, body := b.2, contOk := true, pushFault := false },
    op := o, stage := .ready, refused := false, wasHeld := false, readyAt := d.clk, keys := keys, classes := [],
    inputs := r.inputs.foldl (fun t (e : Nat × Bytes) => tset t e.1 e.2) [], dmaErr := none, units := [], charge := [],
    startAt := 0, endAt := 0, overlap := false, retried := false, front := false, saved := none, entry := none,
    undo := none, otIndex := none, relUnits := 0, stageUnits := 0, audit := 0, token := none,
    foreign := some { port := port, src := src, req := r }, chan := none, banks := (0, 0), order := 0, revs := (0, 0), hits := [], ranAway := false, noSpill := true,
    draws := 0, outcome := none, outLen := 0, time := 0 }

/-- SPILL_REQUEST (R362): scheduled under the ring account, or returned unrun where a copy is not ACTIVE. -/
def execSpillRequest (port : Fin 2) (h : FlitHdr) (r : SpillReq) : State → Out :=
  onDev (flitIn port h 4 (fun d =>
    let fields := (List.range 3).filter (fun i => (r.handles.getD i 0) != 0)
    let found := fields.map (fun i => (i, copyOf d r.slice (r.handles.getD i 0)))
    let keys : List KeyRes := found.filterMap (fun (e : Nat × Option Nat) =>
      e.2.map (fun j => { field := e.1, idx := j, handle := handleOf j (d.ent j).gen, ent := d.ent j }))
    match opOfCode r.opcode with
    | none => sendOn port false (.spillRespFlit port r.id .unrun) d
    | some o =>
      if found.any (fun (e : Nat × Option Nat) => e.2.isNone) then sendOn port false (.spillRespFlit port r.id .unrun) d
      else
        let c := foreignCmd d port h.src r o keys
        { d with nextId := d.nextId + 1, cmds := d.cmds ++ [{ c with classes := classesOf d c }] }))

/-- Every status code. -/
def allStatus : List Status := [.ok, .okRetried, .okClamped, .segmentAccepted, .verifyFail]
  ++ [.inputInvalid, .authFail, .aborted, .faultDetected, .invariantFail, .keysErased, .entropyFail]
  ++ [.policyRefused, .fieldRejected, .packetMalformed, .paramUnsupported, .lengthMismatch, .keyUsageDenied]
  ++ [.keyBlobInvalid, .keyCheckFail, .resourceQuota, .engineUnavailable, .dmaBusError, .dmaLateError]

/-- The status that a code names. -/
def statusOf (n : Nat) : Option Status := allStatus.find? (fun s => statusCode s == n)

/-- SPILL_RESPONSE (R362): the outputs to write, or a command to run here after all. A late one is discarded. -/
def execSpillResponse (port : Fin 2) (h : FlitHdr) (id : Nat) (r : SpillResp) : State → Out :=
  onDev (flitIn port h 5 (fun d =>
    match findCmd d id with
    | none => d
    | some c =>
      if c.stage != .spilled || !d.board.spillOut.any (fun o => o.cmd == id && o.port == port.val) then d
      else
        match r with
        | .unrun => runLocally id d
        | .ran code outs result =>
          match statusOf code with
          | none => runLocally id d
          | some st =>
            let d := { d with board := { d.board with spillOut := d.board.spillOut.filter (fun o => o.cmd != id) } }
            let mine := outs.filter (fun (e : Nat × Bytes) =>
              decide (e.1 < c.pkt.ndesc) && (c.pkt.desc e.1).isOut && decide (e.2.length ≤ c.len e.1))
            setCmd { c with stage := .results, ranAway := true,
                            outcome := some { status := st, outs := mine, result := fit 8 result } } d))

/-- SPILL_TIMEOUT (R362): no response in time: the command runs here, and vector 452. -/
def execSpillTimeout (id : Nat) : State → Out :=
  onDev (fun d =>
    if d.alive && d.board.spillOut.any (fun o => o.cmd == id && decide (o.until_ ≤ d.clk)) then
      raisePf0 452 (runLocally id d)
    else d)

end Sys2Proof.Machine
end

