-- ==== Sys2Proof/Machine/Sv16.lean ====
section
/-!
DEFINITION. The instructions of the SV16 (R444 to R448 [16]), each carried out at Linen's PC.
-/
namespace Sys2Proof.Machine

/-- Done, and on to the next instruction. -/
def goOn (d : Dev) (m : Memory) : SvEnd := .done d m none

/-- A result into a register, with its flags. -/
def setWith (rd : Nat) (r : Word16 × Flags) (d : Dev) (m : Memory) : SvEnd := goOn (svSet rd r.1 (svFlags r.2 d)) m

/-- A two-operand instruction: the result of `f` on Rd, the operand and the flags before; written where `write`. -/
def svArith (write : Bool) (f : Word16 → Word16 → Flags → Word16 × Flags) (rd : Fin 16) (b : SvSrc) : State → Out :=
  svStep (srcWords b) false .any (fun d m =>
    let r := f (svReg d rd) (srcVal d b) (flagsOf d.linen.sr)
    if write then setWith rd r d m else goOn (svFlags r.2 d) m)

/-- A one-operand instruction. -/
def svUnary (f : Word16 → Flags → Word16 × Flags) (rd : Fin 16) : State → Out :=
  svStep 1 false .any (fun d m => setWith rd (f (svReg d rd) (flagsOf d.linen.sr)) d m)

/-- A shift or a rotate: the count is the low 5 bits of its operand (R447). -/
def svShift (f : Word16 → Nat → Word16 × Flags) (rd : Fin 16) (c : SvSrc) : State → Out :=
  svStep (srcWords c) false .any (fun d m => setWith rd (f (svReg d rd) ((srcVal d c).toNat % 32)) d m)

/-- Accumulator `ac`. -/
def Linen.acc (l : Linen) (ac : Bool) : Word32 := if ac then l.ac1 else l.ac0

/-- The device with an accumulator written. -/
def svAcc (ac : Bool) (v : Word32) (d : Dev) : Dev :=
  modLinen (fun l => if ac then { l with ac1 := v } else { l with ac0 := v }) d

/-- A multiply instruction. -/
def svMul (f : Word32 → Word16 → Word16 → Flags → Word32 × Flags) (ac : Bool) (ra rb : Fin 16) : State → Out :=
  svStep 1 false .any (fun d m =>
    let r := f (d.linen.acc ac) (svReg d ra) (svReg d rb) (flagsOf d.linen.sr)
    goOn (svAcc ac r.1 (svFlags r.2 d)) m)

/-- A load of the word at the stack pointer, which then steps up. -/
def popSp (d : Dev) (m : Memory) : Option (Word16 × Dev) :=
  match dataRead d m d.linen.sp.toNat with
  | some (v, d) => some (v, svSet 8 (d.linen.sp + 1) d)
  | none => none

/-- A push through the stack pointer in force. -/
def pushSp (v : Word16) (d : Dev) (m : Memory) : Option (Dev × Memory) :=
  let a := d.linen.sp - 1
  match dataWrite d m a.toNat v with
  | some m => some (svSet 8 a d, m)
  | none => none

/-! Control (0x00 to 0x0B). -/

/-- NOP. -/
def execSvNop : State → Out := svStep 1 false .any goOn

/-- WAIT: until an enabled interrupt or the NMI. -/
def execSvWait : State → Out :=
  svStep 1 true .never (fun d m => goOn (modLinen (fun l => { l with waiting := true }) d) m)

/-- RET. -/
def execSvRet : State → Out :=
  svStep 1 false .never (fun d m =>
    match popSp d m with
    | some (v, d) => .done d m (some v)
    | none => .trap 2)

/-- RETI: PC, SR, REPC from the kernel stack; the priority being served ends, and a REPI whose SR.RA is restored as 1
resumes. -/
def execSvReti : State → Out :=
  svStep 1 true .never (fun d m =>
    match popSp d m with
    | none => .trap 2
    | some (pc, d) =>
      match popSp d m with
      | none => .trap 2
      | some (sr, d) =>
        match popSp d m with
        | none => .trap 2
        | some (repc, d) =>
          .done (modLinen (fun l => { l with
            sr := sr &&& srMask, repc := repc, resume := sr.getLsbD 8, nest := l.nest.drop 1 }) d) m (some pc))

/-- EI: IEH and IEL set. -/
def execSvEi : State → Out :=
  svStep 1 true .never (fun d m => goOn (modLinen (fun l => { l with sr := l.sr ||| 0x3000 }) d) m)

/-- DI: IEH and IEL cleared. -/
def execSvDi : State → Out :=
  svStep 1 true .never (fun d m => goOn (modLinen (fun l => { l with sr := l.sr &&& 0xCFFF }) d) m)

/-- REPI: the count is Rs, or REPC when a RETI has just restored an interrupted one (R448; a REPI of the handler itself
reads its Rs though SR.RA is 1, DEDUCED, log 27). -/
def execSvRepi (rs : Fin 16) : State → Out :=
  svStep 1 false .never (fun d m =>
    let l := d.linen
    let n := if l.resume then l.repc else svReg d rs
    let pc := l.pc + 1
    .done (modLinen (fun l => { l with
      sr := if l.resume then l.sr &&& 0xFEFF else l.sr, resume := false,
      rep := some (l.pc.toNat, false, n.toNat) }) d) m (some pc))

/-- REPN, k from 1 to 64 as bits [5:0] hold k − 1. -/
def execSvRepn (k : Fin 64) : State → Out :=
  svStep 1 false .never (fun d m =>
    let pc := d.linen.pc + 1
    .done (modLinen (fun l => { l with rep := some (l.pc.toNat, true, k.val + 1) }) d) m (some pc))

/-- SYS: vector 48 + t. -/
def execSvSys (t : Fin 16) : State → Out := svStep 1 false .never (fun _ _ => .sys (48 + t.val))

/-- CLRDZ. -/
def execSvClrdz : State → Out :=
  svStep 1 false .any (fun d m => goOn (modLinen (fun l => { l with sr := l.sr &&& 0xFFEF }) d) m)

/-- MFSR. -/
def execSvMfsr (rd : Fin 16) : State → Out := svStep 1 false .any (fun d m => goOn (svSet rd d.linen.sr d) m)

/-- MTSR: in policy mode only bits [4:0] are written. -/
def execSvMtsr (rs : Fin 16) : State → Out :=
  svStep 1 false .never (fun d m =>
    let v := svReg d rs
    goOn (modLinen (fun l => { l with
      sr := if l.policyMode then (l.sr &&& 0xFFE0) ||| (v &&& 0x001F) else v &&& srMask }) d) m)

/-! Moves, loads, stores (0x10 to 0x1D). -/

/-- MOV. -/
def execSvMov (rd : Fin 16) (rs : Fin 16) : State → Out :=
  svStep 1 false .any (fun d m => goOn (svSet rd (svReg d rs) d) m)

/-- LDI. -/
def execSvLdi (rd : Fin 16) (imm : BitVec 16) : State → Out :=
  svStep 2 false .any (fun d m => goOn (svSet rd imm d) m)

/-- LD: the index register steps; the value loaded is written last. -/
def execSvLd (rd : Fin 16) (ea : SvEa) : State → Out :=
  svStep (eaWords ea) false .any (fun d m =>
    if !eaOk ea then .trap 0
    else
      match dataRead d m (eaAddr d ea).toNat with
      | some (v, d) => goOn (svSet rd v (eaStep ea d)) m
      | none => .trap 2)

/-- ST: Rs is read before the index register steps. -/
def execSvSt (ea : SvEa) (rs : Fin 16) : State → Out :=
  svStep (eaWords ea) false .any (fun d m =>
    if !eaOk ea then .trap 0
    else
      match dataWrite d m (eaAddr d ea).toNat (svReg d rs) with
      | some m => goOn (eaStep ea d) m
      | none => .trap 2)

/-- PUSH. -/
def execSvPush (rs : Fin 16) : State → Out :=
  svStep 1 false .any (fun d m =>
    match pushSp (svReg d rs) d m with
    | some (d, m) => goOn d m
    | none => .trap 2)

/-- POP. -/
def execSvPop (rd : Fin 16) : State → Out :=
  svStep 1 false .any (fun d m =>
    match popSp d m with
    | some (v, d) => goOn (svSet rd v d) m
    | none => .trap 2)

/-! Ports and instruction space (0x1E to 0x25). -/

/-- IN. -/
def execSvIn (rd : Fin 16) (port : SvPort) : State → Out :=
  svStep (portWords port) false .io (fun d m =>
    if !portOk port then .trap 0
    else
      match portRead (portNo d port) d with
      | .done v d => goOn (svSet rd v d) m
      | .stall => .stall
      | .fault => .trap 3)

/-- OUT. -/
def execSvOut (port : SvPort) (rs : Fin 16) : State → Out :=
  svStep (portWords port) false .io (fun d m =>
    if !portOk port then .trap 0
    else
      match portWrite (portNo d port) (svReg d rs) d with
      | .done _ d => goOn d m
      | .stall => .stall
      | .fault => .trap 3)

/-- LDP. -/
def execSvLdp (rd : Fin 16) (xs : Fin 16) : State → Out :=
  svStep 1 false .any (fun d m =>
    if !isIndex xs then .trap 0 else goOn (svSet rd (instrRead m (svReg d xs).toNat) d) m)

/-- STP: a write to mask ROM gives a data-space fault (R440). -/
def execSvStp (xd : Fin 16) (rs : Fin 16) : State → Out :=
  svStep 1 true .any (fun d m =>
    let a := (svReg d xd).toNat
    if !isIndex xd then .trap 0
    else if a < 0x8000 then .trap 2
    else goOn d { m with iram := memPut m.iram a (svReg d rs) })

/-- OUTM: port Xd from memory at Xs, which steps up. -/
def execSvOutm (xd : Fin 16) (xs : Fin 16) : State → Out :=
  svStep 1 false .io (fun d m =>
    if !isIndex xd || !isIndex xs then .trap 0
    else
      let p := (svReg d xd).toNat % 4096
      match dataRead d m (svReg d xs).toNat with
      | none => .trap 2
      | some (v, d) =>
        match portWrite p v d with
        | .done _ d => goOn (svSet xs (svReg d xs + 1) d) m
        | .stall => .stall
        | .fault => .trap 3)

/-- INM: memory at Xd, which steps up, from port Xs. -/
def execSvInm (xd : Fin 16) (xs : Fin 16) : State → Out :=
  svStep 1 false .io (fun d m =>
    if !isIndex xd || !isIndex xs then .trap 0
    else
      match portRead ((svReg d xs).toNat % 4096) d with
      | .stall => .stall
      | .fault => .trap 3
      | .done v d =>
        match dataWrite d m (svReg d xd).toNat v with
        | some m => goOn (svSet xd (svReg d xd + 1) d) m
        | none => .trap 2)

/-! Arithmetic and logic (0x30 to 0x55). -/

/-- ADD. -/
def execSvAdd (rd : Fin 16) (b : SvSrc) : State → Out := svArith true (fun x y _ => addFlags x y false) rd b

/-- ADC. -/
def execSvAdc (rd : Fin 16) (b : SvSrc) : State → Out := svArith true (fun x y f => addFlags x y f.c) rd b

/-- SUB. -/
def execSvSub (rd : Fin 16) (b : SvSrc) : State → Out := svArith true (fun x y _ => subFlags x y false) rd b

/-- SBC. -/
def execSvSbc (rd : Fin 16) (b : SvSrc) : State → Out := svArith true (fun x y f => subFlags x y f.c) rd b

/-- CMP. -/
def execSvCmp (rd : Fin 16) (b : SvSrc) : State → Out := svArith false (fun x y _ => subFlags x y false) rd b

/-- AND. -/
def execSvAnd (rd : Fin 16) (b : SvSrc) : State → Out := svArith true (fun x y _ => logicFlags (x &&& y)) rd b

/-- OR. -/
def execSvOr (rd : Fin 16) (b : SvSrc) : State → Out := svArith true (fun x y _ => logicFlags (x ||| y)) rd b

/-- XOR. -/
def execSvXor (rd : Fin 16) (b : SvSrc) : State → Out := svArith true (fun x y _ => logicFlags (x ^^^ y)) rd b

/-- TST. -/
def execSvTst (rd : Fin 16) (b : SvSrc) : State → Out := svArith false (fun x y _ => logicFlags (x &&& y)) rd b

/-- NEG. -/
def execSvNeg (rd : Fin 16) : State → Out := svUnary (fun x _ => negFlags x) rd

/-- NOT. -/
def execSvNot (rd : Fin 16) : State → Out := svUnary (fun x _ => logicFlags (~~~x)) rd

/-- INC. -/
def execSvInc (rd : Fin 16) : State → Out := svUnary (fun x f => stepFlags x 1 f.c) rd

/-- DEC. -/
def execSvDec (rd : Fin 16) : State → Out := svUnary (fun x f => stepFlags x (-1) f.c) rd

/-- SWAPB. -/
def execSvSwapb (rd : Fin 16) : State → Out := svUnary (fun x _ => logicFlags (x.rotateLeft 8)) rd

/-- SXB. -/
def execSvSxb (rd : Fin 16) : State → Out := svUnary (fun x _ => logicFlags ((x.setWidth 8).signExtend 16)) rd

/-! Shifts (0x58 to 0x65). -/

/-- LSL. -/
def execSvLsl (rd : Fin 16) (c : SvSrc) : State → Out := svShift lslFlags rd c

/-- LSR. -/
def execSvLsr (rd : Fin 16) (c : SvSrc) : State → Out := svShift lsrFlags rd c

/-- ASR. -/
def execSvAsr (rd : Fin 16) (c : SvSrc) : State → Out := svShift asrFlags rd c

/-- ASL. -/
def execSvAsl (rd : Fin 16) (c : SvSrc) : State → Out := svShift aslFlags rd c

/-- ROL. -/
def execSvRol (rd : Fin 16) (c : SvSrc) : State → Out := svShift rolFlags rd c

/-- ROR. -/
def execSvRor (rd : Fin 16) (c : SvSrc) : State → Out := svShift rorFlags rd c

/-! Multiplication, division, accumulators (0x68 to 0x76). -/

/-- SMUL. -/
def execSvSmul (ac : Bool) (ra rb : Fin 16) : State → Out := svMul (fun _ x y _ => mulFlags true x y) ac ra rb

/-- UMUL. -/
def execSvUmul (ac : Bool) (ra rb : Fin 16) : State → Out := svMul (fun _ x y _ => mulFlags false x y) ac ra rb

/-- SMAC. -/
def execSvSmac (ac : Bool) (ra rb : Fin 16) : State → Out := svMul smacFlags ac ra rb

/-- UMAC. -/
def execSvUmac (ac : Bool) (ra rb : Fin 16) : State → Out := svMul umacFlags ac ra rb

/-- SDIV and UDIV: Vd must be V0, V2, V4 or V6; DZ is set and never cleared here (R446). -/
def svDiv (signed : Bool) (vd rs : Fin 16) : State → Out :=
  svStep 1 false .any (fun d m =>
    if 8 ≤ vd.val || vd.val % 2 = 1 then .trap 0
    else
      let (q, r, f, dz) := divide signed (svReg d vd) (svReg d rs)
      let d := svFlags f d
      let d := modLinen (fun l => { l with sr := if dz then l.sr ||| 0x0010 else l.sr }) d
      goOn (svSet (vd.val + 1) r (svSet vd q d)) m)

/-- SDIV. -/
def execSvSdiv (vd rs : Fin 16) : State → Out := svDiv true vd rs

/-- UDIV. -/
def execSvUdiv (vd rs : Fin 16) : State → Out := svDiv false vd rs

/-- MOVL. -/
def execSvMovl (rd : Fin 16) (ac : Bool) : State → Out :=
  svStep 1 false .any (fun d m => goOn (svSet rd ((d.linen.acc ac).setWidth 16) d) m)

/-- MOVH. -/
def execSvMovh (rd : Fin 16) (ac : Bool) : State → Out :=
  svStep 1 false .any (fun d m => goOn (svSet rd ((d.linen.acc ac >>> 16).setWidth 16) d) m)

/-- MVTL. -/
def execSvMvtl (ac : Bool) (rs : Fin 16) : State → Out :=
  svStep 1 false .any (fun d m =>
    goOn (svAcc ac ((d.linen.acc ac &&& 0xFFFF0000) ||| (svReg d rs).setWidth 32) d) m)

/-- MVTH. -/
def execSvMvth (ac : Bool) (rs : Fin 16) : State → Out :=
  svStep 1 false .any (fun d m =>
    goOn (svAcc ac ((d.linen.acc ac &&& 0x0000FFFF) ||| ((svReg d rs).setWidth 32 <<< 16)) d) m)

/-- CLRA. -/
def execSvClra (ac : Bool) : State → Out := svStep 1 false .any (fun d m => goOn (svAcc ac 0 d) m)

/-! Jumps (0x80 to 0x9F). -/

/-- JMP. -/
def execSvJmp (t : SvTarget) : State → Out :=
  svStep (targetWords t) false .never (fun d m => if targetOk t then .done d m (some (targetAddr d t)) else .trap 0)

/-- CALL: the target is read before the push. -/
def execSvCall (t : SvTarget) : State → Out :=
  svStep (targetWords t) false .never (fun d m =>
    if !targetOk t then .trap 0
    else
      match pushSp (d.linen.pc + BitVec.ofNat 16 (targetWords t)) d m with
      | some (d', m) => .done d' m (some (targetAddr d t))
      | none => .trap 2)

/-- Bcc. -/
def execSvBcc (cc : Fin 16) (disp : BitVec 8) : State → Out :=
  svStep 1 false .never (fun d m =>
    .done d m (if condition cc d.linen.sr then some (d.linen.pc + 1 + disp.signExtend 16) else none))

end Sys2Proof.Machine
end

