-- ==== Sys2Proof/Machine/Dispatch.lean ====
section
/-!
DEFINITION. The dispatch of a command to its meaning, one arm per constructor of Instr.
-/
namespace Sys2Proof.Machine

/-- The effect of command `i` on everything but the queue. -/
def exec (i : Instr) (s : State) : Host.Outcome State Fault Refusal :=
  match i with
  | .startup straps badUnits badEntropy => Sys2Proof.Machine.execStartup straps badUnits badEntropy s
  | .porstNAssert => Sys2Proof.Machine.execPorstNAssert s
  | .perstNAssert => Sys2Proof.Machine.execPerstNAssert s
  | .supplyReset supply => Sys2Proof.Machine.execSupplyReset supply s
  | .linkLoss => Sys2Proof.Machine.execLinkLoss s
  | .flrPf0 => Sys2Proof.Machine.execFlrPf0 s
  | .flrPf1 => Sys2Proof.Machine.execFlrPf1 s
  | .mainPowerLoss => Sys2Proof.Machine.execMainPowerLoss s
  | .batteryAlarm source => Sys2Proof.Machine.execBatteryAlarm source s
  | .thermTrip tj => Sys2Proof.Machine.execThermTrip tj s
  | .spdmRequest path req => Sys2Proof.Machine.execSpdmRequest path req s
  | .ideKm stream session keys => Sys2Proof.Machine.execIdeKm stream session keys s
  | .atsInvalidate pasid pages => Sys2Proof.Machine.execAtsInvalidate pasid pages s
  | .tapInstruction ti => Sys2Proof.Machine.execTapInstruction ti s
  | .tlpOutsideIde kind => Sys2Proof.Machine.execTlpOutsideIde kind s
  | .registerWrite bar off width value => Sys2Proof.Machine.execRegisterWrite bar off width value s
  | .sqDoorbell sl q v => Sys2Proof.Machine.execSqDoorbell sl q v s
  | .cqDoorbell sl r v => Sys2Proof.Machine.execCqDoorbell sl r v s
  | .sqRestart sl q v => Sys2Proof.Machine.execSqRestart sl q v s
  | .sqEnable sl q v => Sys2Proof.Machine.execSqEnable sl q v s
  | .sqDisable sl q => Sys2Proof.Machine.execSqDisable sl q s
  | .cqEnable sl r v => Sys2Proof.Machine.execCqEnable sl r v s
  | .cqDisable sl r => Sys2Proof.Machine.execCqDisable sl r s
  | .sqDrainDone sl q => Sys2Proof.Machine.execSqDrainDone sl q s
  | .sqPoll sl q => Sys2Proof.Machine.execSqPoll sl q s
  | .entryFetch sl q rd aux ciOk => Sys2Proof.Machine.execEntryFetch sl q rd aux ciOk s
  | .continuationReread sl q conts aux ciOk => Sys2Proof.Machine.execContinuationReread sl q conts aux ciOk s
  | .granule0Reread sl q rd aux ciOk => Sys2Proof.Machine.execGranule0Reread sl q rd aux ciOk s
  | .granule0Timeout sl q => Sys2Proof.Machine.execGranule0Timeout sl q s
  | .pushSlotPost sl slot off data => Sys2Proof.Machine.execPushSlotPost sl slot off data s
  | .pushEntryAdmit sl slot aux => Sys2Proof.Machine.execPushEntryAdmit sl slot aux s
  | .holdExpiry id => Sys2Proof.Machine.execHoldExpiry id s
  | .schedulingRound => Sys2Proof.Machine.execSchedulingRound s
  | .commandDispatch k => Sys2Proof.Machine.execCommandDispatch k s
  | .engineJobEnd id => Sys2Proof.Machine.execEngineJobEnd id s
  | .resultsWritten id w => Sys2Proof.Machine.execResultsWritten id w s
  | .completionRelease sl r failed => Sys2Proof.Machine.execCompletionRelease sl r failed s
  | .cqCoalesceTimeout sl r => Sys2Proof.Machine.execCqCoalesceTimeout sl r s
  | .streamIdleTimeout sl sid => Sys2Proof.Machine.execStreamIdleTimeout sl sid s
  | .configApply sl => Sys2Proof.Machine.execConfigApply sl s
  | .pasidUnbindDone sl slot => Sys2Proof.Machine.execPasidUnbindDone sl slot s
  | .xwOwnerWrite sl page v => Sys2Proof.Machine.execXwOwnerWrite sl page v s
  | .xwReclaimApply sl page => Sys2Proof.Machine.execXwReclaimApply sl page s
  | .xwBar2Access sl off width wr => Sys2Proof.Machine.execXwBar2Access sl off width wr s
  | .t2mPost sl => Sys2Proof.Machine.execT2mPost sl s
  | .m2tAck sl => Sys2Proof.Machine.execM2tAck sl s
  | .m2tPost sl => Sys2Proof.Machine.execM2tPost sl s
  | .t2mAck sl => Sys2Proof.Machine.execT2mAck sl s
  | .intMaskWrite sl v => Sys2Proof.Machine.execIntMaskWrite sl v s
  | .intPendingClear sl v => Sys2Proof.Machine.execIntPendingClear sl v s
  | .ideCtrlWrite v => Sys2Proof.Machine.execIdeCtrlWrite v s
  | .sliceCreate id => Sys2Proof.Machine.execSliceCreate id s
  | .sliceConfigure id => Sys2Proof.Machine.execSliceConfigure id s
  | .sliceDestroy id => Sys2Proof.Machine.execSliceDestroy id s
  | .pasidBind id => Sys2Proof.Machine.execPasidBind id s
  | .pasidUnbind id => Sys2Proof.Machine.execPasidUnbind id s
  | .slicePause id => Sys2Proof.Machine.execSlicePause id s
  | .sliceResume id => Sys2Proof.Machine.execSliceResume id s
  | .engineService id => Sys2Proof.Machine.execEngineService id s
  | .unitDrainDone k u => Sys2Proof.Machine.execUnitDrainDone k u s
  | .engineTestEnd k u pass => Sys2Proof.Machine.execEngineTestEnd k u pass s
  | .tamperPolicySet id => Sys2Proof.Machine.execTamperPolicySet id s
  | .tamperResume id => Sys2Proof.Machine.execTamperResume id s
  | .clearLatch id => Sys2Proof.Machine.execClearLatch id s
  | .fuse id => Sys2Proof.Machine.execFuse id s
  | .patchLoad id => Sys2Proof.Machine.execPatchLoad id s
  | .bankSwitch extension => Sys2Proof.Machine.execBankSwitch extension s
  | .oldBankDrainDone => Sys2Proof.Machine.execOldBankDrainDone s
  | .moduleLoad id => Sys2Proof.Machine.execModuleLoad id s
  | .policyLoad id => Sys2Proof.Machine.execPolicyLoad id s
  | .keyGenerate id => Sys2Proof.Machine.execKeyGenerate id s
  | .keyImportBlob id => Sys2Proof.Machine.execKeyImportBlob id s
  | .keyExportBlob id => Sys2Proof.Machine.execKeyExportBlob id s
  | .keyDestroy id => Sys2Proof.Machine.execKeyDestroy id s
  | .keyReplace id => Sys2Proof.Machine.execKeyReplace id s
  | .keyRevoke id => Sys2Proof.Machine.execKeyRevoke id s
  | .keyDerive id => Sys2Proof.Machine.execKeyDerive id s
  | .keyAttrGet id => Sys2Proof.Machine.execKeyAttrGet id s
  | .keyRestrict id => Sys2Proof.Machine.execKeyRestrict id s
  | .keyWrap id => Sys2Proof.Machine.execKeyWrap id s
  | .keyUnwrap id => Sys2Proof.Machine.execKeyUnwrap id s
  | .keyPublicGet id => Sys2Proof.Machine.execKeyPublicGet id s
  | .mlkemKeygen id => Sys2Proof.Machine.execMlkemKeygen id s
  | .mlkemEncaps id => Sys2Proof.Machine.execMlkemEncaps id s
  | .mlkemDecaps id => Sys2Proof.Machine.execMlkemDecaps id s
  | .mldsaKeygen id => Sys2Proof.Machine.execMldsaKeygen id s
  | .mldsaSign id => Sys2Proof.Machine.execMldsaSign id s
  | .mldsaVerify id => Sys2Proof.Machine.execMldsaVerify id s
  | .fndsaKeygen id => Sys2Proof.Machine.execFndsaKeygen id s
  | .fndsaSign id => Sys2Proof.Machine.execFndsaSign id s
  | .fndsaVerify id => Sys2Proof.Machine.execFndsaVerify id s
  | .hybridKemEncaps id => Sys2Proof.Machine.execHybridKemEncaps id s
  | .hybridKemDecaps id => Sys2Proof.Machine.execHybridKemDecaps id s
  | .compositeSign id => Sys2Proof.Machine.execCompositeSign id s
  | .compositeVerify id => Sys2Proof.Machine.execCompositeVerify id s
  | .hash id => Sys2Proof.Machine.execHash id s
  | .xof id => Sys2Proof.Machine.execXof id s
  | .hmacGen id => Sys2Proof.Machine.execHmacGen id s
  | .hmacVerify id => Sys2Proof.Machine.execHmacVerify id s
  | .kmacGen id => Sys2Proof.Machine.execKmacGen id s
  | .kmacVerify id => Sys2Proof.Machine.execKmacVerify id s
  | .slhdsaKeygen id => Sys2Proof.Machine.execSlhdsaKeygen id s
  | .slhdsaSign id => Sys2Proof.Machine.execSlhdsaSign id s
  | .slhdsaVerify id => Sys2Proof.Machine.execSlhdsaVerify id s
  | .lmsKeygen id => Sys2Proof.Machine.execLmsKeygen id s
  | .lmsSign id => Sys2Proof.Machine.execLmsSign id s
  | .lmsVerify id => Sys2Proof.Machine.execLmsVerify id s
  | .lmsReserve id => Sys2Proof.Machine.execLmsReserve id s
  | .xmssKeygen id => Sys2Proof.Machine.execXmssKeygen id s
  | .xmssSign id => Sys2Proof.Machine.execXmssSign id s
  | .xmssVerify id => Sys2Proof.Machine.execXmssVerify id s
  | .xmssReserve id => Sys2Proof.Machine.execXmssReserve id s
  | .hqcKeygen id => Sys2Proof.Machine.execHqcKeygen id s
  | .hqcEncaps id => Sys2Proof.Machine.execHqcEncaps id s
  | .hqcDecaps id => Sys2Proof.Machine.execHqcDecaps id s
  | .mceKeygen id => Sys2Proof.Machine.execMceKeygen id s
  | .mceEncaps id => Sys2Proof.Machine.execMceEncaps id s
  | .mceDecaps id => Sys2Proof.Machine.execMceDecaps id s
  | .rsaKeygen id => Sys2Proof.Machine.execRsaKeygen id s
  | .rsaSign id => Sys2Proof.Machine.execRsaSign id s
  | .rsaVerify id => Sys2Proof.Machine.execRsaVerify id s
  | .rsaEncrypt id => Sys2Proof.Machine.execRsaEncrypt id s
  | .rsaDecrypt id => Sys2Proof.Machine.execRsaDecrypt id s
  | .ecKeygen id => Sys2Proof.Machine.execEcKeygen id s
  | .ecdsaSign id => Sys2Proof.Machine.execEcdsaSign id s
  | .ecdsaVerify id => Sys2Proof.Machine.execEcdsaVerify id s
  | .ecdh id => Sys2Proof.Machine.execEcdh id s
  | .eddsaSign id => Sys2Proof.Machine.execEddsaSign id s
  | .eddsaVerify id => Sys2Proof.Machine.execEddsaVerify id s
  | .xdh id => Sys2Proof.Machine.execXdh id s
  | .encrypt id => Sys2Proof.Machine.execEncrypt id s
  | .decrypt id => Sys2Proof.Machine.execDecrypt id s
  | .aeadEncrypt id => Sys2Proof.Machine.execAeadEncrypt id s
  | .aeadDecrypt id => Sys2Proof.Machine.execAeadDecrypt id s
  | .macGen id => Sys2Proof.Machine.execMacGen id s
  | .macVerify id => Sys2Proof.Machine.execMacVerify id s
  | .random id => Sys2Proof.Machine.execRandom id s
  | .pinTranslate id => Sys2Proof.Machine.execPinTranslate id s
  | .pvvGenerate id => Sys2Proof.Machine.execPvvGenerate id s
  | .pvvVerify id => Sys2Proof.Machine.execPvvVerify id s
  | .cvcGenerate id => Sys2Proof.Machine.execCvcGenerate id s
  | .cvcVerify id => Sys2Proof.Machine.execCvcVerify id s
  | .dukptAesTranslate id => Sys2Proof.Machine.execDukptAesTranslate id s
  | .dukptTdesTranslate id => Sys2Proof.Machine.execDukptTdesTranslate id s
  | .dukptMacVerify id => Sys2Proof.Machine.execDukptMacVerify id s
  | .ipekDerive id => Sys2Proof.Machine.execIpekDerive id s
  | .arqcVerify id => Sys2Proof.Machine.execArqcVerify id s
  | .arpcGenerate id => Sys2Proof.Machine.execArpcGenerate id s
  | .retailMacGen id => Sys2Proof.Machine.execRetailMacGen id s
  | .retailMacVerify id => Sys2Proof.Machine.execRetailMacVerify id s
  | .keyblockImport id => Sys2Proof.Machine.execKeyblockImport id s
  | .keyblockExport id => Sys2Proof.Machine.execKeyblockExport id s
  | .timeRead id => Sys2Proof.Machine.execTimeRead id s
  | .schedAdd id => Sys2Proof.Machine.execSchedAdd id s
  | .schedCancel id => Sys2Proof.Machine.execSchedCancel id s
  | .schedList id => Sys2Proof.Machine.execSchedList id s
  | .schedActionFire idx => Sys2Proof.Machine.execSchedActionFire idx s
  | .boardBind id => Sys2Proof.Machine.execBoardBind id s
  | .bindFlit port h b => Sys2Proof.Machine.execBindFlit port h b s
  | .bindTimeout => Sys2Proof.Machine.execBindTimeout s
  | .ringStatus id => Sys2Proof.Machine.execRingStatus id s
  | .spillConfig id => Sys2Proof.Machine.execSpillConfig id s
  | .mirrorPut id => Sys2Proof.Machine.execMirrorPut id s
  | .mirrorRemove id => Sys2Proof.Machine.execMirrorRemove id s
  | .mirrorPrepare port h m => Sys2Proof.Machine.execMirrorPrepare port h m s
  | .mirrorReply port h mid ack => Sys2Proof.Machine.execMirrorReply port h mid ack s
  | .mirrorSeqWaitEnd mid => Sys2Proof.Machine.execMirrorSeqWaitEnd mid s
  | .mirrorCommit port h mid msn tick => Sys2Proof.Machine.execMirrorCommit port h mid msn tick s
  | .mirrorAbort port h mid => Sys2Proof.Machine.execMirrorAbort port h mid s
  | .mirrorOriginTimeout mid => Sys2Proof.Machine.execMirrorOriginTimeout mid s
  | .resyncRequest port h afterMsn => Sys2Proof.Machine.execResyncRequest port h afterMsn s
  | .boardEntryFlit port h b => Sys2Proof.Machine.execBoardEntryFlit port h b s
  | .linkControlFlit port h reports => Sys2Proof.Machine.execLinkControlFlit port h reports s
  | .portTrained port lanes4 nonces => Sys2Proof.Machine.execPortTrained port lanes4 nonces s
  | .portDown port => Sys2Proof.Machine.execPortDown port s
  | .tsyncDrive => Sys2Proof.Machine.execTsyncDrive s
  | .timeMsgSend => Sys2Proof.Machine.execTimeMsgSend s
  | .tsyncEdge err => Sys2Proof.Machine.execTsyncEdge err s
  | .tsyncEdgeMissing => Sys2Proof.Machine.execTsyncEdgeMissing s
  | .timeFlit port h edgeTick sinceEdge => Sys2Proof.Machine.execTimeFlit port h edgeTick sinceEdge s
  | .masterStartupSilence => Sys2Proof.Machine.execMasterStartupSilence s
  | .masterTakeover => Sys2Proof.Machine.execMasterTakeover s
  | .tamperBusLow => Sys2Proof.Machine.execTamperBusLow s
  | .tamperFlit port h pos level => Sys2Proof.Machine.execTamperFlit port h pos level s
  | .creditAdvertSend => Sys2Proof.Machine.execCreditAdvertSend s
  | .creditAdvertFlit port h free shareIn members => Sys2Proof.Machine.execCreditAdvertFlit port h free shareIn members s
  | .spillWaitExpiry id port => Sys2Proof.Machine.execSpillWaitExpiry id port s
  | .spillRequest port h r => Sys2Proof.Machine.execSpillRequest port h r s
  | .spillResponse port h id r => Sys2Proof.Machine.execSpillResponse port h id r s
  | .spillTimeout id => Sys2Proof.Machine.execSpillTimeout id s
  | .lcTransition id => Sys2Proof.Machine.execLcTransition id s
  | .tokenLockoutEnd => Sys2Proof.Machine.execTokenLockoutEnd s
  | .debugChallengeNonce id => Sys2Proof.Machine.execDebugChallengeNonce id s
  | .debugChallengeResponse id => Sys2Proof.Machine.execDebugChallengeResponse id s
  | .debugNonceExpiry => Sys2Proof.Machine.execDebugNonceExpiry s
  | .identityAttest id => Sys2Proof.Machine.execIdentityAttest id s
  | .approvalNonce id => Sys2Proof.Machine.execApprovalNonce id s
  | .approvalNonceExpiry sl => Sys2Proof.Machine.execApprovalNonceExpiry sl s
  | .custodianAdd id => Sys2Proof.Machine.execCustodianAdd id s
  | .custodianRemove id => Sys2Proof.Machine.execCustodianRemove id s
  | .quorumPolicySet id => Sys2Proof.Machine.execQuorumPolicySet id s
  | .componentOpen id => Sys2Proof.Machine.execComponentOpen id s
  | .componentAdd id => Sys2Proof.Machine.execComponentAdd id s
  | .componentFinish id => Sys2Proof.Machine.execComponentFinish id s
  | .componentAbandon id => Sys2Proof.Machine.execComponentAbandon id s
  | .componentSessionTimeout sl => Sys2Proof.Machine.execComponentSessionTimeout sl s
  | .masterKeyStage id => Sys2Proof.Machine.execMasterKeyStage id s
  | .masterKeyRewrap id => Sys2Proof.Machine.execMasterKeyRewrap id s
  | .masterKeyCommit id => Sys2Proof.Machine.execMasterKeyCommit id s
  | .masterKeyAbandon id => Sys2Proof.Machine.execMasterKeyAbandon id s
  | .masterKeyExport id => Sys2Proof.Machine.execMasterKeyExport id s
  | .masterKeyImport id => Sys2Proof.Machine.execMasterKeyImport id s
  | .sliceDecommission id => Sys2Proof.Machine.execSliceDecommission id s
  | .auditConfigure id => Sys2Proof.Machine.execAuditConfigure id s
  | .auditAck id => Sys2Proof.Machine.execAuditAck id s
  | .auditSeal id => Sys2Proof.Machine.execAuditSeal id s
  | .auditAutoSeal sl => Sys2Proof.Machine.execAuditAutoSeal sl s
  | .auditSealSigned sl => Sys2Proof.Machine.execAuditSealSigned sl s
  | .auditReset id => Sys2Proof.Machine.execAuditReset id s
  | .selfTest id => Sys2Proof.Machine.execSelfTest id s
  | .monitorTestEnd source pass persists => Sys2Proof.Machine.execMonitorTestEnd source pass persists s
  | .katRun id => Sys2Proof.Machine.execKatRun id s
  | .entropyStatus id => Sys2Proof.Machine.execEntropyStatus id s
  | .echo id => Sys2Proof.Machine.execEcho id s
  | .faultInject id => Sys2Proof.Machine.execFaultInject id s
  | .moduleOpcode id => Sys2Proof.Machine.execModuleOpcode id s
  | .tamperAlarm source => Sys2Proof.Machine.execTamperAlarm source s
  | .supplyWarning supply => Sys2Proof.Machine.execSupplyWarning supply s
  | .cautionEnd => Sys2Proof.Machine.execCautionEnd s
  | .cautionTimeout => Sys2Proof.Machine.execCautionTimeout s
  | .faultDetect source addr access cmd => Sys2Proof.Machine.execFaultDetect source addr access cmd s
  | .faultEscalation source => Sys2Proof.Machine.execFaultEscalation source s
  | .fcPendingClear k v retestPass => Sys2Proof.Machine.execFcPendingClear k v retestPass s
  | .fcFirstClr v => Sys2Proof.Machine.execFcFirstClr v s
  | .classEmptyTimeout id => Sys2Proof.Machine.execClassEmptyTimeout id s
  | .powerDomainIdle d => Sys2Proof.Machine.execPowerDomainIdle d s
  | .zenariPortIdle port => Sys2Proof.Machine.execZenariPortIdle port s
  | .hbmZeroiseDone sl => Sys2Proof.Machine.execHbmZeroiseDone sl s
  | .dmaGo c first => Sys2Proof.Machine.execDmaGo c first s
  | .dmaReset c => Sys2Proof.Machine.execDmaReset c s
  | .dmaDescComplete c wr at_ next => Sys2Proof.Machine.execDmaDescComplete c wr at_ next s
  | .dmaReadCompletion t r => Sys2Proof.Machine.execDmaReadCompletion t r s
  | .scrOwnHandover b v => Sys2Proof.Machine.execScrOwnHandover b v s
  | .scrWipeDone b => Sys2Proof.Machine.execScrWipeDone b s
  | .microword sq cx w => Sys2Proof.Machine.execMicroword sq cx w s
  | .microCall sq cx w => Sys2Proof.Machine.execMicroCall sq cx w s
  | .microReturn sq cx w => Sys2Proof.Machine.execMicroReturn sq cx w s
  | .microDispatch sq cx w => Sys2Proof.Machine.execMicroDispatch sq cx w s
  | .microEndRelease sq cx w => Sys2Proof.Machine.execMicroEndRelease sq cx w s
  | .microEndWithhold sq cx w => Sys2Proof.Machine.execMicroEndWithhold sq cx w s
  | .primitiveDone sq cx => Sys2Proof.Machine.execPrimitiveDone sq cx s
  | .moduleOverrun id => Sys2Proof.Machine.execModuleOverrun id s
  | .nttFwd id slot m n => Sys2Proof.Machine.execNttFwd id slot m n s
  | .nttInv id slot m n => Sys2Proof.Machine.execNttInv id slot m n s
  | .pmul id a b d m n => Sys2Proof.Machine.execPmul id a b d m n s
  | .paddPsub id sub a b d m n => Sys2Proof.Machine.execPaddPsub id sub a b d m n s
  | .sampleUniform id seed d m => Sys2Proof.Machine.execSampleUniform id seed d m s
  | .sampleCbd id eta src d m => Sys2Proof.Machine.execSampleCbd id eta src d m s
  | .keccakAbsorb id unit rate src count => Sys2Proof.Machine.execKeccakAbsorb id unit rate src count s
  | .keccakSqueeze id unit d count => Sys2Proof.Machine.execKeccakSqueeze id unit d count s
  | .keyShares id key d => Sys2Proof.Machine.execKeyShares id key d s
  | .damaskZero id first count => Sys2Proof.Machine.execDamaskZero id first count s
  | .setModulus id off w => Sys2Proof.Machine.execSetModulus id off w s
  | .montMul id a b d => Sys2Proof.Machine.execMontMul id a b d s
  | .montSqr id a d => Sys2Proof.Machine.execMontSqr id a d s
  | .mac id a b w => Sys2Proof.Machine.execMac id a b w s
  | .addModSubMod id sub a b d => Sys2Proof.Machine.execAddModSubMod id sub a b d s
  | .cswap id a b w => Sys2Proof.Machine.execCswap id a b w s
  | .keyOperand id key comp d => Sys2Proof.Machine.execKeyOperand id key comp d s
  | .sergeRandom id d w => Sys2Proof.Machine.execSergeRandom id d w s
  | .sergeZero id d w => Sys2Proof.Machine.execSergeZero id d w s
  | .dmaReadDescriptor id desc dst len => Sys2Proof.Machine.execDmaReadDescriptor id desc dst len s
  | .dmaWriteHolding id desc src len => Sys2Proof.Machine.execDmaWriteHolding id desc src len s
  | .exceptionEntry v => Sys2Proof.Machine.execExceptionEntry v s
  | .timerExpiry t => Sys2Proof.Machine.execTimerExpiry t s
  | .wdogWrite v => Sys2Proof.Machine.execWdogWrite v s
  | .watchdogHalf => Sys2Proof.Machine.execWatchdogHalf s
  | .watchdogExpiry => Sys2Proof.Machine.execWatchdogExpiry s
  | .hookTimeout id => Sys2Proof.Machine.execHookTimeout id s
  | .sduStart v => Sys2Proof.Machine.execSduStart v s
  | .din v => Sys2Proof.Machine.execDin v s
  | .last v => Sys2Proof.Machine.execLast v s
  | .dout rd => Sys2Proof.Machine.execDout rd s
  | .sduOwnerWrite v => Sys2Proof.Machine.execSduOwnerWrite v s
  | .ctxSave rd => Sys2Proof.Machine.execCtxSave rd s
  | .ctxRestore v => Sys2Proof.Machine.execCtxRestore v s
  | .sduBlockDone => Sys2Proof.Machine.execSduBlockDone s
  | .svNop => Sys2Proof.Machine.execSvNop s
  | .svWait => Sys2Proof.Machine.execSvWait s
  | .svRet => Sys2Proof.Machine.execSvRet s
  | .svReti => Sys2Proof.Machine.execSvReti s
  | .svEi => Sys2Proof.Machine.execSvEi s
  | .svDi => Sys2Proof.Machine.execSvDi s
  | .svRepi rs => Sys2Proof.Machine.execSvRepi rs s
  | .svRepn k => Sys2Proof.Machine.execSvRepn k s
  | .svSys t => Sys2Proof.Machine.execSvSys t s
  | .svClrdz => Sys2Proof.Machine.execSvClrdz s
  | .svMfsr rd => Sys2Proof.Machine.execSvMfsr rd s
  | .svMtsr rs => Sys2Proof.Machine.execSvMtsr rs s
  | .svMov rd rs => Sys2Proof.Machine.execSvMov rd rs s
  | .svLdi rd imm => Sys2Proof.Machine.execSvLdi rd imm s
  | .svLd rd ea => Sys2Proof.Machine.execSvLd rd ea s
  | .svSt ea rs => Sys2Proof.Machine.execSvSt ea rs s
  | .svPush rs => Sys2Proof.Machine.execSvPush rs s
  | .svPop rd => Sys2Proof.Machine.execSvPop rd s
  | .svIn rd port => Sys2Proof.Machine.execSvIn rd port s
  | .svOut port rs => Sys2Proof.Machine.execSvOut port rs s
  | .svLdp rd xs => Sys2Proof.Machine.execSvLdp rd xs s
  | .svStp xd rs => Sys2Proof.Machine.execSvStp xd rs s
  | .svOutm xd xs => Sys2Proof.Machine.execSvOutm xd xs s
  | .svInm xd xs => Sys2Proof.Machine.execSvInm xd xs s
  | .svAdd rd b => Sys2Proof.Machine.execSvAdd rd b s
  | .svAdc rd b => Sys2Proof.Machine.execSvAdc rd b s
  | .svSub rd b => Sys2Proof.Machine.execSvSub rd b s
  | .svSbc rd b => Sys2Proof.Machine.execSvSbc rd b s
  | .svCmp rd b => Sys2Proof.Machine.execSvCmp rd b s
  | .svAnd rd b => Sys2Proof.Machine.execSvAnd rd b s
  | .svOr rd b => Sys2Proof.Machine.execSvOr rd b s
  | .svXor rd b => Sys2Proof.Machine.execSvXor rd b s
  | .svTst rd b => Sys2Proof.Machine.execSvTst rd b s
  | .svNeg rd => Sys2Proof.Machine.execSvNeg rd s
  | .svNot rd => Sys2Proof.Machine.execSvNot rd s
  | .svInc rd => Sys2Proof.Machine.execSvInc rd s
  | .svDec rd => Sys2Proof.Machine.execSvDec rd s
  | .svSwapb rd => Sys2Proof.Machine.execSvSwapb rd s
  | .svSxb rd => Sys2Proof.Machine.execSvSxb rd s
  | .svLsl rd c => Sys2Proof.Machine.execSvLsl rd c s
  | .svLsr rd c => Sys2Proof.Machine.execSvLsr rd c s
  | .svAsr rd c => Sys2Proof.Machine.execSvAsr rd c s
  | .svAsl rd c => Sys2Proof.Machine.execSvAsl rd c s
  | .svRol rd c => Sys2Proof.Machine.execSvRol rd c s
  | .svRor rd c => Sys2Proof.Machine.execSvRor rd c s
  | .svSmul ac ra rb => Sys2Proof.Machine.execSvSmul ac ra rb s
  | .svUmul ac ra rb => Sys2Proof.Machine.execSvUmul ac ra rb s
  | .svSmac ac ra rb => Sys2Proof.Machine.execSvSmac ac ra rb s
  | .svUmac ac ra rb => Sys2Proof.Machine.execSvUmac ac ra rb s
  | .svSdiv vd rs => Sys2Proof.Machine.execSvSdiv vd rs s
  | .svUdiv vd rs => Sys2Proof.Machine.execSvUdiv vd rs s
  | .svMovl rd ac => Sys2Proof.Machine.execSvMovl rd ac s
  | .svMovh rd ac => Sys2Proof.Machine.execSvMovh rd ac s
  | .svMvtl ac rs => Sys2Proof.Machine.execSvMvtl ac rs s
  | .svMvth ac rs => Sys2Proof.Machine.execSvMvth ac rs s
  | .svClra ac => Sys2Proof.Machine.execSvClra ac s
  | .svJmp t => Sys2Proof.Machine.execSvJmp t s
  | .svCall t => Sys2Proof.Machine.execSvCall t s
  | .svBcc cc disp => Sys2Proof.Machine.execSvBcc cc disp s
  | .tamperConditionCleared source => Sys2Proof.Machine.execTamperConditionCleared source s
  | .supplyAboveWarning supply => Sys2Proof.Machine.execSupplyAboveWarning supply s
  | .thermTripRelease tj => Sys2Proof.Machine.execThermTripRelease tj s
  | .mainPowerReturn => Sys2Proof.Machine.execMainPowerReturn s
  | .batteryDomainUnpowered => Sys2Proof.Machine.execBatteryDomainUnpowered s
  | .resyncReplay port h m => Sys2Proof.Machine.execResyncReplay port h m s
  | .otpWriteComplete => Sys2Proof.Machine.execOtpWriteComplete s
  | .rtcAlarm => Sys2Proof.Machine.execRtcAlarm s
  | .powerDomainWake d => Sys2Proof.Machine.execPowerDomainWake d s
  | .eventLogRead idx => Sys2Proof.Machine.execEventLogRead idx s

end Sys2Proof.Machine
end

