-- ==== Sys2Proof/Machine/Tick.lean ====
section
/-!
DEFINITION. What a nanosecond without a command does: the clocks (R337, R340 [12], R408 [14], R442 [16]), and what is
due by itself (log 1).
-/
namespace Sys2Proof.Machine

/-- The real-time clock of the battery domain advances by 32,768 per second (R408 [14]). -/
def tickRtc (p : Protect) : Protect :=
  if p.rtcFrac + 32768 < 1000000000 then { p with rtcFrac := p.rtcFrac + 32768 }
  else { p with rtcFrac := p.rtcFrac + 32768 - 1000000000, rtc := (p.rtc + 1) % 2 ^ 48 }

/-- Device time advances by 1 ns; a follower that is ahead or behind loses or gains 1 ns in 20 µs, ±50 ppm (R340). -/
def tickTime (d : Dev) : Dev :=
  let due := d.clk % 20000 == 0
  if due && decide (8 ≤ d.board.slew) then { d with board := { d.board with slew := d.board.slew - 8 } }
  else if due && decide (d.board.slew ≤ -8) then
    { d with devTime := d.devTime + 2, board := { d.board with slew := d.board.slew + 8 } }
  else { d with devTime := d.devTime + 1 }

/-- Linen's timers count down every 5 ns, to 1 (R442). -/
def tickTimers (clk : Nat) (l : Linen) : Linen :=
  let down (t : Word16) : Word16 := if 1 < t.toNat then t - 1 else t
  if clk % 5 = 0 then { l with timer0 := down l.timer0, timer1 := down l.timer1 } else l

/-- One nanosecond. -/
def tickDev (d : Dev) : Dev :=
  let d := { d with clk := d.clk + 1, prot := if d.link.batDead then d.prot else tickRtc d.prot }
  let d := if d.link.started && d.powered then
      publishDue (modLinen (tickTimers d.clk) (tickTime d))
    else d
  releaseTamperN (releaseBus d)

/-- The block idle for a nanosecond. -/
def tick (s : State) : State := { s with dev := tickDev s.dev }

end Sys2Proof.Machine
end

