-- ==== Sys2Proof/Safety.lean ====
section
/-!
DEFINITION. What a state must satisfy, and every step keeps: the memories in canonical form.
-/
namespace Sys2Proof

open Machine

/-- The memories list addresses that rise and no zero. -/
def Inv (s : State) : Prop := s.mem.wf = true

end Sys2Proof
end

