-- ==== Sys2Proof/Certificates/Slice0/Obligations.lean ====
section
/-!
DEFINITION. The statements for the provers.
-/
namespace Sys2Proof

open Machine

/-- Command `c` of operation `o` is at its execution step: its turn has come, its inputs are there, no DMA error and no
failed tag has struck them, and no key of it is out of use by a failed tag (R33 [01], R127, R137 [04], R257 [08], R468
[17]). -/
def AtStep (s : State) (id : Nat) (o : Op) (c : Cmd) : Prop :=
  findCmd s.dev id = some c ∧ c.op = o ∧ canRun s.mem s.dev c = true ∧ c.dmaErr = none ∧ inputTagFail s.dev c = false ∧
    (!checkOneOnly c.op && c.keys.any (fun k => (s.dev.ent k.idx).tagBad)) = false

/-- The block answers the state with the device `d`: queue and memories are as before. -/
def Gives (i : Instr) (s : State) (d : Dev) : Prop := exec i s = .next { s with dev := d }

/-- The block answers the state with the device `p.1` and the memories `p.2`: the queue is as before. -/
def GivesBoth (i : Instr) (s : State) (p : Dev × Memory) : Prop := exec i s = .next { s with dev := p.1, mem := p.2 }

/-- Command `i` ends with the status, and with nothing else. -/
def Ends (i : Instr) (s : State) (id : Nat) (st : Status) : Prop := Gives i s (failWith st id s.dev)

/-- Command `i` ends OK with the outputs, descriptor number and bytes; the rest of the device is `d`. -/
def Yields (i : Instr) (s : State) (id : Nat) (outs : List (Nat × Bytes)) (d : Dev) : Prop :=
  Gives i s (okOuts outs id d)

/-- Input `i` of a command. -/
def input (s : State) (c : Cmd) (i : Nat) : Bytes := inp s.mem s.dev c i

/-- An outcome with a status, outputs and a RESULT. -/
def answer (st : Status) (outs : List (Nat × Bytes)) (result : Bytes) : Outcome :=
  { status := st, outs := outs, result := result }

/-- The bytes of an input role of a form. -/
def inRole (s : State) (c : Cmd) (f : Form) (r : Role) : Bytes := f.get s.mem s.dev c r

/-- A flit of type `typ` arrives for this device on a port that is UP: its tag and its sequence number are right
(R352 [12]). -/
def Arrives (d : Dev) (port : Fin 2) (h : FlitHdr) (typ : Nat) : Prop :=
  d.powered = true ∧ d.link.started = true ∧ (d.port port).link = .up ∧ h.tagOk = true ∧
    h.linkSeq = (d.port port).rxSeq + 1 ∧ h.typ = typ ∧ h.src ≠ d.pos ∧ h.dst = d.pos

/-- The device with the flit's sequence number taken. -/
def Heard (d : Dev) (port : Fin 2) (h : FlitHdr) : Dev := modPort port (fun x => { x with rxSeq := h.linkSeq }) d

/-- The same for a custody flit (types 3, 7 and 8, the model's choice, log 67), which is announced to Linen (R449 [16]). -/
def HeardCustody (d : Dev) (port : Fin 2) (h : FlitHdr) : Dev := linenPend 26 (Heard d port h)

end Sys2Proof

open Sys2Proof Sys2Proof.Machine

/-! The block. -/

/-- A command at the front of the queue is taken off and carried out on the queue's rest. -/
def Obligations.StepRunsFront : Prop :=
  ∀ (c : Instr) (rest : List Instr) (s : State),
    step { s with pending := c :: rest } = exec c { s with pending := rest }

/-- The reset state satisfies the invariant. -/
def Obligations.ResetInv : Prop :=
 Inv State.reset

/-- Every step of the block keeps its memories in canonical form: addresses rise and no zero is listed. -/
def Obligations.InvKept : Prop :=
  ∀ s t : State, Inv s → step s = .next t → Inv t

/-- No command changes the queue: after a step it is what it was without its front (the model's queue, log 1). -/
def Obligations.QueueFirstInFirstOut : Prop :=
  ∀ s t : State, step s = .next t → t.pending = s.pending.tail

/-- The only stop of the block: an access that reaches beyond the BAR it names, where no address exists. -/
def Obligations.OnlyStopIsOutsideBar : Prop :=
  ∀ s : State,
    (∀ r, step s ≠ .refused r) ∧
    (∀ f, step s = .fault f ↔ f = .outsideBar ∧
      ((∃ bar off width value rest, s.pending = .registerWrite bar off width value :: rest ∧ barSize bar < off + width) ∨
       (∃ sl off width wr rest, s.pending = .xwBar2Access sl off width wr :: rest ∧
          0x1000000 < sl.val * 65536 + off + width)))

/-- With no command waiting a nanosecond passes (the model's choice, log 1): the clock goes on, and the battery domain's
32,768 Hz count while that domain has power; device time and Linen's timers only in a device that has started and is
powered. -/
def Obligations.IdleTick : Prop :=
  ∀ s : State, s.pending = [] → ∃ t, step s = .next t ∧ t.pending = [] ∧ t.mem = s.mem ∧ t.dev.clk = s.dev.clk + 1 ∧
    t.dev.prot.rtc = (if s.dev.link.batDead = true then s.dev.prot else tickRtc s.dev.prot).rtc ∧
    t.dev.cmds = s.dev.cmds ∧
    t.dev.led = s.dev.led ∧ t.dev.otp = s.dev.otp ∧ t.dev.cust = s.dev.cust ∧ t.dev.sched = s.dev.sched ∧
    t.dev.dma = s.dev.dma ∧ t.dev.micro = s.dev.micro ∧ t.dev.link = s.dev.link ∧
    (s.dev.link.started = false ∨ s.dev.powered = false → t.dev.devTime = s.dev.devTime ∧ t.dev.linen = s.dev.linen)

/-- What reset leaves, as the spec gives it (values that a log entry chose are not named here). -/
def Obligations.ResetValues : Prop :=
  let d := State.reset.dev
  State.reset.pending = [] ∧ d.cmds = [] ∧ d.led.entries = [] ∧ d.lc = 17 ∧ d.devTime = 0 ∧
  (∀ k, (d.slice k).st = .free ∧ (d.slice k).intMask = 0xF ∧ (d.slice k).intPend = 0 ∧ (d.slice k).pushFree = 0xFFFF ∧
    (d.slice k).t2mFull = false ∧ (d.slice k).m2tFull = false ∧ (d.slice k).admitted = 0) ∧
  (∀ k q, (d.sq k q).st = .disabled ∧ (d.sq k q).window = 256 ∧ (d.sq k q).cqSel = q ∧ (d.sq k q).poll = 0) ∧
  (∀ k q, (d.cq k q).st = .disabled ∧ (d.cq k q).coalCount = 1 ∧ (d.cq k q).coalTime = 0) ∧
  d.prot.st = .normal ∧ d.prot.levels = defaultLevels ∧ d.prot.pendingFc = 0 ∧ d.prot.escTime = 1000 ∧
  d.prot.firstInfo = 0x0000FFFF ∧ d.link.msixTable = [] ∧ (∀ v, (d.msixEntry v).2.2 = true) ∧
  d.board.lock = .unlocked ∧ d.board.tamperBcast = 1 ∧ d.board.commitLead = 100 ∧
  (∀ b, (d.bank b).owner = if b < 32 then 0x10 + b else if b < 48 then 0 else 0x3F) ∧
  (∀ c, (d.chan c).st = .idle) ∧ d.linen.sdu.owner = 15 ∧ d.linen.sdu.outLen = 0x20

/-! Resets, power, the link. -/

/-- PORST_N, PERST_N, a supply reset and the loss of main power: the effects of power loss, with the row's own mark. What
those effects are: nothing volatile is left; what the battery domain holds stays, and so does OTP, unless a life-cycle
transition, a floor raise or a FUSE was writing it. -/
def Obligations.PowerLossResets : Prop :=
  (
    ∀ (s : State) (supply : Fin 8),
      let d := powerLoss (releasePins s.dev)
      Gives .porstNAssert s { d with link := { d.link with porstLow := true } } ∧
      Gives .perstNAssert s { d with link := { d.link with perstLow := true, debugOpen := s.dev.link.debugOpen } } ∧
      Gives (.supplyReset supply) s { d with link := { d.link with supplyReset := true, startAt := s.dev.clk } } ∧
      Gives .mainPowerLoss s { d with link := { d.link with mainPower := false, onBattery := true, supplyReset := true } }
  ) ∧ (
    ∀ d : Dev,
      let e := powerLoss (releasePins d)
      e.clk = d.clk ∧ (d.link.lcRun = none → d.micro.floorDue = none → d.prot.fuseDue = none → e.otp = d.otp ∧ e.free = d.free) ∧
      e.prot.latched = d.prot.latched ∧ e.prot.batLog = d.prot.batLog ∧ e.prot.batCount = d.prot.batCount ∧
      e.prot.rtc = d.prot.rtc ∧ e.prot.levels = d.prot.levels ∧ e.board.key = d.board.key ∧
      e.board.manifestDigest = d.board.manifestDigest ∧ e.board.header = d.board.header ∧
      e.cust = (mapCust vaultOnly d).cust ∧ e.led.boot = d.led.boot ∧
      e.slices = [] ∧ e.cmds = [] ∧ e.held = [] ∧ e.led.entries = [] ∧ e.led.keyHeld = false ∧ e.led.vaultKey = [] ∧
      e.sched = Sched.reset ∧ e.dma = Dma.reset ∧ e.micro = Micro.reset ∧ e.linen = Linen.reset ∧
      e.devTime = 0 ∧ e.prot.pendingFc = 0 ∧ e.prot.fatal = false ∧ e.prot.st = .normal ∧ e.prot.log = [] ∧
      e.board.actions = [] ∧ e.link.started = false ∧ e.link.halt = false ∧ e.link.msixTable = [] ∧
      e.link.errNLow = false ∧ e.link.lcRun = none ∧ e.link.debugOpen = false ∧ e.link.ideRequired = false ∧
      e.link.ideStreams = 0 ∧ e.link.porstLow = d.link.porstLow ∧ e.link.perstLow = d.link.perstLow ∧
      e.link.supplyReset = d.link.supplyReset ∧ e.link.mainPower = d.link.mainPower ∧
      e.link.onBattery = d.link.onBattery ∧ e.link.batDead = d.link.batDead ∧ e.link.boardId = d.link.boardId
  )

/-- Start-up, main power returning, the battery domain. First: STARTUP of a device out of its resets runs the steps of
start-up in order, and every memory is zero; slice 0 is ACTIVE with the configuration of R64, and DEVICE_STARTING is
lifted; while an internal reset lasts, or a device has started, nothing happens. Then: Main power returning, and the
battery domain losing its power while it runs on battery. Then: BATTERY_ALARM: the log entry, and from T1 up the vault
erased and LATCHED set. Then: what erasing the vault erases. -/
def Obligations.StartUpAndBattery : Prop :=
  (
    ∀ (s : State) (straps : BitVec 3) (units : List (Nat × Nat)) (sources : List Nat),
      let l := s.dev.link
      let may := !l.started && l.mainPower && !(l.supplyReset && decide (s.dev.clk < l.startAt + 1000000))
      let d0 := { s.dev with devTime := 0, link := { l with
        porstLow := false, perstLow := false, supplyReset := false, boardId := straps } }
      let e := startSlice0 (startBoard (startKeys (startUnits units sources (startBattery (startLife d0)))))
      (may = false → exec (.startup straps units sources) s = .next s) ∧
      (may = true → GivesBoth (.startup straps units sources) s (e, Memory.zero)) ∧
      e.link.started = true ∧ e.link.startAt = e.clk ∧ e.sched.lastRound = e.clk ∧ e.linen.wdogAt = e.clk ∧
      (e.slice 0).st = .active ∧ (e.slice 0).cfg = slice0Cfg
  ) ∧ (
    ∀ s : State,
      Gives .mainPowerReturn s (if s.dev.link.mainPower then s.dev else
        { s.dev with link := { s.dev.link with
          mainPower := true, onBattery := false, batDead := false, startAt := s.dev.clk } }) ∧
      (s.dev.link.onBattery = false → exec .batteryDomainUnpowered s = .next s) ∧
      (s.dev.link.onBattery = true → Gives .batteryDomainUnpowered s
        (let d := eraseVault s.dev
         { d with link := { d.link with batDead := true }
                  prot := { d.prot with latched := false, batLog := List.replicate 16 0, batCount := 0, rtc := 0,
                                        rtcFrac := 0 } }))
  ) ∧ (
    ∀ (s : State) (k : Fin 32),
      (s.dev.link.onBattery = false ∨ s.dev.link.batDead = true ∨ batterySource k = false ∨
        s.dev.otp.fuses.getLsbD k.val = true → exec (.batteryAlarm k) s = .next s) ∧
      (s.dev.link.onBattery = true → s.dev.link.batDead = false → batterySource k = true →
        s.dev.otp.fuses.getLsbD k.val = false →
        (levelOf s.dev k = 0 → Gives (.batteryAlarm k) s (batLogAdd true 0 k s.dev)) ∧
        (levelOf s.dev k ≠ 0 → Gives (.batteryAlarm k) s
          (let d := eraseVault (batLogAdd true (levelOf s.dev k) k s.dev)
           { d with prot := { d.prot with latched := true } })))
  ) ∧ (
    ∀ d : Dev,
      let e := eraseVault d
      e.prot.levels = defaultLevels ∧ e.board.key = none ∧ e.otp = d.otp ∧ e.led = d.led ∧ e.slices = d.slices ∧
      e.cmds = d.cmds ∧ e.prot.batLog = d.prot.batLog ∧ e.prot.rtc = d.prot.rtc ∧
      ∀ x ∈ e.cust, x.2.master = none ∧ x.2.copyA = .empty ∧ x.2.copyB = .empty ∧ x.2.custodians = [] ∧
        x.2.staged = none ∧ x.2.comp = none
  )

/-- LINK_LOSS, FLR_PF0 and FLR_PF1 in a powered device. -/
def Obligations.LinkLossAndFunctionResets : Prop :=
  ∀ s : State, s.dev.powered = true →
    let d := s.dev
    let lost := raiseFault 400 0 0 none (loseSlices d)
    let p0 := (dropWhere (fun c => c.slice == 0) d).modSlice 0 flrSlice
    let p1 := dropWhere (fun c => c.slice != 0 && c.foreign.isNone) d
    (d.link.linkLost = false →
      Gives .linkLoss s { lost with held := [], link := { lost.link with linkLost := true } }) ∧
    (d.link.linkLost = true → exec .linkLoss s = .next s) ∧
    (loseSlices d).slices = [] ∧ (loseSlices d).cmds = [] ∧ (loseSlices d).dma.chans = [] ∧
    Gives .flrPf0 s
      (forEach (List.range 16) (fun b => startWipe (32 + b) 0)
        (forEach (List.range 8) (fun c => modChan (56 + c) (fun _ => chanReset))
          { p0 with link := { p0.link with msixTable := [], msixPend := 0 } })) ∧
    Gives .flrPf1 s (forEach ((liveSlices p1).filter (· != 0)) (fun k e => e.modSlice k flrSlice) p1) ∧
    (∀ x : Slice, (flrSlice x).st = x.st ∧ (flrSlice x).cfg = x.cfg ∧ (flrSlice x).pasids = x.pasids ∧
      (flrSlice x).intPend = 0 ∧ (flrSlice x).streams = [] ∧ (∀ q, ((flrSlice x).sq q).st = .disabled) ∧
      ∀ q, ((flrSlice x).cq q).st = .disabled)

/-- Tamper alarms, the board's tamper line, a source that clears. First: TAMPER_ALARM, TAMPER_BUS_LOW and
TAMPER_CONDITION_CLEARED in a powered device. Then: An alarm at level T0 or T1 of an unfused source: its bits are set, it
is the last source, and no HOLD begins. -/
def Obligations.TamperAlarmsMarkTheirSource : Prop :=
  (
    ∀ (s : State) (k : Fin 32), s.dev.powered = true →
      let d := s.dev
      let own := match d.prot.selfTest with
        | some t => t.left.head? == some k.val
        | none => false
      (own = false → d.otp.fuses.getLsbD k.val = false →
        GivesBoth (.tamperAlarm k) s (alarm k d, if levelOf d k ≥ 3 then { s.mem with scr := [] } else s.mem)) ∧
      (own = true ∨ d.otp.fuses.getLsbD k.val = true → exec (.tamperAlarm k) s = .next s) ∧
      (d.board.busLow = false → d.board.incident = false →
        GivesBoth .tamperBusLow s
          (raisePf0 451 (alarm 31 { d with board := { d.board with incident := true } }),
           if levelOf d 31 ≥ 3 then { s.mem with scr := [] } else s.mem)) ∧
      (d.board.busLow = false → d.board.incident = true → Gives .tamperBusLow s (logEvent 1 (levelOf d 31) 31 [] d)) ∧
      (d.board.busLow = true → exec .tamperBusLow s = .next s) ∧
      Gives (.tamperConditionCleared k) s { d with
        prot := { d.prot with active := d.prot.active &&& ~~~(1#32 <<< k.val) }
        board := if k.val = 31 then { d.board with incident := false } else d.board }
  ) ∧ (
    ∀ (d : Dev) (k : Fin 32), k.val ≠ 29 → k.val ≠ 30 → d.otp.fuses.getLsbD k.val = false → levelOf d k ≤ 1 →
      (alarm k d).prot.active.getLsbD k.val = true ∧ (alarm k d).prot.seen.getLsbD k.val = true ∧
      (alarm k d).prot.lastSource = k.val ∧ (alarm k d).prot.st = d.prot.st ∧ (alarm k d).cmds = d.cmds ∧
      (alarm k d).led = d.led ∧ (alarm k d).otp = d.otp
  )

/-- The rows of the temperature sensors and the supply monitors, in a powered device. -/
def Obligations.TemperatureAndSupplies : Prop :=
  ∀ (s : State) (tj : BitVec 16) (k : Fin 8), s.dev.powered = true →
    let d := s.dev
    let low := d.prot.belowWarn ||| (1#8 <<< k.val)
    Gives (.thermTrip tj) s
      (let e := { d with prot := { d.prot with tjMain := tj } }
       if d.prot.thermTripLow || decide (tj.toInt < 480) then e
       else raiseFault 419 0 0 none (emit (.thermTripN true) { e with prot := { e.prot with thermTripLow := true } })) ∧
    Gives (.thermTripRelease tj) s
      (let e := { d with prot := { d.prot with tjMain := tj } }
       if d.prot.thermTripLow && decide (tj.toInt < 440) then
         emit (.thermTripN false) { e with prot := { e.prot with thermTripLow := false } }
       else e) ∧
    (d.prot.caution = true → Gives (.supplyWarning k) s
      { d with prot := { d.prot with belowWarn := low, aboveSince := none } }) ∧
    (d.prot.caution = false → Gives (.supplyWarning k) s
      (raisePf0 323 (logEvent 4 0 0 (leBytes 1 low.toNat)
        (mapCmds (fun c =>
            if c.stage = .running && (d.clk < c.endAt || c.outcome.isNone) then { c with overlap := true } else c)
          { d with prot := { d.prot with
            belowWarn := low, aboveSince := none, caution := true, cautionSince := d.clk
            cautionCount := min 65535 (d.prot.cautionCount + 1) } })))) ∧
    Gives (.supplyAboveWarning k) s { d with prot := { d.prot with
      belowWarn := d.prot.belowWarn &&& ~~~(1#8 <<< k.val)
      aboveSince := if d.prot.belowWarn &&& ~~~(1#8 <<< k.val) = 0 then some (d.prot.aboveSince.getD d.clk) else none } } ∧
    (∀ t, d.prot.aboveSince = some t → d.prot.caution = true →
      Gives .cautionEnd s (if t + 10000 ≤ d.clk then
        raisePf0 324 (logEvent 5 0 0 (leBytes 1 d.prot.belowWarn.toNat)
          { d with prot := { d.prot with caution := false, aboveSince := none } }) else d)) ∧
    (d.prot.caution = true → d.prot.fatal = false →
      Gives .cautionTimeout s (if d.prot.cautionSince + 10000000 ≤ d.clk then raiseFault 412 0 0 none d else d))

/-! The interfaces beside the BARs, the registers. -/

/-- SPDM_REQUEST, IDE_KM, ATS_INVALIDATE, TAP_INSTRUCTION and TLP_OUTSIDE_IDE in a powered device whose link is up. -/
def Obligations.SidebandInterfaces : Prop :=
  ∀ (s : State) (path : SpdmPath) (index : Nat) (stream : Fin 5) (keys : Bytes) (pasid : BitVec 20)
    (pages : List Nat) (bar : Bar) (off width value payload readReq : Nat) (fn : Fin 2) (req : SpdmReq),
    s.dev.powered = true → s.dev.link.linkLost = false →
    let d := s.dev
    let opened := d.lc = 0 ∨ isTestUnlocked d.lc = true ∨ d.link.debugOpen = true
    Gives (.spdmRequest path .getVersion) s (emit (.spdm path (.versions [0x12, 0x13])) d) ∧
    Gives (.spdmRequest path (.negotiate 0x13)) s
      (emit (.spdm path (.algorithms 0x13 [.ecdsaP384, .sha384, .secp384r1, .aes256Gcm]))
        (modSpdm path (fun x => { x with version := 0x13 }) d)) ∧
    (1 ≤ index ∧ index ≤ 7 → (d.spdm path).version ≠ 0 →
      Gives (.spdmRequest path (.measurement index)) s (emit (.spdm path (.measurement index (measurement d index))) d)) ∧
    ((d.spdm path).opened = true → keys ≠ [] → Gives (.ideKm stream (some path) keys) s
      (sendHeld { d with link := { d.link with
        ideStreams := d.link.ideStreams ||| (1#5 <<< stream.val)
        ideKeys := tset d.link.ideKeys stream.val keys } })) ∧
    ((d.spdm path).opened = false → exec (.ideKm stream (some path) keys) s = .next s) ∧
    exec (.ideKm stream none keys) s = .next s ∧
    Gives (.atsInvalidate pasid pages) s (emit (.atsInvalidated pasid.toNat)
      { d with dma := { d.dma with
        ats := d.dma.ats.filter (fun (e : Nat × Nat) => !(e.1 == pasid.toNat && pages.contains e.2)) } }) ∧
    exec (.tapInstruction .bypass) s = .next s ∧ exec (.tapInstruction .samplePreload) s = .next s ∧
    (d.lc ≠ 21 → Gives (.tapInstruction .idcode) s (emit (.readData (leBytes 4 0x09720A8F)) d)) ∧
    (d.lc = 21 → exec (.tapInstruction .idcode) s = .next s) ∧
    (d.lc = 18 ∨ d.lc = 19 → GivesBoth (.tapInstruction .extest) s (eraseAsT3 d, { s.mem with scr := [] })) ∧
    (d.lc ≠ 18 → d.lc ≠ 19 → exec (.tapInstruction .extest) s = .next s) ∧
    (opened → Gives (.tapInstruction .debug) s { d with link := { d.link with tapOpen := true } } ∧
      Gives (.tapInstruction .dcode) s { d with link := { d.link with tapOpen := true } }) ∧
    (¬opened → exec (.tapInstruction .debug) s = .next s ∧ exec (.tapInstruction .dcode) s = .next s) ∧
    Gives (.tlpOutsideIde (.config fn (.read off))) s
      (emit (.readData (leBytes 4 (cfgWord fn off (Config.freeNat d.free)))) { d with free := d.free + 1 }) ∧
    Gives (.tlpOutsideIde (.config fn (.sizes payload readReq))) s { d with link := { d.link with
      payload := if [128, 256, 512].contains payload then payload else d.link.payload
      readReq := if [128, 256, 512, 1024, 2048, 4096].contains readReq then readReq else d.link.readReq } } ∧
    exec (.tlpOutsideIde (.doe req)) s = exec (.spdmRequest .doe req) s ∧
    exec (.tlpOutsideIde .other) s = .next s ∧
    (d.link.ideRequired = true → exec (.tlpOutsideIde (.write bar off width value)) s = .next s ∧
      exec (.tlpOutsideIde (.read bar off width)) s = .next s) ∧
    (d.link.ideRequired = false →
      exec (.tlpOutsideIde (.write bar off width value)) s = exec (.registerWrite bar off width value) s ∧
      (bar ≠ .bar2 → Gives (.tlpOutsideIde (.read bar off width)) s
        (emit (.readData (leBytes width (regRead d s.mem bar off width))) d)))

/-- REGISTER_WRITE by example of one register of each kind, in a device whose registers can be reached. -/
def Obligations.RegisterWrites : Prop :=
  ∀ (s : State) (sl : Fin 256) (q : Fin 16) (v : BitVec 32), s.dev.reachable = true →
    let d := s.dev
    (∀ bar off width value, barSize bar < off + width →
      exec (.registerWrite bar off width value) s = .fault .outsideBar) ∧
    (∀ off width value, off + width ≤ 0x4000000 → off % width ≠ 0 → exec (.registerWrite .pf0 off width value) s = .next s) ∧
    (∀ off width value, off + width ≤ 0x1000000 → off % width ≠ 0 → exec (.registerWrite .pf1 off width value) s = .next s) ∧
    exec (.registerWrite .pf0 0x210 8 v.toNat) s = .next s ∧
    Gives (.registerWrite .pf0 0x210 4 v.toNat) s
      { d with link := { d.link with
        ideRequired := if d.link.ideLock then d.link.ideRequired else v.getLsbD 0
        ideLock := d.link.ideLock || v.getLsbD 31 } } ∧
    Gives (.registerWrite .pf0 0x20004 4 v.toNat) s
      (let us := v.toNat % 2 ^ 24
       if 1 ≤ us ∧ us ≤ 10000000 then { d with prot := { d.prot with escTime := us } } else d) ∧
    Gives (.registerWrite .pf0 0x4000C 4 v.toNat) s
      { d with board := { d.board with delay := BitVec.ofNat 16 v.toNat } } ∧
    Gives (.registerWrite .pf0 0x20214 4 v.toNat) s
      (if v.getLsbD 0 then { d with prot := { d.prot with firstInfo := 0x0000FFFF, firstAddr := 0, firstTime := 0 } }
       else d) ∧
    exec (.registerWrite .pf1 (sl.val * 65536 + 0x100) 4 v.toNat) s = exec (.intMaskWrite sl v) s ∧
    exec (.registerWrite .pf1 (sl.val * 65536 + 0x2C00 + 8 * q.val) 4 v.toNat) s = exec (.sqDoorbell sl q v) s ∧
    exec (.registerWrite .pf1 (sl.val * 65536 + 0x2C04 + 8 * q.val) 4 v.toNat) s = exec (.cqDoorbell sl q v) s ∧
    exec (.registerWrite .pf1 (sl.val * 65536 + 0x2000 + 0x80 * q.val + 0x3C) 4 v.toNat) s = exec (.sqRestart sl q v) s ∧
    exec (.registerWrite .pf1 (sl.val * 65536 + 0x800 + 4 * q.val) 4 v.toNat) s = exec (.xwOwnerWrite sl q v) s

/-! Queues and rings. -/

/-- Submission and completion doorbells. First: SQ_DOORBELL and SQ_RESTART on a slice that is open. Then: CQ_DOORBELL on a slice that is open. -/
def Obligations.Doorbells : Prop :=
  (
    ∀ (s : State) (sl : Fin 256) (q : Fin 16) (v : BitVec 32), s.dev.open_ sl = true →
      let d := s.dev
      let x := d.sq sl q
      let p := posOfWord x.depth v.toNat
      Gives (.sqDoorbell sl q v) s
        (if x.st = .disabled ∨ x.st = .draining ∨ x.depth ≤ bits v.toNat 15 0 ∨ x.depth < usedFrom x.depth x.pos p then
           d.modSq sl q (fun y => { y with dbDrop := true })
         else if p = x.pos ∧ x.st ≠ .qerr then d.modSq sl q (fun y => { y with prod := none, notNewAt := none })
         else d.modSq sl q (fun y => { y with prod := some p })) ∧
      (v.getLsbD 31 = false → exec (.sqRestart sl q v) s = .next s) ∧
      (v.getLsbD 31 = true → x.st ≠ .qerr ∨ x.depth ≤ bits v.toNat 15 0 →
        Gives (.sqRestart sl q v) s (d.modSq sl q (fun y => { y with dbDrop := true }))) ∧
      (v.getLsbD 31 = true → x.st = .qerr → bits v.toNat 15 0 < x.depth →
        Gives (.sqRestart sl q v) s (d.modSq sl q (fun y => { y with
          st := .running, pos := p, errReason := 0, errPos := 0, notNewAt := none, contAt := none
          ciOwed := y.ciAddr != 0
          prod := y.prod.filter (fun n =>
            decide (0 < usedFrom x.depth p n) && decide (usedFrom x.depth p n ≤ x.depth)) })))
  ) ∧ (
    ∀ (s : State) (sl : Fin 256) (r : Fin 16) (v : BitVec 32), s.dev.open_ sl = true →
      let d := s.dev
      let x := d.cq sl r
      let p := posOfWord x.depth v.toNat
      Gives (.cqDoorbell sl r v) s
        (if x.st = .disabled ∨ x.depth ≤ bits v.toNat 15 0 ∨ usedFrom x.depth x.rd x.headOut < usedFrom x.depth x.rd p then
           d.modCq sl r (fun y => { y with dbDrop := true })
         else d.modCq sl r (fun y => { y with
           rd := p, st := if y.st == .stalled && usedFrom y.depth p y.head < y.depth then .running else y.st }))
  )

/-- Queues enabled and disabled; the timers of a queue. First: SQ_ENABLE, SQ_DISABLE, SQ_DRAIN_DONE, CQ_ENABLE and CQ_DISABLE on a slice that is open. Then: The timers of a queue and of a ring. -/
def Obligations.QueueControl : Prop :=
  (
    ∀ (s : State) (sl : Fin 256) (q : Fin 16) (v : BitVec 32), s.dev.open_ sl = true →
      let d := s.dev
      let x := d.sq sl q
      let y := sqCfgWrite v.toNat x
      let f := sqFault (d.slice sl) sl q y
      let g := cqFault (d.slice sl) sl q (cqCfgWrite v.toNat (d.cq sl q))
      (x.st ≠ .disabled → exec (.sqEnable sl q v) s = .next s) ∧
      (x.st = .disabled → f ≠ 0 → Gives (.sqEnable sl q v) s (d.modSq sl q (fun _ => { y with cfgFault := f }))) ∧
      (x.st = .disabled → f = 0 → Gives (.sqEnable sl q v) s (d.modSq sl q (fun z => { z with
        depth := bits v.toNat 16 0, cqSel := bits v.toNat 23 20, pasidSlot := bits v.toNat 30 29
        st := .running, pos := 0, cfgFault := 0, errReason := 0, errPos := 0, prod := none, pollDue := false
        pollAt := d.clk, ciOwed := false, notNewAt := none, contAt := none }))) ∧
      (x.st = .running ∨ x.st = .qerr → Gives (.sqDisable sl q) s (d.modSq sl q (fun z => { z with
        st := .draining, prod := none, pollDue := false, notNewAt := none, contAt := none }))) ∧
      (x.st = .draining → slotsHeld d sl q = 0 → Gives (.sqDrainDone sl q) s
        (dropQueueStreams sl q (d.modSq sl q (fun z => { z with st := .disabled })))) ∧
      (slotsHeld d sl q ≠ 0 → exec (.sqDrainDone sl q) s = .next s) ∧
      ((d.cq sl q).st = .disabled → Gives (.cqEnable sl q v) s (d.modCq sl q (fun _ =>
        if g ≠ 0 then { cqCfgWrite v.toNat (d.cq sl q) with cfgFault := g }
        else { cqCfgWrite v.toNat (d.cq sl q) with
          cfgFault := 0, st := .running, head := 0, headOut := 0, rd := 0, since := 0, firstAt := none
          uncovered := [] }))) ∧
      ((d.cq sl q).st ≠ .disabled → exec (.cqEnable sl q v) s = .next s) ∧
      Gives (.cqDisable sl q) s
        (if (List.range 16).any (fun k => ((d.slice sl).sq k).st != .disabled && ((d.slice sl).sq k).cqSel == q.val) then d
         else d.modCq sl q (fun z => { z with st := .disabled }))
  ) ∧ (
    ∀ (s : State) (sl : Fin 256) (q : Fin 16),
      let d := s.dev
      let x := d.sq sl q
      let y := d.cq sl q
      Gives (.sqPoll sl q) s
        (if x.st = .running ∧ x.poll ≠ 0 ∧ x.pollAt + 50 * x.poll ≤ d.clk then
           d.modSq sl q (fun z => { z with pollDue := true, pollAt := d.clk }) else d) ∧
      (∀ t, y.firstAt = some t → Gives (.cqCoalesceTimeout sl q) s
        (if y.intEn = true ∧ y.coalTime ≠ 0 ∧ y.since ≠ 0 ∧ t + 100 * y.coalTime ≤ d.clk then
           raiseSlice sl 0 (d.modCq sl q (fun z => { z with since := 0, firstAt := none })) else d)) ∧
      (y.firstAt = none → exec (.cqCoalesceTimeout sl q) s = .next s) ∧
      (∀ t, x.notNewAt = some t → Gives (.granule0Timeout sl q) s
        (if x.st = .running ∧ doorbellDue x = true ∧ t + 1000000 ≤ d.clk ∧ d.alive = true then
           framingFault sl q 7 false d else d)) ∧
      (x.notNewAt = none → exec (.granule0Timeout sl q) s = .next s)
  )

/-- What a fetch finds; a framing fault stops its queue. First: ENTRY_FETCH, GRANULE0_REREAD and CONTINUATION_REREAD in
the queue's turn, and outside it; what a read that found nothing new, a wrong granule, or an entry leads to. Then: A framing
fault that is no translation failure, with DEV_QERR_POLICY.HALT 0. -/
def Obligations.Fetching : Prop :=
  (
    ∀ (s : State) (sl : Fin 256) (q : Fin 16) (g0 : RingRead) (conts : List RingRead) (aux : List (Nat × Bytes))
      (ciOk : Bool),
      let d := s.dev
      let x := d.sq sl q
      let read := ringAts sl q x (ciWill sl q ciOk d)
      (mayFetch d sl q = false → exec (.entryFetch sl q ⟨g0, conts⟩ aux ciOk) s = .next s ∧
        exec (.granule0Reread sl q ⟨g0, conts⟩ aux ciOk) s = .next s ∧
        exec (.continuationReread sl q conts aux ciOk) s = .next s) ∧
      (mayFetch d sl q = true → x.notNewAt = none ∨ x.pollDue = true → x.contAt = none →
        GivesBoth (.entryFetch sl q ⟨g0, conts⟩ aux ciOk) s (takeEntry false sl q g0 conts aux read s.mem)) ∧
      (mayFetch d sl q = true → x.notNewAt ≠ none → doorbellDue x = true → x.rereadAt ≤ d.clk → x.contAt = none →
        GivesBoth (.granule0Reread sl q ⟨g0, conts⟩ aux ciOk) s (takeEntry false sl q g0 conts aux read s.mem)) ∧
      (mayFetch d sl q = true → x.contAt ≠ none →
        GivesBoth (.continuationReread sl q conts aux ciOk) s
          (takeEntry true sl q (.data x.held0) conts aux read s.mem))
  ) ∧ (
    ∀ (d : Dev) (m : Memory) (k q : Nat) (g0 : RingRead) (conts : List RingRead) (aux : List (Nat × Bytes)),
      let x := d.sq k q
      let read (n : Nat) (e : Dev) : Dev :=
        countTurn (queueNo k q) n (e.modSq k q (fun y => { y with pollDue := false }))
      (frame x.depth x.pos g0 conts = .notNew →
        takeEntry false k q g0 conts aux d m = (read 1 (d.modSq k q (foundNotNew d.clk)), m)) ∧
      (frame x.depth x.pos g0 conts = .contNotNew →
        takeEntry false k q g0 conts aux d m = (read 1 (d.modSq k q (fun y => { y with
          contAt := some (d.clk + 1000), held0 := ringBytes g0, notNewAt := none })), m) ∧
        takeEntry true k q g0 conts aux d m = (read 1 (framingFault k q 4 false d), m)) ∧
      (∀ r t, frame x.depth x.pos g0 conts = .fault r t →
        takeEntry false k q g0 conts aux d m = (read 1 (framingFault k q r t d), m)) ∧
      (∀ b l, frame x.depth x.pos g0 conts = .entry b l →
        takeEntry false k q g0 conts aux d m = hookNext (admitCmd k q none (wordOfPos x.depth x.pos) (packetOf b l false)
          aux m (publishCi k q (read (l.length + 1) (d.modSq k q (passEntry (l.length + 1)))))) m)
  ) ∧ (
    ∀ (d : Dev) (k q reason : Nat), d.link.qerrHalt = false →
      let e := framingFault k q reason false d
      (e.sq k q).st = .qerr ∧ (e.sq k q).errReason = reason ∧ (e.sq k q).errPos = (d.sq k q).pos ∧
      (e.sq k q).pos = (d.sq k q).pos ∧ e.cmds = d.cmds ∧ (∀ r, r ≠ q → e.sq k r = d.sq k r) ∧
      ∀ j, j ≠ k → e.slice j = d.slice j
  )

/-- The framing of an entry's first granule at position `p` of a ring of depth `n`, check by check. -/
def Obligations.FramedEntryIsTaken : Prop :=
  ∀ (n p : Nat) (b : Bytes) (conts : List RingRead),
    (∀ t, frame n p (.failed t) conts = .fault 6 t) ∧
    (bit (gctl b) 7 ≠ phaseAt n (p % (2 * n)) → frame n p (.data b) conts = .notNew) ∧
    (bit (gctl b) 7 = phaseAt n (p % (2 * n)) →
      (bit (gctl b) 6 = false → frame n p (.data b) conts = .fault 2 false) ∧
      (bit (gctl b) 6 = true → bits (gctl b) 5 4 ≠ 0 → frame n p (.data b) conts = .fault 5 false) ∧
      (bit (gctl b) 6 = true → bits (gctl b) 5 4 = 0 →
        (n < bits (gctl b) 3 0 + 1 → frame n p (.data b) conts = .fault 1 false) ∧
        (1 ≤ n → bits (gctl b) 3 0 = 0 → frame n p (.data b) conts = .entry (fit 64 b) []) ∧
        (∀ g l, frame n p (.data b) conts = .entry g l → l.length = bits (gctl b) 3 0)))

/-- PUSH_SLOT_POST, PUSH_ENTRY_ADMIT and HOLD_EXPIRY. -/
def Obligations.PushLane : Prop :=
  ∀ (s : State) (sl : Fin 256) (n : Fin 16) (off : Fin 256) (data : Bytes) (aux : List (Nat × Bytes)),
    let d := s.dev
    let x := d.slice sl
    let e := pushBytes sl n off data d
    (d.open_ sl = true → d.link.halt = false → Gives (.pushSlotPost sl n off data) s e) ∧
    (x.pushFree.getLsbD n.val = true → data.length + off.val ≤ 256 →
      (∀ i, i < data.length → tget 0 ((e.slice sl).pslotAt n).bytes (off.val + i) = data.getD i 0) ∧
      (∀ i, i < off.val ∨ off.val + data.length ≤ i →
        tget 0 ((e.slice sl).pslotAt n).bytes i = tget 0 (x.pslotAt n).bytes i) ∧
      ((e.slice sl).pushFree.getLsbD n.val = false ↔ ((e.slice sl).pslotAt n).written = BitVec.allOnes 64) ∧
      ∀ k, k ≠ sl.val → e.slice k = d.slice k) ∧
    (x.pushFree.getLsbD n.val = false → exec (.pushSlotPost sl n off data) s = .next s) ∧
    (pushReady d sl n = false → exec (.pushEntryAdmit sl n aux) s = .next s) ∧
    (pushReady d sl n = true → ∀ b bad k, b = pushEntry (x.pslotAt n) → bad = pushFaulty b →
      k = (if bad then 0 else bits (gctl b) 3 0) →
      GivesBoth (.pushEntryAdmit sl n aux) s (hookNext (admitCmd sl 0 (some n.val) n
        (packetOf (seg b 0 64) ((List.range k).map (fun i => seg b (64 * (i + 1)) 64)) bad) aux s.mem (freePush sl n d)) s.mem)) ∧
    (∀ id c, findCmd d id = some c → c.stage = .held → d.alive = true →
      (c.pkt.nbv = false ∨ c.pkt.notBefore ≤ d.devTime ∧ actionAhead d = false) →
      GivesBoth (.holdExpiry id) s (hookNext (resolve id d) s.mem)) ∧
    (∀ id c, findCmd d id = some c → c.stage = .held → c.pkt.nbv = true →
      (d.devTime < c.pkt.notBefore ∨ actionAhead d = true) → exec (.holdExpiry id) s = .next s)

/-! Exchange windows, mailboxes, interrupts. -/

/-- XW_OWNER_WRITE, XW_RECLAIM_APPLY and XW_BAR2_ACCESS. -/
def Obligations.ExchangeWindows : Prop :=
  ∀ (s : State) (sl : Fin 256) (n : Fin 16) (v : BitVec 32) (off width : Nat) (wr : Option Nat),
    let d := s.dev
    let a := sl.val * 65536 + off
    Gives (.xwOwnerWrite sl n v) s
      (if d.open_ sl then modPage sl n (fun p =>
         if v.getLsbD 0 then ⟨true, false⟩
         else if p.owner && pageBusy d sl n then ⟨p.owner, true⟩ else ⟨false, false⟩) d
       else d) ∧
    Gives (.xwReclaimApply sl n) s
      (if ((d.slice sl).page n).reclaim = true ∧ pageBusy d sl n = false then
         modPage sl n (fun _ => ⟨false, false⟩) d else d) ∧
    (0x1000000 < a + width → exec (.xwBar2Access sl off width wr) s = .fault .outsideBar) ∧
    (a + width ≤ 0x1000000 → Gives (.xwBar2Access sl off width none) s
      (bar2Fault a false (emit (.readData ((List.range width).map (fun i => bar2Byte d s.mem (a + i)))) d))) ∧
    (∀ b, bar2Open d b = false → bar2Byte d s.mem b = 0xFF) ∧
    (∀ b, bar2Open d b = false ∨ hbmOk d (b / 65536) = true → ∀ w e, bar2Open e b = bar2Open d b →
      hbmOk e (b / 65536) = hbmOk d (b / 65536) → bar2Fault b w e = e) ∧
    (∀ w, a + width ≤ 0x1000000 →
      let t := bar2Write d s.mem a (leBytes width w)
      GivesBoth (.xwBar2Access sl off width (some w)) s (bar2Fault a true d, t) ∧
      t.scr = s.mem.scr ∧ t.dram = s.mem.dram ∧ t.iram = s.mem.iram ∧
      (s.mem.wf = true →
        (∀ b, b < xwBase 0 + a ∨ xwBase 0 + a + width ≤ b → memGet t.hbm b = memGet s.mem.hbm b) ∧
        ∀ i, i < width → memGet t.hbm (xwBase 0 + a + i) =
          if bar2Open d (a + i) && hbmOk d ((a + i) / 65536) then (leBytes width w).getD i 0
          else memGet s.mem.hbm (xwBase 0 + a + i)))

/-- Mailboxes, interrupts and slice events. First: The mailbox and interrupt rows of a slice that is open. Then: An event on vector `v` of slice `k`: pending, and sent where R84 and R85 let its message go. -/
def Obligations.MailboxesAndSliceEvents : Prop :=
  (
    ∀ (s : State) (sl : Fin 256) (v : BitVec 32), s.dev.open_ sl = true →
      let d := s.dev
      let x := d.slice sl
      Gives (.t2mPost sl) s (if x.t2mFull then d else raisePf0 sl (d.modSlice sl (fun y => { y with t2mFull := true }))) ∧
      Gives (.m2tAck sl) s (d.modSlice sl (fun y => { y with m2tFull := false })) ∧
      Gives (.m2tPost sl) s (if x.m2tFull then d else raiseSlice sl 1 (d.modSlice sl (fun y => { y with m2tFull := true }))) ∧
      Gives (.t2mAck sl) s (if x.t2mFull then raiseSlice sl 1 (d.modSlice sl (fun y => { y with t2mFull := false })) else d) ∧
      Gives (.intMaskWrite sl v) s
        (forEach (List.range 4) (sendSliceMsg sl) (d.modSlice sl (fun y => { y with intMask := v.setWidth 4 }))) ∧
      Gives (.intPendingClear sl v) s (d.modSlice sl (fun y => { y with
        intPend := y.intPend &&& ~~~(v.setWidth 4), intSent := y.intSent &&& ~~~(v.setWidth 4) })) ∧
      Gives (.ideCtrlWrite v) s { d with link := { d.link with
        ideRequired := if d.link.ideLock then d.link.ideRequired else v.getLsbD 0
        ideLock := d.link.ideLock || v.getLsbD 31 } }
  ) ∧ (
    ∀ (d : Dev) (k : Nat) (v : Fin 4),
      let e := raiseSlice k v d
      let m := (d.slice k).intMsg.getD v ⟨0, 0⟩
      (e.slice k).intPend.getLsbD v.val = true ∧
      (∀ w : Fin 4, w ≠ v → (e.slice k).intPend.getLsbD w.val = (d.slice k).intPend.getLsbD w.val) ∧
      e.out = (if (d.slice k).intMask.getLsbD v.val = false ∧ (d.slice k).intSent.getLsbD v.val = false ∧ m.addr ≠ 0 then
        d.out ++ [.sliceMsg k v m.addr.toNat m.data.toNat] else d.out) ∧
      ∀ j, j ≠ k → e.slice j = d.slice j
  )

/-! Slice administration. -/

/-- The four commands of a slice's lifetime at their execution step. -/
def Obligations.SliceLifetime : Prop :=
  ∀ (s : State) (id : Nat) (c : Cmd) (cfg0 : SliceCfg),
    let d := s.dev
    let x := d.slice c.prm
    (AtStep s id .sliceCreate c → ∀ mask cfg, clampCfg d c.prm (input s c 0) = .inr (mask, cfg) → c.prm ≠ 0 →
      createRefused d c.prm = false → x.st = .free → windowOwed (createSlice c.prm cfg d).2 c.prm = false →
      Gives (.sliceCreate id) s (outcomeIs { status := clampStatus mask, result := [], outs :=
        [(1, clampReport mask cfg), (2, leBytes 4 (b2n (createSlice c.prm cfg d).1))] } id (createSlice c.prm cfg d).2)) ∧
    (AtStep s id .sliceCreate c → ∀ mask cfg, clampCfg d c.prm (input s c 0) = .inr (mask, cfg) → c.prm ≠ 0 →
      createRefused d c.prm = false → x.st = .free → windowOwed (createSlice c.prm cfg d).2 c.prm = true →
      Gives (.sliceCreate id) s (setCmd { c with stage := .waiting, outcome := some { status := clampStatus mask, result := [], outs :=
        [(1, clampReport mask cfg), (2, leBytes 4 (b2n (createSlice c.prm cfg d).1))] } } (createSlice c.prm cfg d).2)) ∧
    (AtStep s id .sliceCreate c → ∀ mask cfg, clampCfg d c.prm (input s c 0) = .inr (mask, cfg) → c.prm ≠ 0 →
      createRefused d c.prm = false → x.st ≠ .free → Ends (.sliceCreate id) s id .sliceStateInvalid) ∧
    (AtStep s id .sliceCreate c → ∀ mask cfg, clampCfg d c.prm (input s c 0) = .inr (mask, cfg) → c.prm = 0 →
      Ends (.sliceCreate id) s id .sliceStateInvalid) ∧
    ((createSlice c.prm cfg0 d).2.slice c.prm).st = .active ∧ ((createSlice c.prm cfg0 d).2.slice c.prm).nextCfg = some cfg0 ∧
    (AtStep s id .sliceDestroy c → Gives (.sliceDestroy id) s
      (if c.prm = 0 ∨ x.st = .free then failWith .sliceStateInvalid id d
       else failWith .ok id (destroySlice c.prm d))) ∧
    ((destroySlice c.prm d).slice c.prm).st = .free ∧ ((destroySlice c.prm d).slice c.prm).sqs = [] ∧
    (AtStep s id .slicePause c → Gives (.slicePause id) s
      (if c.prm ≠ 0 ∧ x.st = .active then failWith .ok id (d.modSlice c.prm (fun y => { y with st := .paused }))
       else failWith .sliceStateInvalid id d)) ∧
    (AtStep s id .sliceResume c → Gives (.sliceResume id) s
      (if c.prm ≠ 0 ∧ x.st = .paused then failWith .ok id (d.modSlice c.prm (fun y =>
         { y with st := .active, fetchFrom := d.sched.rounds + 1 }))
       else failWith .sliceStateInvalid id d))

/-- SLICE_CONFIGURE and the PASID commands at their execution step, and PASID_UNBIND_DONE. -/
def Obligations.SliceConfiguration : Prop :=
  ∀ (s : State) (id : Nat) (c : Cmd) (sl : Fin 256) (n : Fin 4),
    let d := s.dev
    let x := d.slice c.prm
    let b := input s c 0
    (AtStep s id .sliceConfigure c → ∀ mask cfg, clampCfg d c.prm b = .inr (mask, cfg) → x.st = .active ∨ x.st = .paused →
      Gives (.sliceConfigure id) s
        (if cfg.queues < x.newest.queues ∧ queuesInUse x cfg.queues = true then failWith .sliceStateInvalid id d
         else outcomeIs { status := clampStatus mask, outs := [(1, clampReport mask cfg)], result := [] } id
           (d.modSlice c.prm (fun y => { y with nextCfg := some cfg })))) ∧
    (AtStep s id .pasidBind c → allZero (seg b 1 3) = true → field b 4 4 < 2 ^ 20 → field b 0 1 ≤ 3 →
      noPasids d c.prm = false →
      Gives (.pasidBind id) s
        (if (d.pslot c.prm (field b 0 1)).valid || pasidUsed d (BitVec.ofNat 20 (field b 4 4)) then
           failWith .pasidInUse id d
         else failWith .ok id (d.modSlice c.prm (fun y => { y with
           pasids := y.pasids.set (field b 0 1) ⟨true, BitVec.ofNat 20 (field b 4 4), false⟩ })))) ∧
    (AtStep s id .pasidUnbind c → allZero (b.drop 1) = true → field b 0 1 ≤ 3 → noPasids d c.prm = false →
      Gives (.pasidUnbind id) s
        (if (d.pslot c.prm (field b 0 1)).valid = false then failWith .ok id d
         else if slotQueued x (field b 0 1) then failWith .pasidInUse id d
         else setCmd { c with stage := .waiting } (d.modSlice c.prm (fun y => { y with
           pasids := y.pasids.modify (field b 0 1) (fun p => { p with closing := true }) })))) ∧
    ((d.pslot sl n).closing = false → exec (.pasidUnbindDone sl n) s = .next s) ∧
    ((d.pslot sl n).closing = true →
      d.cmds.any (fun e => e.slice == sl.val && !e.refused && namesSlot e n) = false →
      let p := (d.pslot sl n).pasid.toNat
      let e := d.modSlice sl (fun y => { y with pasids := y.pasids.set n ⟨false, 0, false⟩ })
      let waiting := d.cmds.filter (fun w => w.op == .pasidUnbind && w.stage == .waiting && w.prm == sl.val
        && field (inp s.mem d w 0) 0 1 == n.val)
      Gives (.pasidUnbindDone sl n) s
        (forEach (waiting.map (·.id)) (fun i => conclude i (bare .ok))
          (emit (.atsInvalidated p) { e with dma := { e.dma with
            ats := e.dma.ats.filter (fun (a : Nat × Nat) => a.1 != p) } }))) ∧
    (d.cmds.any (fun e => e.slice == sl.val && !e.refused && namesSlot e n) = true →
      exec (.pasidUnbindDone sl n) s = .next s)

/-- A configuration block that is not refused: what is applied lies in its ranges, and CLAMP_MASK names what differs. -/
def Obligations.ClampedConfiguration : Prop :=
  ∀ (d : Dev) (k : Nat) (b : Bytes) (mask : Nat) (cfg : SliceCfg), clampCfg d k b = .inr (mask, cfg) →
    64 ≤ cfg.cap ∧ cfg.cap ≤ 65536 ∧ cfg.shLattice ≤ 1023 ∧ cfg.shHash ≤ 1023 ∧ cfg.shCode ≤ 1023 ∧
    cfg.shClassical ≤ 1023 ∧ cfg.shCipher ≤ 1023 ∧ 1 ≤ cfg.queues ∧ cfg.queues ≤ 16 ∧
    (mask = 0 ↔ cfg.quota = field b 0 4 ∧ cfg.cap = field b 4 4 ∧ cfg.shLattice = field b 8 2 ∧
      cfg.shHash = field b 0xA 2 ∧ cfg.shCode = field b 0xC 2 ∧ cfg.shClassical = field b 0xE 2 ∧
      cfg.shCipher = field b 0x10 2 ∧ cfg.queues = field b 0x12 1 ∧ cfg.maskOrder = field b 0x13 1)

/-! The fault collector, tamper commands, diagnostics. -/

/-- The fault collector and the first fault it captures. First: The rows of the fault collector and the event log, in a powered device. Then: A CORRECTED fault: what it captures, and that it stops nothing. -/
def Obligations.FaultsCaptured : Prop :=
  (
    ∀ (s : State) (src : Fin 420) (addr : BitVec 64) (access : Nat) (cmd : Option Nat) (k : Fin 14) (v : BitVec 32)
      (pass : Bool) (idx : Fin 512), s.dev.reachable = true →
      let d := s.dev
      let clear := (v.setWidth 448) <<< (32 * k.val) &&& d.prot.pendingFc
      let done := { d with
        prot := { d.prot with
          pendingFc := d.prot.pendingFc &&& ~~~clear
          escal := d.prot.escal.filter (fun e => !clear.getLsbD e.1) }
        micro := { d.micro with
          suspended := d.micro.suspended.filter (fun j => !clear.getLsbD (224 + j))
          recheck := (d.micro.suspended.filter (fun j => clear.getLsbD (224 + j))).foldl
            (fun m j => tset m j (d.clk + 10000)) d.micro.recheck } }
      let again := { done with prot := { done.prot with
        entropy := d.prot.entropy.map (fun e => { e with failed := e.failed && !pass }) } }
      (d.link.halt = false →
        Gives (.faultDetect src addr access cmd) s
          (raiseFault src addr.toNat access cmd (if src.val = 407 then entropyFail addr.toNat d else d))) ∧
      (d.link.halt = true → exec (.faultDetect src addr access cmd) s = .next s) ∧
      Gives (.faultEscalation src) s
        (if d.prot.escal.any (fun e => e.1 == src.val && decide (e.2 ≤ d.clk)) then
           driveErrN (fatalHalt src (raisePf0 258
             { d with prot := { d.prot with escal := d.prot.escal.filter (fun e => e.1 != src.val) } }))
         else d) ∧
      (clear.getLsbD 407 = false → Gives (.fcPendingClear k v pass) s (driveErrN done)) ∧
      (clear.getLsbD 407 = true → Gives (.fcPendingClear k v pass) s
        (driveErrN (if again.prot.entropy.any (·.failed) then raiseFault 407 0 0 none again else again))) ∧
      Gives (.fcFirstClr v) s
        (if v.getLsbD 0 then { d with prot := { d.prot with firstInfo := 0x0000FFFF, firstAddr := 0, firstTime := 0 } } else d) ∧
      (∀ r, tfind d.prot.log idx = some r → Gives (.eventLogRead idx) s
        { d with prot := { d.prot with log := tset d.prot.log idx { r with read := true } } }) ∧
      (tfind d.prot.log idx = none → exec (.eventLogRead idx) s = .next s)
  ) ∧ (
    ∀ (d : Dev) (src : Fin 420) (addr access : Nat) (cmd : Option Nat), faultClass src = 1 →
      let e := raiseFault src addr access cmd d
      (d.prot.firstInfo.getLsbD 31 = false →
        e.prot.firstInfo = firstInfoOf src 1 access ((cmd.bind (findCmd d)).map (masterId d)) ∧
        e.prot.firstAddr = BitVec.ofNat 64 addr ∧ e.prot.firstTime = d.devTime) ∧
      (d.prot.firstInfo.getLsbD 31 = true → e.prot.firstInfo = d.prot.firstInfo ∧ e.prot.firstAddr = d.prot.firstAddr ∧
        e.prot.firstTime = d.prot.firstTime) ∧
      (d.prot.corrCount < 2 ^ 32 - 1 → d.prot.corrCount < e.prot.corrCount) ∧
      e.cmds = d.cmds ∧ e.slices = d.slices ∧ e.link = d.link ∧ e.prot.pendingFc = d.prot.pendingFc ∧
      e.linen.ipend.getLsbD 24 = true
  )

/-- ERR_N follows the pending and the FATAL faults through every fault that is raised. -/
def Obligations.ErrNFollowsFaults : Prop :=
  ∀ (d : Dev) (src : Fin 420) (addr access : Nat) (cmd : Option Nat),
    d.link.errNLow = (d.prot.fatal || d.prot.pendingFc != 0) →
    let e := raiseFault src addr access cmd d
    e.link.errNLow = (e.prot.fatal || e.prot.pendingFc != 0)

/-- TAMPER_POLICY_SET at its execution step: SET, RESUME, CLEAR_LATCH and FUSE, and the end of the write that a FUSE began. -/
def Obligations.TamperCommands : Prop :=
  ∀ (s : State) (id : Nat) (c : Cmd), AtStep s id .tamperPolicySet c →
    let d := s.dev
    let b := input s c 0
    let lv := (List.range 32).map (fun k => (b.getD k 0).toNat)
    let good := !lv.any (· > 4) && !(List.range 32).any (fun k => lv.getD k 0 != 0 &&
      (k == 29 || k == 30 || d.otp.fuses.getLsbD k))
    let map : BitVec 32 := BitVec.ofNat 32 (field b 0 4)
    (c.prm = 0 → good = false → Ends (.tamperPolicySet id) s id .fieldRejected) ∧
    (c.prm = 0 → good = true → Gives (.tamperPolicySet id) s
      (if d.lc = 19 ∧ (List.range 32).any (fun k => decide (lv.getD k 0 < levelOf d k)) = true then
         failWith .policyRefused id d
       else failWith .ok id { d with prot := { d.prot with levels := lv } })) ∧
    (c.prm = 1 → d.prot.active ≠ 0 ∨ d.prot.latched = true → Ends (.tamperResume id) s id .policyRefused) ∧
    (c.prm = 1 → d.prot.active = 0 → d.prot.latched = false → d.prot.st = .normal → Ends (.tamperResume id) s id .ok) ∧
    (c.prm = 1 → d.prot.active = 0 → d.prot.latched = false → d.prot.st = .hold → Gives (.tamperResume id) s
      (let e := { d with prot := { d.prot with seen := 0, st := .normal } }
       failWith .ok id (releaseTamperN (releaseBus (endHold
         { e with sched := { e.sched with resumeFrom := e.sched.rounds + 1 } }))))) ∧
    (c.prm = 1 → d.prot.active = 0 → d.prot.latched = false → d.prot.st = .erased → Gives (.tamperResume id) s
      (let e := leaveErased { d with prot := { d.prot with seen := 0 } }
       failWith .ok id (releaseTamperN (releaseBus (endHold
         { e with sched := { e.sched with resumeFrom := e.sched.rounds + 1 } }))))) ∧
    (c.prm = 2 → d.prot.active ≠ 0 → Ends (.clearLatch id) s id .policyRefused) ∧
    (c.prm = 2 → d.prot.active = 0 → d.prot.latched = false → Ends (.clearLatch id) s id .ok) ∧
    (c.prm = 2 → d.prot.active = 0 → d.prot.latched = true → Gives (.clearLatch id) s
      (failWith .ok id (releaseTamperN (releaseBus (regenerateMasters (leaveErased { d with prot := { d.prot with
        latched := false, seen := 0, batCount := 0, batLog := List.replicate 16 0 } })))))) ∧
    (c.prm = 3 → d.lc ≠ 18 → Ends (.fuse id) s id .lifecycleRefused) ∧
    (c.prm = 3 → d.lc = 18 → field b 4 4 = 0 → map &&& ~~~fusable = 0 → d.prot.fuseDue = none → Gives (.fuse id) s
      (setCmd { c with stage := .waiting } { d with prot := { d.prot with fuseDue := some (id, map) } })) ∧
    (∀ w : BitVec 32, d.alive = true → d.link.lcRun = none → d.micro.floorDue = none → d.prot.fuseDue = some (id, w) →
      d.otp.fuseTorn = none →
      let all := d.otp.fuses ||| w
      Gives .otpWriteComplete s (linenPend 19 (conclude id (bare .ok) { d with
        otp := { d.otp with fuseCells := all }
        prot := { d.prot with fuseDue := none, active := d.prot.active &&& ~~~all } })))

/-- The erasure of working keys: what is gone afterwards. -/
def Obligations.ErasureErases : Prop :=
  ∀ d : Dev,
    (eraseKeys d).led.keyHeld = false ∧ (eraseKeys d).micro.jobs = [] ∧ (eraseKeys d).micro.ctxs = [] ∧
    (eraseKeys d).dma.slotKeys = [] ∧ (eraseKeys d).linen.sdu.keyHeld = false ∧
    (∀ e ∈ (eraseKeys d).slices, e.2.streams = []) ∧ (∀ e ∈ (eraseKeys d).cust, e.2.comp = none) ∧
    (eraseKeys d).otp = d.otp ∧ ∀ k : Nat, (latch d).prot.latched = true ∧ ((latch d).custody k).master = none

/-- The diagnostic commands at their execution step. -/
def Obligations.Diagnostics : Prop :=
  ∀ (s : State) (id : Nat) (c : Cmd),
    let d := s.dev
    let b := input s c 0
    let map : BitVec 32 := BitVec.ofNat 32 (field b 0 4)
    let list := (List.range 32).filter (fun k => map.getLsbD k)
    (AtStep s id .selfTest c → map &&& (d.otp.fuses ||| 0x60000000) ≠ 0 → Ends (.selfTest id) s id .fieldRejected) ∧
    (AtStep s id .selfTest c → map &&& (d.otp.fuses ||| 0x60000000) = 0 → d.hold = true ∨ d.prot.caution = true →
      Ends (.selfTest id) s id .policyRefused) ∧
    (AtStep s id .selfTest c → map &&& (d.otp.fuses ||| 0x60000000) = 0 → d.hold = false → d.prot.caution = false →
      d.prot.selfTest = none → list ≠ [] → Gives (.selfTest id) s
        (setCmd { c with stage := .waiting } { d with prot := { d.prot with
          selfTest := some { cmd := id, left := list, pass := 0, fail := 0, until_ := d.clk + 50000 } } })) ∧
    (∀ t (k : Fin 32), d.prot.selfTest = some t → t.left = [k.val] → Gives (.monitorTestEnd k true false) s
      (conclude t.cmd { status := .ok, result := [], outs :=
        [(1, leBytes 4 (t.pass ||| (1#32 <<< k.val)).toNat ++ leBytes 4 t.fail.toNat)] }
        (raisePf0 326 (logEvent 7 1 k [] { d with prot := { d.prot with selfTest := none } })))) ∧
    (∀ t (k : Fin 32) persists, d.prot.selfTest = some t → t.left = [k.val] →
      let v := conclude t.cmd { status := .ok, result := [], outs :=
        [(1, leBytes 4 t.pass.toNat ++ leBytes 4 (t.fail ||| (1#32 <<< k.val)).toNat)] }
        (raisePf0 326 (logEvent 7 0 k [] { d with prot := { d.prot with selfTest := none } }))
      GivesBoth (.monitorTestEnd k false persists) s (alarm k v, alarmMem (levelOf v k) s.mem)) ∧
    (∀ t (k : Fin 32) l, d.prot.selfTest = some t → t.left = k.val :: l → l ≠ [] →
      Gives (.monitorTestEnd k true false) s (logEvent 7 1 k [] { d with prot := { d.prot with
        selfTest := some { t with left := l, until_ := d.clk + 50000, pass := t.pass ||| (1#32 <<< k.val) } } })) ∧
    (d.prot.selfTest = none → ∀ k p q, exec (.monitorTestEnd k p q) s = .next s) ∧
    (AtStep s id .entropyStatus c → d.prot.entropy.all (·.failed) = true → Ends (.entropyStatus id) s id .entropyFail) ∧
    (AtStep s id .entropyStatus c → d.prot.entropy.all (·.failed) = false → Yields (.entropyStatus id) s id
      [(0, d.prot.entropy.flatMap (fun e => leBytes 1 (b2n e.failed) ++ zeros 1 ++ leBytes 2 e.repFails
        ++ leBytes 2 e.adaptFails ++ zeros 2) ++ d.prot.drbg.flatMap (fun x => leBytes 4 x.count))] d) ∧
    (AtStep s id .echo c → Yields (.echo id) s id [(1, b)] d) ∧
    (AtStep s id .faultInject c → allZero (b.drop 2) = false → Ends (.faultInject id) s id .packetMalformed) ∧
    (AtStep s id .faultInject c → allZero (b.drop 2) = true → field b 0 2 < 420 →
      Gives (.faultInject id) s (raiseFault (field b 0 2) 0 0 none (failWith .ok id d))) ∧
    (AtStep s id .faultInject c → allZero (b.drop 2) = true → 420 ≤ field b 0 2 → field b 0 2 < 32768 →
      Ends (.faultInject id) s id .fieldRejected)

/-! The scheduler, the results stage, the release. -/

/-- SCHEDULING_ROUND of a device that runs, 1 µs after the last one: what the round shares out is fixed, and every
account's deficit is refilled (the accounts that are refilled are the model's reading, log 29). -/
def Obligations.RoundRefillsDeficits : Prop :=
  ∀ s : State, s.dev.alive = true → s.dev.link.started = true →
    let d := fixRound { s.dev with sched := { s.dev.sched with
      rounds := (s.dev.sched.rounds + 1) % 2 ^ 64, lastRound := s.dev.sched.lastRound + 1000 } }
    let accts := (liveSlices d ++ readyAccounts d .lattice ++ readyAccounts d .hash ++ readyAccounts d .code
      ++ readyAccounts d .classical ++ readyAccounts d .cipher
      ++ (if (d.slice 256).deficit.isEmpty then [] else [256])).eraseDups
    let e := [.lattice, .hash, .code, .classical, .cipher].foldl (fun d k => noteReady k d) (forEach accts (refill d) d)
    (s.dev.clk < s.dev.sched.lastRound + 1000 → exec .schedulingRound s = .next s) ∧
    (s.dev.sched.lastRound + 1000 ≤ s.dev.clk → Gives .schedulingRound s e) ∧
    e.sched.rounds = (s.dev.sched.rounds + 1) % 2 ^ 64 ∧ e.cmds = s.dev.cmds ∧ e.led = s.dev.led ∧
    (∀ a k, worth d a k = poolOf d k * 1000 * shareOf d a (classNo k)
      / ((readyAccounts d k).map (fun b => shareOf d b (classNo k))).sum) ∧
    ∀ a k, a ∈ liveSlices d ∨ readyIn d a k ≠ [] →
      deficitOf e a k =
        if (readyIn d a k).isEmpty then 0 else min (deficitOf d a k) (4 * (worth d a k : Int)) + (worth d a k : Int)

/-- What the scheduler offers may be dispatched, and what it dispatches was offered. -/
def Obligations.OfferedMayBeDispatched : Prop :=
  ∀ (m : Memory) (d : Dev) (k : EngClass),
    (∀ c ∈ offers m d k, c.stage = .ready ∧ fenced d c = false ∧ segmentAhead d c = false ∧ ringStalled d c = false ∧
      ∀ j ∈ c.classes, shareOf d c.account (classNo j) ≠ 0) ∧
    (∀ l e c, dispatchFirst l d = (some c, e) → c ∈ l)

/-- Dispatch and the end of jobs. First: COMMAND_DISPATCH of a class. Then: ENGINE_JOB_END of a running command in a live device. -/
def Obligations.DispatchAndJobs : Prop :=
  (
    ∀ (s : State) (k : EngClass),
      (mayStart s.dev = false → exec (.commandDispatch k) s = .next s) ∧
      (mayStart s.dev = true → ∀ d, d = noteReady k (dropGathers s.dev) →
        (∀ c e, dispatchFirst (offers s.mem d k) d = (some c, e) →
          Gives (.commandDispatch k) s { e with
            sched := { e.sched with
              rrSlice := tset e.sched.rrSlice (classNo k) c.account
              rrQueue := tset e.sched.rrQueue (classNo k * 512 + c.account) c.qk } }) ∧
        (∀ e, dispatchFirst (offers s.mem d k) d = (none, e) → Gives (.commandDispatch k) s e))
  ) ∧ (
    ∀ (s : State) (id : Nat) (c : Cmd), findCmd s.dev id = some c → c.stage = .running → s.dev.alive = true →
      let d := s.dev
      (d.clk < c.endAt → Gives (.engineJobEnd id) s (preempt s.mem c d)) ∧
      (c.endAt ≤ d.clk → c.outcome = none → exec (.engineJobEnd id) s = .next s) ∧
      (∀ o, c.endAt ≤ d.clk → c.outcome = some o → (c.overlap && isSecret d c) = false → ∀ p,
        p = (if c.retried && o.status = .ok then { o with status := .okRetried } else o) →
        let e := setCmd { c with stage := .results, units := keptLanes c p, outcome := some p } (wipeJob c.id d)
        (o.fault = none → Gives (.engineJobEnd id) s e) ∧
        (∀ j, o.fault = some j → Gives (.engineJobEnd id) s (faultOfUnit j c e))) ∧
      (∀ o, c.endAt ≤ d.clk → c.outcome = some o → (c.overlap && isSecret d c) = true → c.retried = false →
        Gives (.engineJobEnd id) s (runAgain c d)) ∧
      (∀ o, c.endAt ≤ d.clk → c.outcome = some o → (c.overlap && isSecret d c) = true → c.retried = true →
        Gives (.engineJobEnd id) s (setCmd { c with
          stage := .results, units := [], entry := none, undo := none
          outcome := some (bare .faultDetected) } (discardJob c d)))
  )

/-- RESULTS_WRITTEN and COMPLETION_RELEASE. -/
def Obligations.ResultsAndRelease : Prop :=
  ∀ (s : State) (id : Nat) (c : Cmd) (o : Outcome) (sl : Fin 256) (r : Fin 16),
    let d := s.dev
    (findCmd d id = some c → c.stage = .results → c.outcome = some o → d.alive = true → d.dmaHeld = false →
      taken c d = none → c.foreign = none →
      let e := writeOuts c o.outs (if validOut o.status then settleEntry c d else freePendingOf c d, s.mem)
      let f := (findCmd e.1 id).getD c
      let n := if validOut o.status then (o.outs.map (·.2.length)).sum else 0
      GivesBoth (.resultsWritten id .ok) s (toPool { f with outLen := n } e.1, e.2) ∧
      e.2.scr = s.mem.scr ∧ e.2.dram = s.mem.dram ∧ e.2.iram = s.mem.iram ∧
      ((∀ x ∈ o.outs, (c.pkt.desc x.1).space = 0) → e.2 = s.mem)) ∧
    (∀ st w, findCmd d id = some c → c.stage = .results → d.alive = true → d.dmaHeld = false → taken c d = some st →
      Gives (.resultsWritten id w) s
        (toPool { c with outcome := some (bare st), entry := none } (freePendingOf c d))) ∧
    (findCmd d id = some c → c.stage ≠ .results → ∀ w, exec (.resultsWritten id w) s = .next s) ∧
    (releasable d sl r).length ≤ 64 ∧ (∀ e ∈ releasable d sl r, e.stage = .done ∧ e.slice = sl.val ∧ e.ring = r.val) ∧
    (∀ w, mayRelease d sl r = false → exec (.completionRelease sl r w) s = .next s) ∧
    (∀ w, mayRelease d sl r = true → releasable d sl r = [] → Gives (.completionRelease sl r w) s (stallRing sl r d)) ∧
    (∀ w, mayRelease d sl r = true → releasable d sl r ≠ [] →
      let batch := releasable d sl r
      let y := d.cq sl r
      let recs := y.uncovered ++ numbered y.depth y.head batch
      let head := (y.head + batch.length) % (2 * y.depth)
      let writes := recs.map (fun e => (y.base + 32 * (e.1 % y.depth), e.2))
        ++ [(y.headAddr, leBytes 4 (wordOfPos y.depth head))]
      let bad := w.filter (fun i => decide (i < writes.length))
      let d1 := { d with cmds := d.cmds.filter (fun e => !batch.any (fun f => f.id == e.id)) }.modCq sl r (fun y => { y with
        head := head, headOut := if bad.isNone then head else y.headOut, since := y.since + batch.length
        firstAt := some (y.firstAt.getD d.clk), uncovered := if bad.isNone then [] else recs })
      let d2 := forEach (writes.take (bad.getD writes.length)) (fun e => hostWrite sl y.pasidSlot e.1 e.2) d1
      let d3 := match bad with
        | some i => pasidFault sl (writes.getD i (0, [])).1 5 d2
        | none => d2
      let d4 := d3.modSlice sl (fun x => { x with cqEvent := x.cqEvent ||| (1#16 <<< r.val) })
      Gives (.completionRelease sl r w) s (decommissioned sl (stallRing sl r
        (if y.intEn && decide (max 1 y.coalCount ≤ y.since + batch.length) then cqSignal sl r d4 else d4))))

/-- Engines in service, streams, empty classes. First: ENGINE_SERVICE at its execution step; UNIT_DRAIN_DONE and ENGINE_TEST_END. Then: STREAM_IDLE_TIMEOUT, CLASS_EMPTY_TIMEOUT, CONFIG_APPLY and KAT_RUN. -/
def Obligations.EngineStreams : Prop :=
  (
    ∀ (s : State) (id : Nat) (c : Cmd) (k : UnitClass) (u : Nat),
      let d := s.dev
      let b := input s c 0
      (AtStep s id .engineService c → uclassOf (field b 0 1) = none → Ends (.engineService id) s id .fieldRejected) ∧
      (AtStep s id .engineService c → uclassOf (field b 0 1) = some k → field b 2 2 = u → u < unitCount k →
        field b 4 4 = 0 →
        (field b 1 1 = 0 → Gives (.engineService id) s (serviceDone .ok k u id d)) ∧
        (field b 1 1 = 1 → (d.unit k u).st = .inService → Gives (.engineService id) s
          (if inServiceCount d k ≤ 1 then failWith .policyRefused id d else serviceWait c k u (setUnitSt k u .draining d))) ∧
        (field b 1 1 = 1 → (d.unit k u).st = .out → Gives (.engineService id) s (serviceDone .ok k u id d)) ∧
        (field b 1 1 = 2 → (d.unit k u).st = .inService → Gives (.engineService id) s (serviceDone .ok k u id d)) ∧
        (field b 1 1 = 2 → (d.unit k u).st = .out ∨ (d.unit k u).st = .outFault → Gives (.engineService id) s
          (if d.prot.pendingFc.getLsbD (unitSource k + u) then failWith .policyRefused id d
           else serviceWait c k u (startTest k u d)))) ∧
      ((d.unit k u).st ≠ .draining ∨ unitUsed d k u ≠ 0 → exec (.unitDrainDone k u) s = .next s) ∧
      ((d.unit k u).st = .draining → unitUsed d k u = 0 → (d.unit k u).testFor = none →
        Gives (.unitDrainDone k u) s (releaseWaiters .ok k u (setUnitSt k u .out d))) ∧
      ((d.unit k u).st ≠ .testing ∨ d.clk < (d.unit k u).testEnd → ∀ p, exec (.engineTestEnd k u p) s = .next s) ∧
      ((d.unit k u).st = .testing → (d.unit k u).testEnd ≤ d.clk → (d.unit k u).testFor = none →
        let x := d.unit k u
        let e := d.modUnit k u (fun y => { y with
          waiter := [], outAfter := false, testFor := none, joinAt := d.sched.rounds + 1 })
        let good := setUnitSt k u (if x.outAfter then .out else .inService) e
        let bad := setUnitSt k u .outFault e
        let rep (f : Dev) : Outcome := { status := .ok, outs := [(1, unitReport (f.unit k u))], result := [] }
        Gives (.engineTestEnd k u true) s (forEach x.waiter (fun i => conclude i (rep good)) good) ∧
        Gives (.engineTestEnd k u false) s (raiseFault (unitSource k + u) 0 0 none
          (forEach (x.waiter.drop 1) (fun i => conclude i (rep bad))
            (forEach (x.waiter.take 1) (fun i => conclude i (bare .invariantFail)) bad))))
  ) ∧ (
    ∀ (s : State) (sl sid : Fin 256) (id : Nat) (c : Cmd),
      let d := s.dev
      (∀ t, (d.slice sl).streams.find? (fun x => x.sid == sid.val) = some t → Gives (.streamIdleTimeout sl sid) s
        (if d.cmds.any (fun e => e.slice == sl.val && e.inFlight && e.pkt.segf != 0 && e.pkt.sid == sid.val
            && e.qk == t.queue) = false ∧ t.lastAt + 1000000000 ≤ d.clk then sweep (dropStream sl sid d) else d)) ∧
      ((d.slice sl).streams.find? (fun x => x.sid == sid.val) = none → exec (.streamIdleTimeout sl sid) s = .next s) ∧
      (∀ j t, findCmd d id = some c → c.stage = .ready → d.alive = true → j ∈ c.classes → inServiceCount d (ucOf j) = 0 →
        tfind d.sched.emptySince (uclassNo (ucOf j)) = some t → t + 1000000 ≤ d.clk →
        Gives (.classEmptyTimeout id) s (abortWith .faultDetected id d)) ∧
      (∀ cfg, (d.slice sl).nextCfg = some cfg → Gives (.configApply sl) s
        (if d.atRound = true ∧ d.cmds.any (fun e => (e.op == .sliceCreate || e.op == .sliceConfigure) && e.prm == sl.val
            && (e.stage == .results || e.stage == .waiting)) = false then
           instantiate sl (noteQuota sl (d.modSlice sl (fun x => { x with cfg := cfg, nextCfg := none })))
         else d)) ∧
      ((d.slice sl).nextCfg = none → exec (.configApply sl) s = .next s) ∧
      (AtStep s id .katRun c →
        let want := bits c.prm 4 0
        let pass := want &&& Config.freeNat d.free
        let fail := want - pass
        Gives (.katRun id) s
          (forEach (c.units.filter (fun (h : UnitHold) => bit fail (uclassNo h.cls)))
            (fun (h : UnitHold) d => raiseFault (unitSource h.cls + h.unit) 0 0 none d)
            (okOuts [(0, leBytes 1 pass ++ leBytes 1 fail ++ zeros 2
              ++ leBytes 4 (if d.linen.policy.isSome then d.linen.hookFaults else 0))] id
              (setCmd { c with units := c.units.filter (fun (h : UnitHold) => !bit fail (uclassNo h.cls)) }
                { d with free := d.free + 1 }))))
  )

/-! Spilling, device time, the action table, the Zenari Ring. -/

/-- Spilling and its configuration. First: The rows of spilled work, and SPILL_CONFIG at its execution step. Then: SPILL_CONFIG at its execution step. -/
def Obligations.SpillingAndItsSettings : Prop :=
  (
    ∀ (s : State) (port : Fin 2) (h : FlitHdr) (id : Nat) (c : Cmd),
      let d := s.dev
      let e := Heard d port h
      (Gives .creditAdvertSend s
        (if d.alive = true ∧ d.link.started = true ∧ d.bound = true ∧ d.board.advertAt + 1000 ≤ d.clk then
           sendBoth false (fun p => .creditFlit p (ownAdvert d).free (ownAdvert d).shareIn (ownAdvert d).members)
             { d with board := { d.board with advertAt := d.clk } }
         else d)) ∧
      (∀ free share mem, Arrives d port h 6 → Gives (.creditAdvertFlit port h free share mem) s
        { e with board := { e.board with
            adverts := tset e.board.adverts port { free := free, shareIn := share, members := mem } } }) ∧
      (findCmd d id = some c → mayStart d = false ∨ spillable s.mem d port c = false →
        exec (.spillWaitExpiry id port) s = .next s) ∧
      (findCmd d id = some c → mayStart d = true → spillable s.mem d port c = true →
        (c.draws ≠ 0 ∨ drawsFor c.op (partsOf d c) = false) →
        let q := chargeCmd c (partsOf d c) d
        let b := (stopGather id q.2).board
        let f := setCmd { q.1 with stage := .spilled } (stopGather id q.2)
        Gives (.spillWaitExpiry id port) s (sendOn port false (.spillReqFlit port (spillReqOf s.mem d c))
          { f with board := { b with
              spillOut := b.spillOut ++ [⟨id, port, q.2.clk + 10000000 + serviceTime q.2 q.1⟩] } })) ∧
      (∀ r, Arrives d port h 4 → opOfCode r.opcode = none →
        Gives (.spillRequest port h r) s (sendOn port false (.spillRespFlit port r.id .unrun) e)) ∧
      (∀ r o, Arrives d port h 4 → opOfCode r.opcode = some o → r.handles = [] → ∀ f, f = foreignCmd e port h.src r o [] →
        Gives (.spillRequest port h r) s
          { e with nextId := e.nextId + 1, cmds := e.cmds ++ [{ f with classes := classesOf e f }] }) ∧
      (Arrives d port h 5 → findCmd e id = some c → c.stage = .spilled →
        e.board.spillOut.any (fun o => o.cmd == id && o.port == port.val) = true →
        Gives (.spillResponse port h id .unrun) s (runLocally id e) ∧
        ∀ code st outs res, statusOf code = some st → outs = [] → Gives (.spillResponse port h id (.ran code outs res)) s
          (setCmd { c with
              stage := .results, ranAway := true, outcome := some { status := st, outs := [], result := fit 8 res } }
            { e with board := { e.board with spillOut := e.board.spillOut.filter (fun o => o.cmd != id) } })) ∧
      Gives (.spillTimeout id) s
        (if d.alive = true ∧ d.board.spillOut.any (fun o => o.cmd == id && decide (o.until_ ≤ d.clk)) = true then
           raisePf0 452 (runLocally id d) else d)
  ) ∧ (
    ∀ (s : State) (id : Nat) (c : Cmd), AtStep s id .spillConfig c →
      let d := s.dev
      let b := input s c 0
      (allZero (seg b 12 4) = false → Ends (.spillConfig id) s id .packetMalformed) ∧
      (allZero (seg b 12 4) = true → d.bound = false → Ends (.spillConfig id) s id .ringNotBound) ∧
      (allZero (seg b 12 4) = true → d.bound = true →
        let out := field b 0 1
        let share (k : Nat) : Nat := field b (2 + 2 * k) 2
        let mask := b2n (decide (31 < out)) + 2 * b2n (field b 1 1 == 0)
          + ((List.range 5).map (fun k => if 1023 < share k then 2 ^ (k + 2) else 0)).sum
        let taken := (List.range 5).map (fun k => min 1023 (share k))
        Gives (.spillConfig id) s
          (outcomeIs { status := clampStatus mask, result := [], outs := [(1, leBytes 4 mask ++ zeros 4
              ++ leBytes 1 (out % 32) ++ leBytes 1 (max 1 (field b 1 1)) ++ taken.flatMap (leBytes 2) ++ zeros 4)] } id
            { d with board := { d.board with
              outClasses := BitVec.ofNat 8 (out % 32), wait := max 1 (field b 1 1), shareIn := taken } }))
  )

/-- The rows of device time in a bound, powered, started device. -/
def Obligations.DeviceTime : Prop :=
  ∀ (s : State) (err : Int) (port : Fin 2) (h : FlitHdr) (tick since : Nat),
    s.dev.powered = true → s.dev.link.started = true → s.dev.bound = true →
    let d := s.dev
    let b := d.board
    Gives .tsyncDrive s
      (let t := d.devTime / 1000000 * 1000000
       if b.lock = .master ∧ b.sentEdge < t then
         emit (.tsyncEdge t) { d with board := { b with sentEdge := t, silentFrom := d.clk } } else d) ∧
    Gives .timeMsgSend s
      (let t := d.devTime / 250000 * 250000
       if b.lock = .master ∧ b.sentEdge ≠ 0 ∧ b.sentMsg < t then
         sendBoth false (fun p => .timeFlit p b.sentEdge) { d with board := { b with sentMsg := t } } else d) ∧
    (b.lock = .follower → Gives (.tsyncEdge err) s
      (let e := { d with board := { b with silentFrom := d.clk, lost := 0, lostAt := none, error := err, slew := err } }
       if 160 < err ∨ err < -160 then unlock e else e)) ∧
    (b.lock = .unlocked → Gives (.tsyncEdge err) s
      { d with board := { b with silentFrom := d.clk, lost := 0, lostAt := none } }) ∧
    (b.lock = .master → exec (.tsyncEdge err) s = .next s) ∧
    (b.lock = .follower → b.followed = true → b.silentFrom + 1000000 * (b.lost + 1) ≤ d.clk → b.lost < 2 →
      Gives .tsyncEdgeMissing s { d with board := { b with lost := b.lost + 1 } }) ∧
    (b.lock = .follower → b.followed = true → b.silentFrom + 1000000 * (b.lost + 1) ≤ d.clk → b.lost = 2 →
      Gives .tsyncEdgeMissing s (unlock { d with board := { b with lost := 3, lostAt := some d.clk } })) ∧
    (Arrives d port h 1 → b.lock = .unlocked → Gives (.timeFlit port h tick since) s
      (lockTime .follower h.src (tick + b.delay.toNat / 8 + since) (Heard d port h))) ∧
    (Arrives d port h 1 → b.lock = .master → Gives (.timeFlit port h tick since) s (Heard d port h)) ∧
    Gives .masterStartupSilence s
      (if b.lock = .unlocked ∧ b.followed = false ∧ d.pos = d.firstMaster ∧ b.silentFrom + 3000000 ≤ d.clk then
         lockTime .master d.pos d.devTime d else d) ∧
    (∀ t, b.lostAt = some t → Gives .masterTakeover s
      (if b.lock = .unlocked ∧ t + 1000000 * d.pos ≤ d.clk then lockTime .master d.pos d.devTime d else d)) ∧
    (b.lostAt = none → exec .masterTakeover s = .next s)

/-- The commands of the action table at their execution step, and SCHED_ACTION_FIRE. -/
def Obligations.ActionTable : Prop :=
  ∀ (s : State) (id : Nat) (c : Cmd) (i : Nat) (idx : Fin 256),
    let d := s.dev
    let b := input s c 0
    let a := d.action (field b 0 1)
    (AtStep s id .timeRead c → Yields (.timeRead id) s id
      [(0, leBytes 8 d.devTime ++ leBytes 4 (timeStatus d) ++ zeros 4)] d) ∧
    (AtStep s id .schedAdd c → field b 3 1 = 0 → allZero (seg b 24 8) = true → actionBad d c b = true →
      Ends (.schedAdd id) s id .fieldRejected) ∧
    (AtStep s id .schedAdd c → field b 3 1 = 0 → allZero (seg b 24 8) = true → actionBad d c b = false →
      field b 0 1 ≠ 2 → field b 1 1 = 0 → actionSlot d = some i →
      (d.board.actions.filter (fun e => e.2.live && decide (e.1 < 224))).length < 224 → c.slice = 0 →
      Gives (.schedAdd id) s
        (let e := placeAction i (actionOf b (input s c 1) (c.pkt.keys.getD 0 0) c.slice none) d
         outcomeIs { status := .ok, outs := [], result := addResult i e.board.serial none } id e)) ∧
    (AtStep s id .schedCancel c → field b 4 4 = 0 → 224 ≤ field b 0 1 → Ends (.schedCancel id) s id .fieldRejected) ∧
    (AtStep s id .schedCancel c → field b 4 4 = 0 → field b 0 1 < 224 → a.live = true → a.serial = field b 1 3 →
      a.serial ≠ 0 → c.slice = 0 ∨ a.adder = c.slice → actionDue d a = false → a.boardNo = none →
      Gives (.schedCancel id) s (outcomeIs { status := .ok, outs := [], result := leBytes 1 (b2n (a.firings != 0)) } id
        (modAction (field b 0 1) (fun _ => actionFree) d))) ∧
    (AtStep s id .schedList c → Yields (.schedList id) s id [(0, (List.range 256).flatMap (fun k =>
      if c.slice = 0 ∨ (d.action k).slice = c.slice then actionRecord d k else zeros 32))] d) ∧
    (actionDue d (d.action idx) = false → exec (.schedActionFire idx) s = .next s) ∧
    (d.alive = true → actionDue d (d.action idx) = true →
      d.board.actions.any (fun e => actionDue d e.2 && keyLt (fireKey e.1 e.2) (fireKey idx (d.action idx))) = false →
      Gives (.schedActionFire idx) s (fireAction idx d))

/-- Board binding and the ports. First: BOARD_BIND and RING_STATUS at their execution step; BIND_FLIT and BIND_TIMEOUT. Then: PORT_TRAINED, PORT_DOWN and LINK_CONTROL_FLIT. -/
def Obligations.BindingAndPorts : Prop :=
  (
    ∀ (s : State) (id : Nat) (c : Cmd) (port : Fin 2) (h : FlitHdr) (kcv : Bytes),
      let d := s.dev
      let man := input s c 0
      let n := field man 8 1
      let bad := n < 2 ∨ 8 < n ∨ n ≤ field man 9 1 ∨
        (List.range 8).any (fun p => decide (n ≤ p) && !allZero (manifestDig man p)) = true ∨ n ≤ d.pos
      (AtStep s id .boardBind c → d.board.bind = none → allZero (seg man 10 6) = false →
        Ends (.boardBind id) s id .packetMalformed) ∧
      (AtStep s id .boardBind c → d.board.bind = none → allZero (seg man 10 6) = true → bad →
        Ends (.boardBind id) s id .fieldRejected) ∧
      (AtStep s id .boardBind c → d.board.bind = none → allZero (seg man 10 6) = true → ¬bad →
        manifestDig man d.pos ≠ idDigest d → Ends (.boardBind id) s id .fieldRejected) ∧
      (AtStep s id .boardBind c → d.board.bind = none → allZero (seg man 10 6) = true → ¬bad →
        manifestDig man d.pos = idDigest d → d.bound = true → c.prm = 0 → Ends (.boardBind id) s id .policyRefused) ∧
      (AtStep s id .boardBind c → d.board.bind = none → allZero (seg man 10 6) = true → ¬bad →
        manifestDig man d.pos = idDigest d → d.bound = false →
        let eph := freeBytes d.free 120
        let b : Bind := { cmd := id, manifest := man, startAt := d.clk, eph := eph, key := none, confirms := [] }
        let e := setCmd { c with stage := .waiting } { d with free := d.free + 120, board := { d.board with bind := some b } }
        let kp := pubOfMat 0x12 0 (ephKem eph)
        let xp := std .pubOf 56 [0x5B, 0] [ephX eph]
        let sg := bindSign (bindBody (.publicKeys kp xp [] [])) e
        (d.pos ≠ 0 → Gives (.boardBind id) s
          (sendBoth true (fun p => .bindFlit p (.publicKeys kp xp (idPub sg.2) sg.1)) sg.2)) ∧
        (d.pos = 0 → Gives (.boardBind id) s
          (bindConfirm { e with free := e.free + 32, board := { e.board with
            bind := some { b with key := some (freeBytes e.free 32) } } }))) ∧
      (∀ b, Arrives d port h 8 → d.board.bind = some b → Gives (.bindFlit port h (.confirm kcv)) s
        (let e := HeardCustody d port h
         bindDone { e with board := { e.board with bind := some { b with confirms := b.confirms ++ [(h.src, kcv)] } } })) ∧
      (Arrives d port h 8 → d.board.bind = none →
        Gives (.bindFlit port h (.confirm kcv)) s (HeardCustody d port h)) ∧
      (∀ b, d.board.bind = some b → Gives .bindTimeout s
        (if b.startAt + 10000000000 ≤ d.clk then
           conclude b.cmd (bare .ringNotBound) { d with board := { d.board with bind := none } } else d)) ∧
      (d.board.bind = none → exec .bindTimeout s = .next s) ∧
      (AtStep s id .ringStatus c →
        let bytes (x : RingReport) : Bytes := leBytes 1 x.member ++ leBytes 1 x.link0 ++ leBytes 1 x.link1
          ++ leBytes 1 x.lock ++ zeros 4 ++ leBytes 8 x.msn
        Yields (.ringStatus id) s id [(0, (List.range 8).flatMap (fun p =>
          if p = d.pos then bytes (ownReport d)
          else if d.bound && decide (p < d.count) then ((tfind d.board.heard p).map bytes).getD (zeros 16)
          else zeros 16))] d)
  ) ∧ (
    ∀ (s : State) (port : Fin 2) (h : FlitHdr) (lanes4 : Bool) (nonces : Bytes) (r : RingReport),
      let d := s.dev
      (d.powered = true → d.link.started = true → d.link.domainsOff.contains (27 + port.val) = false →
        Gives (.portTrained port lanes4 nonces) s
          (let q := neighbour d port
           let e := setLink port (if d.bound then .up else .upUnbound) (if lanes4 then 4 else 2)
             (modPort port (fun x => { x with
               rxSeq := 0, txSeq := 0, nonces := fit 32 nonces
               txKey := if d.bound then linkKey d d.pos port q (fit 32 nonces) else []
               rxKey := if d.bound then linkKey d q (1 - port.val) d.pos (fit 32 nonces) else [] }) d)
           sendOn port true (.linkFlit port (ownReport e)) e)) ∧
      (d.powered = true → Gives (.portDown port) s (setLink port .down 0 d)) ∧
      (Arrives d port h 10 → Gives (.linkControlFlit port h []) s (updateMember (Heard d port h))) ∧
      (Arrives d port h 10 → r.pos ≠ d.pos → r.pos < 8 →
        let e := Heard d port h
        let serving := if r.member = 4 then e.board.serving ||| (1#8 <<< r.pos) else e.board.serving &&& ~~~(1#8 <<< r.pos)
        let f := if serving != e.board.serving then raisePf0 448 e else e
        Gives (.linkControlFlit port h [r]) s
          (updateMember { f with board := { e.board with heard := tset e.board.heard r.pos r, serving := serving } }))
  )

/-- Mirroring, resynchronisation and board entries. First: The mirror commands at their execution step, and the rows of the mirror protocol. Then: RESYNC_REQUEST, RESYNC_REPLAY and BOARD_ENTRY_FLIT. -/
def Obligations.MirroringAndResync : Prop :=
  (
    ∀ (s : State) (id mid msn tick : Nat) (c : Cmd) (port : Fin 2) (h : FlitHdr) (r : MirrorRec) (ack : Bool),
      let d := s.dev
      let e := HeardCustody d port h
      (AtStep s id .mirrorPut c → d.bound = false → Ends (.mirrorPut id) s id .ringNotBound) ∧
      (∀ k, AtStep s id .mirrorPut c → d.bound = true → c.keys.head? = some k → freeMid d = some mid →
        let en := keyNow d k
        (en.has fMirrored || decide (en.parent ≠ 0) || isMce en.typ || decide (16384 < en.matLen)) = false →
        Gives (.mirrorPut id) s (if d.board.member = .inSync then
            mirrorBegin c { remove := false, keepLocal := false, slice := c.slice, mkId := d.mkId c.slice, mid := mid,
                            sealedRec := sealMirror d mid k.idx en } k.idx
              { d with board := { d.board with nextMid := (mid + 1) % 512 } }
          else failWith .mirrorDiverged id d)) ∧
      (∀ k, AtStep s id .mirrorPut c → d.bound = true → c.keys.head? = some k → freeMid d = some mid →
        let en := keyNow d k
        (en.has fMirrored || decide (en.parent ≠ 0) || isMce en.typ || decide (16384 < en.matLen)) = true →
        Ends (.mirrorPut id) s id .policyRefused) ∧
      (AtStep s id .mirrorRemove c → d.bound = false → Ends (.mirrorRemove id) s id .ringNotBound) ∧
      (∀ k i, AtStep s id .mirrorRemove c → d.bound = true → c.keys.head? = some k →
        d.board.midTable.find? (fun x => x.2 == k.idx) = some (i, k.idx) → d.prepare i = none → d.board.member = .inSync →
        Gives (.mirrorRemove id) s (mirrorBegin c
          { remove := true, keepLocal := bit c.prm 0, slice := c.slice, mkId := d.mkId c.slice, mid := i, sealedRec := [] }
          k.idx d)) ∧
      (Arrives d port h 3 → e.prepare r.mid = none → e.board.member = .inSync → r.remove = true →
        Gives (.mirrorPrepare port h r) s (mirrorAnswer r true { e with board := { e.board with
          prepares := e.board.prepares ++ [⟨r, none, 0, none, [h.src], false, e.clk, false⟩] } })) ∧
      (Arrives d port h 3 → e.prepare r.mid ≠ none → Gives (.mirrorPrepare port h r) s e) ∧
      (Arrives d port h 3 → e.board.lock = .master → Gives (.mirrorReply port h mid ack) s
        (modPrepare mid (fun p => { p with acks := p.acks ++ [h.src], nak := p.nak || !ack }) e)) ∧
      (d.prepare mid = none → exec (.mirrorSeqWaitEnd mid) s = .next s) ∧
      (∀ p, d.prepare mid = some p → d.alive = true → d.board.lock = .master → p.committed = false → p.nak = true →
        Gives (.mirrorSeqWaitEnd mid) s (lapse .resourceQuota mid (mirrorSend 4 p.recd 0 0 d))) ∧
      (∀ p f, d.prepare mid = some p → d.alive = true → d.board.lock = .master → p.committed = false → p.nak = false →
        (List.range 8).all (fun q => !d.board.serving.getLsbD q || p.acks.contains q) = true →
        let no := max d.board.seqMsn (topMsn d) + 1
        let due := max (d.devTime + d.board.commitLead * 1000) (d.board.seqTick + 1)
        placeCommit mid no due d = some f →
        Gives (.mirrorSeqWaitEnd mid) s (mirrorSend 3 p.recd no due
          { f with board := { f.board with seqMsn := no, seqTick := due } })) ∧
      (∀ q, e.board.actions.any (fun x => x.2.live && x.2.action == 7 && x.2.msn == msn && x.2.mid == mid) = q →
        Arrives d port h 3 → e.board.member = .inSync →
        (q = true → Gives (.mirrorCommit port h mid msn tick) s e) ∧
        (q = false → msn ≠ topMsn e + 1 → Gives (.mirrorCommit port h mid msn tick) s (gap e)) ∧
        ∀ f, q = false → msn = topMsn e + 1 → placeCommit mid msn tick e = some f →
          Gives (.mirrorCommit port h mid msn tick) s f) ∧
      (Arrives d port h 3 → e.board.member = .resync → Gives (.mirrorCommit port h mid msn tick) s
        { e with board := { e.board with queued := e.board.queued ++ [(mid, msn, tick)] } }) ∧
      (Arrives d port h 3 → Gives (.mirrorAbort port h mid) s (lapse .resourceQuota mid e)) ∧
      (∀ p, d.prepare mid = some p → Gives (.mirrorOriginTimeout mid) s
        (if p.cmd.isSome = true ∧ p.committed = false ∧ p.startAt + 2000000 ≤ d.clk then
           lapse .mirrorDiverged mid d else d))
  ) ∧ (
    ∀ (s : State) (port : Fin 2) (h : FlitHdr) (n msn no adder : Nat) (r : MirrorRec) (blk cfg : Bytes) (msg : ReplayMsg),
      let d := s.dev
      let e := HeardCustody d port h
      let e9 := Heard d port h
      (Arrives d port h 7 → d.board.member ≠ .inSync → Gives (.resyncRequest port h n) s e) ∧
      (Arrives d port h 7 → d.board.member = .inSync → d.board.log = [] → d.board.actions = [] → n = d.board.lastMsn →
        n ≠ 0 → Gives (.resyncRequest port h n) s (sendOn port false (.replayFlit port .done) e)) ∧
      (Arrives d port h 7 → d.board.member ≠ .resync → Gives (.resyncReplay port h msg) s e) ∧
      (Arrives d port h 7 → d.board.member = .resync →
        Gives (.resyncReplay port h (.record msn r)) s
          (if msn = d.board.lastMsn + 1 then applyRecord r msn e else e) ∧
        Gives (.resyncReplay port h (.entry no blk cfg adder)) s (placeBoard no blk cfg adder e).2 ∧
        Gives (.resyncReplay port h .done) s (endReplay e)) ∧
      (Arrives d port h 9 → d.board.member = .inSync → Gives (.boardEntryFlit port h (.place no blk cfg adder)) s
        (sendBoth false (fun p => .boardEntryFlit p (.placed no (placeBoard no blk cfg adder e9).1))
          (placeBoard no blk cfg adder e9).2)) ∧
      (Arrives d port h 9 → Gives (.boardEntryFlit port h (.cancel no)) s
        { e9 with board := { e9.board with actions := e9.board.actions.map (fun x =>
            if x.2.boardNo = some no then (x.1, actionFree) else x) } })
  )

/-- Flits received; tamper of the board. First: Reception of a flit on a port that is UP, whatever row carries it (shown on CREDIT_ADVERT_FLIT). Then: TAMPER_FLIT. -/
def Obligations.FlitsAndBoardTamper : Prop :=
  (
    ∀ (s : State) (port : Fin 2) (h : FlitHdr) (free share : List Nat) (mem : List (Nat × Bytes)),
      s.dev.powered = true → s.dev.link.started = true → (s.dev.port port).link = .up →
      let d := s.dev
      let drop (e : Dev) : Dev := modPort port (fun x => { x with flitErr := min 65535 (x.flitErr + 1) }) e
      (h.tagOk = false ∨ h.linkSeq ≠ (d.port port).rxSeq + 1 →
        Gives (.creditAdvertFlit port h free share mem) s (setLink port .training 0 (drop d))) ∧
      (h.tagOk = true → h.linkSeq = (d.port port).rxSeq + 1 → h.typ < 1 ∨ 10 < h.typ →
        Gives (.creditAdvertFlit port h free share mem) s (drop (Heard d port h))) ∧
      (h.tagOk = true → h.linkSeq = (d.port port).rxSeq + 1 → 1 ≤ h.typ → h.typ ≤ 10 → h.dst ≠ d.pos → h.dst ≠ 0xFF →
        h.src ≠ d.pos → h.hops ≠ 0 → Gives (.creditAdvertFlit port h free share mem) s
          (sendOn (1 - port.val) (h.typ == 8 || h.typ == 10) (.forwardFlit (1 - port.val) { h with hops := h.hops - 1 })
            (Heard d port h)))
  ) ∧ (
    ∀ (s : State) (port : Fin 2) (h : FlitHdr) (pos : Fin 8) (level : Nat), Arrives s.dev port h 2 →
      let e := Heard s.dev port h
      (pos.val = s.dev.pos ∨ level = 0 → GivesBoth (.tamperFlit port h pos level) s (e, s.mem)) ∧
      (pos.val ≠ s.dev.pos → level ≠ 0 → s.dev.board.incident = true →
        GivesBoth (.tamperFlit port h pos level) s (sameIncident e, s.mem)) ∧
      (pos.val ≠ s.dev.pos → level ≠ 0 → s.dev.board.incident = false →
        let f := alarm 31 (raisePf0 451 { e with board := { e.board with incident := true } })
        GivesBoth (.tamperFlit port h pos level) s
          (f, if f.board.incident then alarmMem (levelOf s.dev 31) s.mem else s.mem))
  )

/-! Custody: life cycle, debug, custodians, master keys, audit. -/

/-- LC_TRANSITION and the OTP writes that end it one by one, its lock-out, DEBUG_CHALLENGE, its nonce's expiry,
IDENTITY_ATTEST. That each write ends by a row OTP_WRITE_COMPLETE is the model's choice (log 64). -/
def Obligations.LifeCycleAndDebug : Prop :=
  ∀ (s : State) (id : Nat) (c : Cmd),
    let d := s.dev
    let b := input s c 0
    let dest := field b 0 1
    let prov := input s c 1
    let hex := Gives (.lcTransition id) s
    (AtStep s id .lcTransition c →
      (d.clk < d.link.tokenUntil → Ends (.lcTransition id) s id .tokenInvalid) ∧
      (d.link.tokenUntil ≤ d.clk → lcAllowed d d.lc dest = false → Ends (.lcTransition id) s id .fieldRejected) ∧
      (d.link.tokenUntil ≤ d.clk → lcAllowed d d.lc dest = true → allZero (seg b 1 7) = true →
        tokenOk d d.lc dest (seg b 8 32) = false →
        hex (failWith .tokenInvalid id { d with link := { d.link with tokenUntil := d.clk + 1000000000 } })) ∧
      (d.link.tokenUntil ≤ d.clk → lcAllowed d d.lc dest = true → allZero (seg b 1 7) = true →
        tokenOk d d.lc dest (seg b 8 32) = true → allZero (seg b 0x28 8) = true →
        (dest = 18 ↔ c.pkt.ndesc = 2) → (dest = 18 → provBad d prov = none) →
        d.otp.slots.length < 31 ∨ (dest = 21 ∧ d.otp.slots.length < 32) → hex (lcMove id dest prov d))) ∧
    (∀ k p, k < 22 →
      let e := lcMove id k p d
      e.otp = d.otp ∧ e.micro.jobs = [] ∧ e.micro.ctxs = [] ∧ e.led.keyHeld = false ∧ e.led.matrix = [] ∧
      e.dma.slotKeys = [] ∧ (∀ x ∈ e.cmds, x.id ≠ id → x.slice = 0) ∧
      ∃ w, e.link.lcRun = some w ∧ w.cmd = id ∧ w.src = d.lc ∧ w.dest = k ∧ w.prov = p ∧
        w.step = if k = 17 ∨ k = 18 then 4 else 5) ∧
    (∀ w, d.alive = true → d.link.lcRun = some w →
      let go (e : Dev) : Dev := { e with link := { e.link with lcRun := some { w with step := w.step + 1 } } }
      (w.step = 4 → w.dest = 17 → Gives .otpWriteComplete s (linenPend 19 (go (writeSeeds d)))) ∧
      (w.step = 4 → w.dest = 18 → Gives .otpWriteComplete s
        (linenPend 19 (go { d with otp := { d.otp with prov := w.prov, mode := field w.prov 0 1 } }))) ∧
      (w.step = 5 → Gives .otpWriteComplete s (linenPend 19 (go { d with otp := { d.otp with
        slots := d.otp.slots ++ [(⟨0, 0, 0⟩ : Cells 32).write (intentWord w.src w.dest)] } }))) ∧
      (w.step = 6 → Gives .otpWriteComplete s (linenPend 19 (conclude w.cmd (bare .ok)
        { d with otp := enterState w.dest d.otp, link := { d.link with lcRun := none, lcClosed := true } })))) ∧
    (d.otp.seeds.getD 0 .bad = .empty → ∀ g, g = draw 64 d →
      writeSeeds d = { g.2 with otp := { g.2.otp with seeds := g.2.otp.seeds.set 0 (.held g.1) } }) ∧
    Gives .tokenLockoutEnd s
      (if d.link.tokenUntil ≤ d.clk then { d with link := { d.link with tokenUntil := 0 } } else d) ∧
    (AtStep s id .debugChallenge c → c.prm = 0 → d.link.tokenUntil ≤ d.clk →
      Yields (.debugChallengeNonce id) s id [(0, (draw 32 d).1)]
        { (draw 32 d).2 with link := { d.link with debugNonce := some ((draw 32 d).1, d.clk + 60000000000) } }) ∧
    (AtStep s id .debugChallenge c → c.prm = 1 → d.link.tokenUntil ≤ d.clk → isTest d.lc = false →
      let e : Dev := { d with link := { d.link with debugNonce := none } }
      (d.link.debugNonce = none → Gives (.debugChallengeResponse id) s (badToken id e)) ∧
      ∀ n t, d.link.debugNonce = some (n, t) →
        (t ≤ d.clk ∨ debugOk d n b = false → Gives (.debugChallengeResponse id) s (badToken id e)) ∧
        (d.clk < t → debugOk d n b = true →
          let a := eraseAll (abortWhere (fun x => x.id != id) .aborted e)
          Gives (.debugChallengeResponse id) s (failWith .ok id { a with link := { a.link with debugOpen := true } }))) ∧
    (∀ n t, d.link.debugNonce = some (n, t) → Gives .debugNonceExpiry s
      (if t ≤ d.clk then { d with link := { d.link with debugNonce := none } } else d)) ∧
    (AtStep s id .identityAttest c →
      let body := attestBody d c.slice c.prm b
      let g := idSign (ascii "ORNATH-ATTEST-1" ++ body) d
      Gives (.identityAttest id) s (custodyOk id c.slice 0 [(1, body ++ g.1 ++ zeros 5 ++ g.2.1)] g.2.2))

/-- Nonces, custodians and the policy of a slice, at the execution step. -/
def Obligations.ApprovalsAndCustodians : Prop :=
  ∀ (s : State) (id : Nat) (c : Cmd) (sl : Fin 256),
    let d := s.dev
    let b := input s c 0
    let live (e : Nonce) : Bool := decide (d.devTime < e.expiry)
    let x : Custodian := { cid := field b 0 1, kind := field b 1 1, digest := seg b 8 32 }
    let q := ownQuorum s.mem d c 3 none
    let qa := ownQuorum s.mem d c 3 (some x)
    (AtStep s id .approvalNonce c → ∀ (g : Bytes × Dev) (n : Nonce), g = draw 32 d →
      n = { cls := c.prm, digest := b, nonce := g.1, expiry := d.devTime + 600000000000 } →
      ∀ keep : List Nonce → List Nonce, keep = (fun l => l.drop (l.length - 3)) →
      Gives (.approvalNonce id) s (custodyOk id c.slice 0 [(1, g.1 ++ leBytes 8 n.expiry)]
        (g.2.modCust c.slice (fun k => { k with nonces := keep (k.nonces.filter live) ++ [n] })))) ∧
    Gives (.approvalNonceExpiry sl) s (d.modCust sl (fun k => { k with nonces := k.nonces.filter live })) ∧
    (AtStep s id .custodianAdd c → ∀ st, qa.bad = some st → Gives (.custodianAdd id) s (failWith st id qa.dev)) ∧
    (AtStep s id .custodianAdd c → qa.bad = none → allZero (seg b 2 6) = true → x.cid ≤ 15 → 1 ≤ x.kind → x.kind ≤ 2 →
      (d.custody c.slice).custodians.any (·.cid == x.cid) = false → Gives (.custodianAdd id) s
        (custodyOk id c.slice qa.cids [] (killNonces c.slice (qa.dev.modCust c.slice (fun k => { k with
          custodians := k.custodians ++ [x]
          policy := if (d.custody c.slice).custodians.isEmpty then List.replicate 6 1 else k.policy }))))) ∧
    (AtStep s id .custodianRemove c → q.bad = none → allZero (seg b 1 7) = true →
      let k := q.dev.custody c.slice
      let left := k.custodians.filter (fun y => y.cid != field b 0 1)
      (left.length = k.custodians.length → Gives (.custodianRemove id) s (failWith .fieldRejected id q.dev)) ∧
      (left.length ≠ k.custodians.length → k.policy.any (fun n => decide (left.length < n)) = true →
        Gives (.custodianRemove id) s (failWith .policyRefused id q.dev)) ∧
      (left.length ≠ k.custodians.length → k.policy.any (fun n => decide (left.length < n)) = false →
        Gives (.custodianRemove id) s (custodyOk id c.slice q.cids []
          (killNonces c.slice (q.dev.modCust c.slice (fun y => { y with custodians := left })))))) ∧
    (AtStep s id .quorumPolicySet c → q.bad = none → allZero (seg b 6 10) = true →
      let ms := (List.range 6).map (fun i => field b i 1)
      let n := (q.dev.custody c.slice).custodians.length
      (ms.any (fun y => decide (y < 1 ∨ n < y)) = true → Gives (.quorumPolicySet id) s (failWith .fieldRejected id q.dev)) ∧
      (ms.any (fun y => decide (y < 1 ∨ n < y)) = false → Gives (.quorumPolicySet id) s
        (custodyOk id c.slice q.cids [] (killNonces c.slice (q.dev.modCust c.slice (fun k => { k with policy := ms })))))) ∧
    (∀ k : Nat, ((killNonces k d).custody k).nonces = [])

/-- COMPONENT_IMPORT, MASTER_KEY_CHANGE, MASTER_KEY_EXPORT and MASTER_KEY_IMPORT at their execution steps. -/
def Obligations.ComponentsAndMasterKeys : Prop :=
  ∀ (s : State) (id : Nat) (c : Cmd) (sl : Fin 256),
    let d := s.dev
    let k := d.custody c.slice
    let b := input s c 0
    (AtStep s id .componentImport c → c.prm = 0 → ∀ x : Bytes, x = input s c 1 → allZero (seg x 1 4) = true →
      karCheck d b false = none → compType (reqOf b).typ = true → 2 ≤ field x 0 1 → field x 0 1 ≤ 8 →
      (k.comp.isSome = true → Ends (.componentOpen id) s id .policyRefused) ∧
      (k.comp = none → Gives (.componentOpen id) s (custodyOk id c.slice 0 [] (setComp c.slice
        (some { kar := b, count := field x 0 1, kcv := seg x 5 3, parts := [], lastAt := d.clk }) d)))) ∧
    (AtStep s id .componentImport c → c.prm = 1 → ∀ q, q = quorum s.mem d c 0
      (k.custodians.filter (·.cid == field b 0 1)) 1 none →
      (∀ st, q.bad = some st → Gives (.componentAdd id) s (failWith st id q.dev)) ∧
      ∀ x r n ss comp, q.bad = none → k.comp = some x → ((approvalsOf (input s c 1)).map List.length) = some 1 →
        r = reqOf x.kar → n = ((typeLens r.typ r.sub).getD (0, 0)).1 → 1 ≤ field b 1 1 → field b 1 1 ≤ x.count →
        field b 2 1 = n → field b 3 1 = 0 → field b 7 1 = 0 →
        (let mk := masterOf (setComp c.slice (some { x with lastAt := d.clk }) q.dev) c.slice
         hybOpen 1 (tkMat mk) (tkX mk) (seg b 8 1600) = some ss ∧ kwOpen ss (seg b 0x648 40) n = some comp) →
        q.dev.clk = d.clk → kcvOf r.typ r.sub comp [] = seg b 4 3 →
        (∀ p ∈ x.parts, p.1 ≠ field b 1 1 ∧ p.2.1 ≠ field b 0 1) →
        Gives (.componentAdd id) s (custodyOk id c.slice q.cids [] (setComp c.slice
          (some { x with parts := x.parts ++ [(field b 1 1, field b 0 1, comp)], lastAt := d.clk })
          (setComp c.slice (some { x with lastAt := d.clk }) q.dev)))) ∧
    (AtStep s id .componentImport c → c.prm = 2 → ∀ q, q = ownQuorum s.mem d c 0 none → q.bad = none →
      ((q.dev.custody c.slice).comp = none → Gives (.componentFinish id) s (failWith .policyRefused id q.dev)) ∧
      ∀ x r e, (q.dev.custody c.slice).comp = some x → x.count ≤ x.parts.length → r = reqOf x.kar →
        e = setComp c.slice none (setComp c.slice (some { x with lastAt := q.dev.clk }) q.dev) →
        karCheck e x.kar false = none → ∀ mat, mat = (x.parts.map (·.2.2)).foldl xorB
          (zeros ((typeLens r.typ r.sub).getD (0, 0)).1) →
        Gives (.componentFinish id) s (makeKey id (entryOf r mat [] false) (kcvOf r.typ r.sub mat [] == x.kcv) 0 [] e)) ∧
    (AtStep s id .componentImport c → c.prm = 3 →
      Gives (.componentAbandon id) s (custodyOk id c.slice 0 [] (setComp c.slice none d))) ∧
    (∀ x, (d.custody sl).comp = some x → Gives (.componentSessionTimeout sl) s
      (if x.lastAt + 600000000000 ≤ d.clk then setComp sl none d else d)) ∧
    (AtStep s id .masterKeyChange c → c.prm = 0 → ∀ q, q = ownQuorum s.mem d c 1 none → q.bad = none →
      ((q.dev.custody c.slice).staged.isSome = true → Gives (.masterKeyStage id) s (failWith .policyRefused id q.dev)) ∧
      ((q.dev.custody c.slice).staged = none → 4 ≤ (q.dev.cust.filter (fun e => e.2.staged.isSome)).length →
        Gives (.masterKeyStage id) s (failWith .resourceQuota id q.dev)) ∧
      ((q.dev.custody c.slice).staged = none → (q.dev.cust.filter (fun e => e.2.staged.isSome)).length < 4 →
        ∀ n : MasterKey, n = { gen := nextMasterGen (masterGen (draw 32 q.dev).2 c.slice), key := (draw 32 q.dev).1 } →
        Gives (.masterKeyStage id) s (custodyOk id c.slice q.cids []
          ((draw 32 q.dev).2.modCust c.slice (fun x => { x with staged := some n }))))) ∧
    (AtStep s id .masterKeyChange c → c.prm = 1 → ∀ n j o, k.staged = some n → j < 6 → b.length = blobLen j →
      openBlob d c.slice 1 j (masterOf d c.slice) b = some o →
      ∀ h, h = b.take 6 ++ leBytes 2 n.gen ++ seg b 8 24 →
      Gives (.masterKeyRewrap id) s
        (custodyOk id c.slice 0 [(1, h ++ sivSeal (wrapKey n.key h false) h (fit (classArea j) o.mat))] d)) ∧
    (AtStep s id .masterKeyChange c → c.prm = 2 →
      (k.staged = none → Ends (.masterKeyCommit id) s id .policyRefused) ∧
      ∀ n, k.staged = some n → Gives (.masterKeyCommit id) s
        (custodyOk id c.slice 0 [] (takeMaster c.slice n false (auditSealNow c.slice 0 d).2))) ∧
    (AtStep s id .masterKeyChange c → c.prm = 3 → Gives (.masterKeyAbandon id) s
      (custodyOk id c.slice 0 [] (d.modCust c.slice (fun x => { x with staged := none })))) ∧
    (AtStep s id .masterKeyImport c →
      (ledgerUsed d c.slice ≠ 0 → Ends (.masterKeyImport id) s id .policyRefused) ∧
      (ledgerUsed d c.slice = 0 → openEnvelope d c.slice b = none → Ends (.masterKeyImport id) s id .keyBlobInvalid) ∧
      ∀ x, ledgerUsed d c.slice = 0 → openEnvelope d c.slice b = some x →
        ∀ reg pol q, reg = registryOf (seg x 40 640) → pol = (List.range 6).map (fun i => field x (680 + i) 1) →
        q = quorum s.mem d c 1 reg (pol.getD 1 0) none → q.bad = none →
        Gives (.masterKeyImport id) s (custodyOk id c.slice q.cids []
          ((takeMaster c.slice { gen := field x 32 2, key := x.take 32 } true q.dev).modCust c.slice
            (fun y => { y with custodians := reg, policy := pol })))) ∧
    (AtStep s id .masterKeyExport c → ∀ q, q = ownQuorum s.mem d c 2 none → q.bad = none →
      dsaOk 2 (seg b 0x58 2592) (ascii "ORNATH-ATTEST-1" ++ b.take 0x18C0) (seg b 0x18C0 4627) = true →
      ecOk (seg b 0xA78 97) (ascii "ORNATH-ATTEST-1" ++ b.take 0x18C0) (seg b 0x2AD8 96) = true →
      field b 4 1 = 19 → field b 3 1 = 1 → ∀ z, hybSeal 1 (seg b 0xAE0 1568) (seg b 0x1100 32) q.dev = some z →
      ∀ body, body = z.1 ++ gcmCtr z.2.1 (zeros 12) (fit 32 (masterOf z.2.2 c.slice) ++ leBytes 2 (masterGen z.2.2 c.slice)
        ++ zeros 6 ++ registryBytes (q.dev.custody c.slice).custodians ++ (q.dev.custody c.slice).policy.flatMap (leBytes 1)
        ++ zeros 10) →
      ∀ hdr, hdr = leBytes 2 0xA7C5 ++ leBytes 1 1 ++ leBytes 1 c.slice ++ seg b 6 1 ++ zeros 3 ++ z.2.2.mkId c.slice
        ++ sha3_256 (seg b 0x58 2592) ++ zeros 16 →
      ∀ e, e = hdr ++ body ++ gcmTag z.2.1 (zeros 12) hdr (body.drop z.1.length) 16 ++ idPub z.2.2 ++ idEcPub z.2.2 ++ zeros 7 →
      Gives (.masterKeyExport id) s (custodyOk id c.slice q.cids
        [(2, e ++ (idSign e z.2.2).1 ++ zeros 5 ++ (idSign e z.2.2).2.1)] (idSign e z.2.2).2.2))

/-- AUDIT_CONFIG, AUDIT_SEAL, AUDIT_RESET, the ring's own events, SLICE_DECOMMISSION. -/
def Obligations.AuditRings : Prop :=
  ∀ (s : State) (id : Nat) (c : Cmd) (sl : Fin 256),
    let d := s.dev
    let r := (d.custody c.slice).audit
    let b := input s c 0
    (AtStep s id .auditConfig c → c.prm = 0 → allZero (seg b 13 3) = true → allZero (seg b 0x24 12) = true →
      field b 0 8 % 64 = 0 → 64 ≤ field b 8 4 → field b 8 4 ≤ 16777216 → field b 0x10 8 % 8 = 0 →
      field b 0x18 8 % 64 = 0 → 1 ≤ field b 0x20 4 → field b 0x20 4 ≤ 65536 →
      (c.slice ≠ 0 → field b 12 1 ≤ 3 ∧ (d.pslot c.slice (field b 12 1)).valid = true) →
      (0 < r.inRing → Ends (.auditConfigure id) s id .policyRefused) ∧
      (r.inRing = 0 → Gives (.auditConfigure id) s (custodyOk id c.slice 0 [] (auditFlush c.slice
        (d.modCust c.slice (fun x => { x with audit := { x.audit with
          configured := true, base := field b 0 8, depth := field b 8 4, pasidSlot := field b 12 1,
          headAddr := field b 0x10 8, sealBase := field b 0x18 8, sealSlots := field b 0x20 4 } })))))) ∧
    (AtStep s id .auditConfig c → c.prm = 1 →
      (r.head < field b 0 8 → Ends (.auditAck id) s id .fieldRejected) ∧
      (field b 0 8 ≤ r.head → Gives (.auditAck id) s (custodyOk id c.slice 0 [] (auditFlush c.slice
        (d.modCust c.slice (fun x => { x with audit := { x.audit with acked := max x.audit.acked (field b 0 8) } })))))) ∧
    (AtStep s id .auditSeal c → Gives (.auditSeal id) s
      (outcomeIs (answer .ok [] (leBytes 8 r.sealNo)) id (auditSealNow c.slice 0x0B0D d).2)) ∧
    Gives (.auditAutoSeal sl) s
      (if 4095 ≤ ((d.custody sl).audit).sinceSeal then (auditSealNow sl 0 d).2 else d) ∧
    (((d.custody sl).audit).owed = [] → exec (.auditSealSigned sl) s = .next s) ∧
    (∀ n no rec64 key rest, ((d.custody sl).audit).owed = (n, no, rec64, key) :: rest →
      ((d.custody sl).audit).configured = true → d.dmaHeld = false →
      ∀ a e, a = (d.custody sl).audit → e = (draw 32 d).2 → Gives (.auditSealSigned sl) s
        (auditPublish sl ((hostWrite sl a.pasidSlot (a.sealBase + 3328 * (no % a.sealSlots))
          (fit 3328 (latSignBytes 0x15 false (auditMat key) (pureStr (ascii "ORNATH-SEAL-1" ++ rec64)) (draw 32 d).1)) e).modCust
          sl (fun x => { x with audit := { x.audit with owed := rest } })))) ∧
    (AtStep s id .auditReset c → ∀ q, q = ownQuorum s.mem d c 4 none → q.bad = none → ∀ a, a = (q.dev.custody c.slice).audit →
      Gives (.auditReset id) s (custodyOk id c.slice q.cids [] (auditOwn c.slice
        (auditPlain 7 0x0B0E (leBytes 8 a.inRing))
        (auditFlush c.slice (q.dev.modCust c.slice
          (fun x => { x with audit := { x.audit with acked := a.next - a.heldRecs.length } })))))) ∧
    (∀ (k : Nat) (body : AuditBody), ((auditMake k body d).custody k).audit.next = ((d.custody k).audit).next + 1 ∧
      ((auditMake k body d).custody k).audit.chain =
        chainNext ((d.custody k).audit).chain (auditBytes ((d.custody k).audit).next d.devTime body)) ∧
    (AtStep s id .sliceDecommission c → c.stage ≠ .waiting → ∀ q, q = ownQuorum s.mem d c 5 none → q.bad = none →
      ∀ o : Outcome, o = { status := .ok, outs := [], result := [], detail := some (leBytes 4 q.cids ++
        leBytes 2 (masterGen q.dev c.slice) ++ zeros 2) } →
      Gives (.sliceDecommission id) s (setCmd { c with stage := .waiting, outcome := some o }
        (q.dev.modSlice c.slice (fun x => { x with decom := some (id, false) })))) ∧
    (findCmd d id = some c → c.op = .sliceDecommission → c.stage = .waiting →
      ((∃ e ∈ d.cmds, e.slice = c.slice ∧ e.id < id) → exec (.sliceDecommission id) s = .next s) ∧
      ((∀ e ∈ d.cmds, e.slice = c.slice → id ≤ e.id) → (d.slice c.slice).decom = some (id, false) →
        r.configured = false ∨ r.room ≠ 0 → Gives (.sliceDecommission id) s
          ((auditSealNow c.slice 0 d).2.modSlice c.slice (fun x => { x with decom := some (id, true) }))) ∧
      ((∀ e ∈ d.cmds, e.slice = c.slice → id ≤ e.id) → (d.slice c.slice).decom = some (id, true) →
        r.configured = false ∨ r.owed = [] →
        Gives (.sliceDecommission id) s (conclude id (c.outcome.getD (bare .ok)) d)))

/-! The key ledger. -/

/-- What making a ledger key comes to (R143, R152, R159): RESOURCE_QUOTA where the slice has no room; otherwise a PENDING
entry, new or the one the command has held since its dispatch, and OK with the key's RESULT, or KEY_CHECK_FAIL. -/
def Obligations.KeysAreMade : Prop :=
  ∀ (d : Dev) (id : Nat) (c : Cmd) (r : Req) (mat pub : Bytes) (po ok : Bool) (b7 : Nat) (outs : List (Nat × Bytes)),
    findCmd d id = some c →
    let e := entryOf r mat pub po
    let res (i : Nat) : Outcome :=
      if ok then answer .ok outs (leBytes 4 (handleOf i (d.ent i).gen) ++ fit 3 e.kcv ++ leBytes 1 b7)
      else answer .keyCheckFail [] []
    let holds (i : Nat) (n : Dev) : Prop :=
      (n.ent i).st = .pending ∧ (n.ent i).owner = c.slice ∧ (n.ent i).typ = r.typ ∧ (n.ent i).subtype = r.sub ∧
      (n.ent i).usage = r.usage ∧ (n.ent i).useLimit = r.limit ∧ (n.ent i).activation = r.act ∧
      (n.ent i).expiry = r.exp ∧ (n.ent i).material = (if po then pub else mat) ∧ (n.ent i).gen = (d.ent i).gen ∧
      ∀ k, k ≠ i → n.ent k = d.ent k
    (c.entry = none → roomFor d c.slice e.units = false → makeKey id e ok b7 outs d = failWith .resourceQuota id d) ∧
    (c.entry = none → roomFor d c.slice e.units = true → ∃ i n, nextFree d = some i ∧
      allocEnt c.slice e d = some (i, n) ∧ holds i n ∧
      makeKey id e ok b7 outs d = outcomeIs (res i) id (setCmd { c with entry := some i } n)) ∧
    (∀ i, c.entry = some i →
      (unitsAllowed d c.slice < unitsUsed d c.slice - (d.ent i).units + e.units →
        makeKey id e ok b7 outs d = failWith .resourceQuota id d) ∧
      (unitsUsed d c.slice - (d.ent i).units + e.units ≤ unitsAllowed d c.slice →
        ∀ n, n = setEnt i { e with st := .pending, gen := (d.ent i).gen, owner := c.slice } d → holds i n ∧
        makeKey id e ok b7 outs d = outcomeIs (res i) id (setCmd { c with entry := some i } n)))

/-- Key commands and the management of keys. First: The commands that make, read and wrap keys, at their execution step.
Then: The management commands on the entry of KEY0, at their execution step; on one that has been drained since the handle
was resolved they complete (the model's inference, log 50). -/
def Obligations.KeyCommandsAndManagement : Prop :=
  (
    ∀ (s : State) (id : Nat) (c : Cmd),
      let d := s.dev
      let b := input s c 0
      let r := reqOf b
      (AtStep s id .keyGenerate c →
        (∀ st, karCheck d b false = some st → Ends (.keyGenerate id) s id st) ∧
        (karCheck d b false = none → isAsym r.typ = true → Ends (.keyGenerate id) s id .fieldRejected) ∧
        (karCheck d b false = none → isAsym r.typ = false →
          (roomLeft d c (unitsFor r.typ r.sub false) = false → Ends (.keyGenerate id) s id .resourceQuota) ∧
          (roomLeft d c (unitsFor r.typ r.sub false) = true →
            ∀ g : Bytes × Dev, g = draw ((typeLens r.typ r.sub).getD (0, 0)).1 d →
            Gives (.keyGenerate id) s (makeKey id (entryOf r g.1 [] false) true 0 [] g.2)))) ∧
      (AtStep s id .keyImportBlob c → Gives (.keyImportBlob id) s
        (importBlob id (if bit c.prm 7 then 3 else 1) (masterOf d c.slice) (fun e => e) s.mem c d)) ∧
      (AtStep s id .keyUnwrap c → Gives (.keyUnwrap id) s
        (if tooDeep c 0 = true then failWith .policyRefused id d else importBlob id 2 (c.mat 0) (childOf c 0) s.mem c d)) ∧
      (∀ version key child, ∀ blob, blob = input s c 1 → ∀ po, po = (version == 3 || bit (hdrOf blob).flags 3) →
        roomLeft d c (unitsFor r.typ r.sub po) = true →
        (openBlob d c.slice version c.pkt.cls key blob = none →
          importBlob id version key child s.mem c d = failWith .keyBlobInvalid id d) ∧
        ∀ o, openBlob d c.slice version c.pkt.cls key blob = some o → r.typ = (hdrOf blob).typ → r.sub = (hdrOf blob).sub →
          anyBit r.usage (2 ^ 32 - 1 - (hdrOf blob).usage) = false → r.flags.getLsbD 0 = bit (hdrOf blob).flags 0 →
          karCheck d b po = none → (version = 3 → pubOk r.typ r.sub o.pub = true) →
          (isTree r.typ = true → po = true ∨ pubHeld d o.pub = false) →
          importBlob id version key child s.mem c d = makeKey id
            (child (withCeiling (hdrOf blob).stateWord (entryOf r o.mat o.pub po))) o.verified 0 []
            (if po = true then d else noteForm id r.typ o.mat d)) ∧
      (AtStep s id .keyExportBlob c → ∀ e, nowEntry d c 0 = some e →
        Yields (.keyExportBlob id) s id [(0, sealEntry d e 1 c.pkt.cls (masterOf d e.owner))] d) ∧
      (AtStep s id .keyWrap c → ∀ e, nowEntry d c 1 = some e →
        Yields (.keyWrap id) s id [(0, sealEntry d e 2 c.pkt.cls (c.mat 0))] d) ∧
      (∀ e version cls k, let h := (entryHdr d e version cls).bytes
        let key := kmac256 k (h.take 8) 64 (if version = 2 then "ORNATH-XPORT" else "ORNATH-WRAP")
        let area := fit (classArea cls) e.material
        let iv := s2v key [h, area]
        sealEntry d e version cls k = h ++ (sivCtr key iv area ++ iv)) ∧
      (AtStep s id .keyPublicGet c → ∀ e, c.key 0 = some e →
        (companionFails d c = true → Ends (.keyPublicGet id) s id .faultDetected) ∧
        (companionFails d c = false → Yields (.keyPublicGet id) s id [(0, publicRecord d e c.pkt.cls)] d)) ∧
      (AtStep s id .keyAttrGet c → ∀ k, c.keys.head? = some k →
        Yields (.keyAttrGet id) s id [(0, attrRecord d k.idx)] d) ∧
      (AtStep s id .keyDerive c → karCheck d b false = none → r.typ ≤ 6 →
        (∀ u, u = uEXPORTBLOB ∨ u = uEXPORTWRAPPED → bit r.usage u = true → (c.key 0).any (fun e => e.may u) = true) →
        (tooDeep c 0 = true → Ends (.keyDerive id) s id .policyRefused) ∧
        (tooDeep c 0 = false → roomLeft d c (unitsFor r.typ r.sub false) = false →
          Ends (.keyDerive id) s id .resourceQuota) ∧
        (tooDeep c 0 = false → roomLeft d c (unitsFor r.typ r.sub false) = true →
        ∀ n x, n = ((typeLens r.typ r.sub).getD (0, 0)).1 → x = fixedInput r (input s c 1) n →
        (c.prm = 1 → Gives (.keyDerive id) s
          (makeKey id (childOf c 0 (entryOf r (kmac256 (c.mat 0) x n "KDF") [] false)) true 0 [] d)) ∧
        (c.prm = 2 → Gives (.keyDerive id) s (makeKey id (childOf c 0 (entryOf r
          ((counterMode (fun y => std .cmac 16 [] [c.mat 0, y]) x (cdiv n 16)).take n) [] false)) true 0 [] d)) ∧
        (c.prm = 3 → Gives (.keyDerive id) s (makeKey id (childOf c 0 (entryOf r
          ((counterMode (fun y => std .hmac 32 [1] [c.mat 0, y]) x (cdiv n 32)).take n) [] false)) true 0 [] d))))
  ) ∧ (
    ∀ (s : State) (id : Nat) (c : Cmd) (k : KeyRes), c.keys.head? = some k →
      let d := s.dev
      let b := input s c 0
      let e := d.ent k.idx
      let own := e.has fMirrored = false
      (e.has fMirrored = true →
        (AtStep s id .keyDestroy c → Ends (.keyDestroy id) s id .policyRefused) ∧
        (AtStep s id .keyRevoke c → Ends (.keyRevoke id) s id .policyRefused) ∧
        (AtStep s id .keyRestrict c → Ends (.keyRestrict id) s id .policyRefused) ∧
        (AtStep s id .keyReplace c → Ends (.keyReplace id) s id .policyRefused)) ∧
      (AtStep s id .keyDestroy c → own → Gives (.keyDestroy id) s (failWith .ok id (drainEnt k.idx (dropShadow k.idx d)))) ∧
      (e.st = .active → ((drainEnt k.idx d).ent k.idx).st = .draining ∧
        ((drainEnt k.idx d).ent k.idx).gen = (if e.gen = 32767 then 1 else e.gen + 1) ∧
        ∀ j, j ≠ k.idx → (drainEnt k.idx d).ent j = d.ent j) ∧
      (e.st ≠ .active → drainEnt k.idx d = d) ∧
      (AtStep s id .keyRevoke c → own → ∀ x n, x = drainEnt k.idx (dropShadow k.idx d) →
        n = (if e.st = .active then 1 else 0) →
        (bit c.prm 0 = false → Gives (.keyRevoke id) s
          (outcomeIs (answer .ok [] (leBytes 4 n)) id x)) ∧
        (bit c.prm 0 = true → Gives (.keyRevoke id) s
          (outcomeIs (answer .ok [] (leBytes 4 ((cascade k.idx x).1 + n))) id (cascade k.idx x).2))) ∧
      (AtStep s id .keyRestrict c → own → ∀ usage limit exp, usage = field b 0 4 → limit = field b 4 4 → exp = field b 8 8 →
        (anyBit usage (2 ^ 32 - 1 - e.usage) = true ∨ field b 16 8 ≠ 0 → Ends (.keyRestrict id) s id .fieldRejected) ∧
        (anyBit usage (2 ^ 32 - 1 - e.usage) = false → field b 16 8 = 0 →
          (limit = 0 ∨ ((e.useLimit = 0 ∨ limit ≤ e.useLimit) ∧ anyBit usage (maskOf [12, 13, 14]) = false)) →
          (exp = 0 ∨ e.expiry = 0 ∨ exp ≤ e.expiry) → Gives (.keyRestrict id) s (failWith .ok id
            (setEnt k.idx { e with usage := usage, useLimit := if limit = 0 then e.useLimit else limit,
                                   expiry := if exp = 0 then e.expiry else exp } d)))) ∧
      (AtStep s id .keyReplace c → own →
        (e.has fStateful = true ∨ e.shadow.isSome = true ∨ (c.pkt.ndesc = 0 ∧ e.has fPublicOnly = true) →
          Ends (.keyReplace id) s id .policyRefused) ∧
        (e.has fStateful = false → e.shadow = none → (c.pkt.ndesc = 0 → e.has fPublicOnly = false) →
          roomFor d c.slice e.units = false → Ends (.keyReplace id) s id .resourceQuota) ∧
        (e.has fStateful = false → e.shadow = none → roomFor d c.slice e.units = true → c.pkt.ndesc = 0 →
          e.has fPublicOnly = false → ∀ (g : Bytes × Dev) pub, g = newMaterial c e.typ e.subtype d →
          pub = pubOfMat e.typ e.subtype g.1 →
          Gives (.keyReplace id) s (makeShadow id k.idx g.1 pub (pairOk e.typ e.subtype e.usage g.1 pub) g.2)) ∧
        (e.has fStateful = false → e.shadow = none → roomFor d c.slice e.units = true → c.pkt.ndesc ≠ 0 →
          ∀ o, openBlob d c.slice 1 c.pkt.cls (masterOf d c.slice) b = some o → o.hdr.typ = e.typ → o.hdr.sub = e.subtype →
          bit o.hdr.flags 3 = e.has fPublicOnly →
          Gives (.keyReplace id) s (makeShadow id k.idx o.mat o.pub o.verified
            (if e.has fPublicOnly = true then d else noteForm id e.typ o.mat d))))
  )

/-! The engines' commands. -/

/-- The commands of the Damask cores at their execution step; the standards' functions are uninterpreted (log 11). -/
def Obligations.LatticeCommands : Prop :=
  ∀ (s : State) (id : Nat) (c : Cmd),
    let d := s.dev
    let f := latForm c.pkt c.op
    let i := inRole s c f
    let x := c.pkt.set2
    let css := c.pkt.css
    let rev := leBytes 1 c.revs.1
    (AtStep s id .mlkemKeygen c → Gives (.mlkemKeygen id) s (genKey id (i .kar) (0x10 + x) 0 0 (f.put .pk) d)) ∧
    (AtStep s id .mldsaKeygen c → Gives (.mldsaKeygen id) s (genKey id (i .kar) (0x14 + x) 0 0 (f.put .pk) d)) ∧
    (AtStep s id .fndsaKeygen c → Gives (.fndsaKeygen id) s (genKey id (i .kar) (0x18 + x) 0 c.revs.1
      (fun pk => f.put .pk pk ++ f.put .report (leBytes 4 c.draws ++ rev ++ zeros 3)) d
      (answer .keyCheckFail [] (zeros 7 ++ rev)))) ∧
    (∀ kar typ sub b7 outs bad, findCmd d id = some c →
      (∀ st, karCheck d kar false = some st → genKey id kar typ sub b7 outs d bad = failWith st id d) ∧
      (karCheck d kar false = none → (reqOf kar).typ ≠ typ ∨ (reqOf kar).sub ≠ sub →
        genKey id kar typ sub b7 outs d bad = failWith .fieldRejected id d) ∧
      (karCheck d kar false = none → (reqOf kar).typ = typ → (reqOf kar).sub = sub →
        (roomLeft d c (unitsFor typ sub false) = false →
          genKey id kar typ sub b7 outs d bad = failWith .resourceQuota id d) ∧
        (roomLeft d c (unitsFor typ sub false) = true → ∀ g pub, g = newMaterial c typ sub d → pub = pubOfMat typ sub g.1 →
          genKey id kar typ sub b7 outs d bad = makeKey id (entryOf (reqOf kar) g.1 pub false)
            (pairOk typ sub (reqOf kar).usage g.1 pub) b7 (outs pub) g.2 bad))) ∧
    (AtStep s id .mlkemEncaps c → secretKar d c css false 0x34 (i .kar) = none → ∀ ek,
      ek = (if c.pkt.hasKey 0 then c.pub 0 else i .ek) →
      (c.pkt.hasKey 0 = false → pubOk (0x10 + x) 0 ek = false → Ends (.mlkemEncaps id) s id .inputInvalid) ∧
      ((c.pkt.hasKey 0 = true ∨ pubOk (0x10 + x) 0 ek = true) → ∀ z, z = kemEncaps x ek d →
        Gives (.mlkemEncaps id) s (placeSecret id f css false (i .kar) z.2.1 (f.put .ct z.1) z.2.2))) ∧
    (AtStep s id .mlkemDecaps c → secretKar d c css true 0x34 (i .kar) = none → Gives (.mlkemDecaps id) s
      (placeSecret id f css true (i .kar) (kemDecaps x (c.mat 0) (i .ct)) [] d)) ∧
    (∀ st, secretKar d c css false 0x34 (i .kar) = some st →
      (AtStep s id .mlkemEncaps c → Ends (.mlkemEncaps id) s id st) ∧
      (AtStep s id .hybridKemEncaps c → Ends (.hybridKemEncaps id) s id st)) ∧
    (∀ par kar ss outs, findCmd d id = some c →
      placeSecret id f true par kar ss outs d = okOuts (outs ++ f.put .ss ss) id d ∧
      placeSecret id f false false kar ss outs d = makeKey id (entryOf (reqOf kar) ss [] false) true 0 outs d ∧
      placeSecret id f false true kar ss outs d = makeKey id (childOf c 0 (entryOf (reqOf kar) ss [] false)) true 0 outs d) ∧
    (∀ str, str = signedStr c.pkt (i .ctx) (i .msg) → ∀ mu, mu = (bits c.prm 4 3 == 2) →
      (AtStep s id .mldsaSign c → ∀ g : Bytes × Dev, g = (if bit c.prm 2 then (zeros 32, d) else draw 32 d) →
        ∀ sig, sig = latSignBytes (0x14 + x) mu (c.mat 0) str g.1 →
        (65535 < c.draws → Gives (.mldsaSign id) s (outcomeIs (answer .invariantFail [] (zeros 2)) id g.2)) ∧
        (c.draws ≤ 65535 → latVerifyOk (0x14 + x) mu (c.pub 0) str sig = false →
          Gives (.mldsaSign id) s (invariantFail .lattice id g.2 (zeros 2))) ∧
        (c.draws ≤ 65535 → latVerifyOk (0x14 + x) mu (c.pub 0) str sig = true → Gives (.mldsaSign id) s
          (outcomeIs (answer .ok (f.put .sig sig) (leBytes 2 c.draws)) id g.2))) ∧
      (AtStep s id .fndsaSign c → ∀ g : Bytes × Dev, g = draw 40 d →
        ∀ sig, sig = latSignBytes (0x18 + x) mu (c.mat 0) str g.1 →
        (65535 < c.draws → Gives (.fndsaSign id) s (outcomeIs (answer .invariantFail [] (zeros 2 ++ rev)) id g.2)) ∧
        (c.draws ≤ 65535 → latVerifyOk (0x18 + x) mu (c.pub 0) str sig = false →
          Gives (.fndsaSign id) s (invariantFail .lattice id g.2 (zeros 2 ++ rev))) ∧
        (c.draws ≤ 65535 → latVerifyOk (0x18 + x) mu (c.pub 0) str sig = true → Gives (.fndsaSign id) s
          (outcomeIs (answer .ok (f.put .sig sig) (leBytes 2 c.draws ++ rev)) id g.2))) ∧
      (∀ pk, pk = (if c.pkt.hasKey 0 then c.pub 0 else i .ek) →
        (AtStep s id .mldsaVerify c → x ≤ 2 → Gives (.mldsaVerify id) s (outcomeIs
          (answer (if latVerifyOk (0x14 + x) mu pk str (i .sig) then .ok else .verifyFail) [] []) id d)) ∧
        (AtStep s id .fndsaVerify c → c.pkt.hasKey 0 = false → pubOk (0x18 + x) 0 pk = false → Gives (.fndsaVerify id) s
          (outcomeIs (answer .inputInvalid [] (zeros 2 ++ rev)) id d)) ∧
        (AtStep s id .fndsaVerify c → (c.pkt.hasKey 0 = true ∨ pubOk (0x18 + x) 0 pk = true) → Gives (.fndsaVerify id) s
          (outcomeIs (answer (if latVerifyOk (0x18 + x) mu pk str (i .sig) then .ok else .verifyFail) [] (zeros 2 ++ rev))
            id d)))) ∧
    (∀ t mu pk str sig, 0x18 ≤ t → sig.head? ≠ some (if t = 0x18 then 0x39#8 else 0x3A#8) →
      latVerifyOk t mu pk str sig = false) ∧
    (∀ (h k hc n : Nat), h = bits c.prm 6 0 → hybrid h = (k, hc, n) →
      (AtStep s id .hybridKemEncaps c → secretKar d c css false 0x34 (i .kar) = none →
        ∀ (ek : Bytes) pk (e : Bytes × Dev), ek = (if c.pkt.hasKey 0 then c.pub 0 else i .ek) →
        pk = (if c.pkt.hasKey 1 then c.pub 1 else i .pk2) → e = ecMaterial hc d →
        (agree hc e.1 pk = none → Gives (.hybridKemEncaps id) s (failWith .inputInvalid id e.2)) ∧
        ∀ z w, agree hc e.1 pk = some z → (c.pkt.hasKey 0 = true ∨ pubOk (0x10 + k) 0 ek = true) →
          w = kemEncaps k ek e.2 → ∀ cc, cc = fit n (e.1.drop (curveLen hc)) → Gives (.hybridKemEncaps id) s
          (placeSecret id f css false (i .kar) (hybridSecret h w.2.1 z w.1 cc) (f.put .ct (w.1 ++ cc)) w.2.2)) ∧
      (AtStep s id .hybridKemDecaps c → secretKar d c css true 0x34 (i .kar) = none →
        ∀ cq cc, cq = (i .ct).take (kemCt k) → cc = (i .ct).drop (kemCt k) →
        (agree hc (c.mat 1) cc = none → Ends (.hybridKemDecaps id) s id .inputInvalid) ∧
        ∀ z, agree hc (c.mat 1) cc = some z → Gives (.hybridKemDecaps id) s (placeSecret id f css true (i .kar)
          (hybridSecret h (kemDecaps k (c.mat 0) cq) z cq cc) [] d))) ∧
    (∀ (t cc pn n : Nat), composite c.prm = (t, cc, pn, n) → ∀ str, str = compositeStr c.prm (i .ctx) (i .msg) →
      ∀ rv, rv = (if c.prm ≤ 3 then zeros 1 else rev) →
      (AtStep s id .compositeSign c → ∀ (r k : Bytes × Dev), r = draw 40 d → k = draw 64 r.2 → ∀ s1 s2,
        s1 = latSignBytes t false (c.mat 0) (zeros 2 ++ str) (if t ≤ 0x16 then r.1.take 32 else r.1) →
        s2 = compositeClSign c.prm cc n (c.mat 1) str k.1 → c.draws ≤ 65535 →
        (latVerifyOk t false (c.pub 0) (zeros 2 ++ str) s1 = false →
          Gives (.compositeSign id) s (invariantFail .lattice id k.2 (zeros 2 ++ rv))) ∧
        (latVerifyOk t false (c.pub 0) (zeros 2 ++ str) s1 = true → compositeClOk c.prm cc (c.pub 1) str s2 = false →
          Gives (.compositeSign id) s (invariantFail .classical id k.2 (zeros 2 ++ rv))) ∧
        (latVerifyOk t false (c.pub 0) (zeros 2 ++ str) s1 = true → compositeClOk c.prm cc (c.pub 1) str s2 = true →
          Gives (.compositeSign id) s
            (outcomeIs (answer .ok (f.put .sig (s1 ++ s2)) (leBytes 2 c.draws ++ rv)) id k.2))) ∧
      (AtStep s id .compositeVerify c → ∀ p1 p2, p1 = (if c.pkt.hasKey 0 then c.pub 0 else i .ek) →
        p2 = (if c.pkt.hasKey 1 then c.pub 1 else i .pk2) →
        (c.pkt.hasKey 1 = true ∨ pubOk (0x50 + cc) 0 p2 = true) →
        (c.pkt.hasKey 0 = true ∨ t < 0x18 ∨ pubOk t 0 p1 = true) → ∀ ok1 ok2,
        ok1 = latVerifyOk t false p1 (zeros 2 ++ str) ((i .sig).take (latSig t)) →
        ok2 = compositeClOk c.prm cc p2 str ((i .sig).drop (latSig t)) →
        Gives (.compositeVerify id) s (outcomeIs (answer (if ok1 && ok2 then .ok else .verifyFail) []
          (leBytes 1 (b2n (!ok1) + 2 * b2n (!ok2)) ++ ([0] ++ rv))) id d)))

/-- The commands of the Tweed engines and the Serge slices at their execution step. -/
def Obligations.CodeAndClassicalCommands : Prop :=
  ∀ (s : State) (id : Nat) (c : Cmd),
    let d := s.dev
    let f := codeForm c.pkt c.op
    let i := inRole s c f
    let fr := rsaForm c.pkt c.op
    let ir := inRole s c fr
    let fe := ecForm c.pkt c.op
    let ie := inRole s c fe
    let k := c.pkt.curve
    let sn := c.pkt.set3
    let css := c.pkt.css
    let bad : Outcome := { status := .keyCheckFail, outs := [], result := [], fault := some .classical }
    (AtStep s id .hqcKeygen c → Gives (.hqcKeygen id) s (genKey id (i .kar) (0x38 + sn) 0 0 (f.put .pk) d)) ∧
    (AtStep s id .mceKeygen c → (512 < c.draws → Ends (.mceKeygen id) s id .invariantFail) ∧
      (c.draws ≤ 512 → Gives (.mceKeygen id) s (genKey id (i .kar) (0x3C + sn) 0 0
        (fun pk => f.put .pk pk ++ f.put .report (leBytes 4 c.draws ++ zeros 4)) d))) ∧
    (∀ ek, ek = (if c.pkt.hasKey 0 then c.pub 0 else i .ek) → ∀ g : Bytes × Dev, g = draw 64 d →
      companionFails d c = false →
      (AtStep s id .hqcEncaps c → secretKar d c css false 0x75 (i .kar) = none → pubOk (0x38 + sn) 0 ek = true →
        ∀ n, n = [4433, 8978, 14421].getD sn 0 → ∀ w, w = std .hqcEncaps (n + 64) [sn, c.revs.2] [ek, g.1] →
        Gives (.hqcEncaps id) s (placeSecret id f css false (i .kar) (w.drop n) (f.put .ct (w.take n)) g.2)) ∧
      (AtStep s id .mceEncaps c → secretKar d c css false 0x34 (i .kar) = none → pubOk (0x3C + sn) 0 ek = true →
        Config.stdOk .mceEncaps [sn] [ek, g.1] = true →
        ∀ n, n = [96, 156, 208, 194, 208].getD sn 0 → ∀ w, w = std .mceEncaps (n + 32) [sn] [ek, g.1] →
        Gives (.mceEncaps id) s (placeSecret id f css false (i .kar) (w.drop n) (f.put .ct (w.take n)) g.2)) ∧
      (AtStep s id .mceEncaps c → c.pkt.hasKey 0 = false → secretKar d c css false 0x34 (i .kar) = none →
        pubOk (0x3C + sn) 0 ek = false → Ends (.mceEncaps id) s id .inputInvalid) ∧
      (AtStep s id .hqcEncaps c → c.pkt.hasKey 0 = false → secretKar d c css false 0x75 (i .kar) = none →
        pubOk (0x38 + sn) 0 ek = false → Ends (.hqcEncaps id) s id .inputInvalid)) ∧
    (companionFails d c = false →
      (AtStep s id .hqcDecaps c → secretKar d c css true 0x75 (i .kar) = none →
        ∀ real, real = Config.stdOk .hqcDecaps [sn, c.revs.2] [c.mat 0, i .ct] → Gives (.hqcDecaps id) s
        (placeSecret id f css true (i .kar) (std .hqcDecaps 64 [b2n real, sn, c.revs.2] [c.mat 0, i .ct]) [] d)) ∧
      (AtStep s id .mceDecaps c → secretKar d c css true 0x34 (i .kar) = none →
        ∀ real, real = ((sn != 3 || decide (((i .ct).getD 193 0).toNat < 8))
          && Config.stdOk .mceDecaps [sn] [c.mat 0, i .ct]) → Gives (.mceDecaps id) s
        (placeSecret id f css true (i .kar) (std .mceDecaps 32 [b2n real, sn] [c.mat 0, i .ct]) [] d))) ∧
    (AtStep s id .rsaKeygen c → (65536 ≤ c.draws → Ends (.rsaKeygen id) s id .invariantFail) ∧
      (c.draws < 65536 → Gives (.rsaKeygen id) s (genKey id (ir .kar) 0x48 c.prm 0
        (fun pk => fr.put .pk pk ++ fr.put .report (leBytes 4 c.draws ++ zeros 4)) d bad))) ∧
    (AtStep s id .rsaSign c → ∀ (g : Bytes × Dev) em sig, g = draw c.pkt.rsaOpts.salt d →
      em = std .rsaSign (rsaK c.prm) (rsaParams c) [ir .digest, g.1] → sig = rsaPrivate c.prm (c.mat 0) em →
      Gives (.rsaSign id) s (if rsaPublic c.prm (c.pub 0) sig = em then
        okOuts (fr.put .sig sig) id g.2 else invariantFail .classical id g.2)) ∧
    (∀ pk, pk = (if c.pkt.hasKey 0 then c.pub 0 else ir .ek) →
      (AtStep s id .rsaVerify c → rsaPkBad c (!c.pkt.hasKey 0) pk = true ∨ repBad (rsaN c.prm pk) (beNat (ir .sig)) = true →
        Ends (.rsaVerify id) s id .inputInvalid) ∧
      (AtStep s id .rsaVerify c → rsaPkBad c (!c.pkt.hasKey 0) pk = false → repBad (rsaN c.prm pk) (beNat (ir .sig)) = false →
        Ends (.rsaVerify id) s id (if Config.stdOk .rsaVerify (rsaParams c)
          [ir .digest, rsaPublic c.prm pk (ir .sig)] then .ok else .verifyFail)) ∧
      (AtStep s id .rsaEncrypt c → rsaPkBad c (!c.pkt.hasKey 0) pk = true → Ends (.rsaEncrypt id) s id .inputInvalid) ∧
      (AtStep s id .rsaEncrypt c → rsaPkBad c (!c.pkt.hasKey 0) pk = false → ∀ (g : Bytes × Dev) em,
        g = draw (if c.pkt.rsaOpts.scheme = 2 then hashLen c.pkt.rsaOpts.hash else rsaK c.prm - 3 - (ir .msg).length) d →
        em = std .rsaEncrypt (rsaK c.prm) (rsaParams c) [ir .label, ir .msg, g.1] →
        Yields (.rsaEncrypt id) s id (fr.put .ct (rsaPublic c.prm pk em)) g.2)) ∧
    (AtStep s id .rsaDecrypt c → ∀ em, em = rsaPrivate c.prm (c.mat 0) (ir .ct) →
      ∀ args, args = [ir .label, em] →
      (repBad (rsaN c.prm (c.pub 0)) (beNat (ir .ct)) = true → Ends (.rsaDecrypt id) s id .inputInvalid) ∧
      (repBad (rsaN c.prm (c.pub 0)) (beNat (ir .ct)) = false → rsaPublic c.prm (c.pub 0) em ≠ ir .ct →
        Gives (.rsaDecrypt id) s (invariantFail .classical id d)) ∧
      (repBad (rsaN c.prm (c.pub 0)) (beNat (ir .ct)) = false → rsaPublic c.prm (c.pub 0) em = ir .ct →
        (Config.stdOk .rsaDecrypt (rsaParams c) args = true → Yields (.rsaDecrypt id) s id
          (fr.put .area (rsaArea c.pkt ((Config.std .rsaDecrypt (rsaParams c) args).take (rsaMax c.pkt)))) d) ∧
        (Config.stdOk .rsaDecrypt (rsaParams c) args = false → c.pkt.rsaOpts.scheme = 2 →
          Ends (.rsaDecrypt id) s id .inputInvalid) ∧
        (Config.stdOk .rsaDecrypt (rsaParams c) args = false → c.pkt.rsaOpts.scheme ≠ 2 →
          Yields (.rsaDecrypt id) s id (fr.put .area (rsaArea c.pkt (rsaSynthetic c (ir .ct)))) d))) ∧
    (AtStep s id .ecKeygen c → Gives (.ecKeygen id) s (genKey id (ie .kar) (0x50 + k) 0 0 (fe.put .pk) d bad)) ∧
    (AtStep s id .ecdsaSign c → ∀ (g : Bytes × Dev) sig, g = (if bit c.prm 4 then ([], d) else draw 64 d) →
      sig = std .ecdsaSign (ecSigLen k) [k, bits c.prm 7 5] [c.mat 0, ie .digest, g.1] →
      Gives (.ecdsaSign id) s (if ecdsaOk k [bits c.prm 7 5] (c.pub 0) (ie .digest) sig then
        okOuts (fe.put .sig sig) id g.2 else invariantFail .classical id g.2)) ∧
    (AtStep s id .eddsaSign c → ∀ sig, sig = std .eddsaSign (ecSigLen k) [k, bits c.prm 5 4] [c.mat 0, ie .ctx, ie .msg] →
      Gives (.eddsaSign id) s (if eddsaOk k (bits c.prm 5 4) (c.pub 0) (ie .ctx) (ie .msg) sig then
        okOuts (fe.put .sig sig) id d else invariantFail .classical id d)) ∧
    (∀ pk, pk = (if c.pkt.hasKey 0 then c.pub 0 else ie .ek) →
      (c.pkt.hasKey 0 = false → pubOk (0x50 + k) 0 pk = false →
        (AtStep s id .ecdsaVerify c → Ends (.ecdsaVerify id) s id .inputInvalid) ∧
        (AtStep s id .eddsaVerify c → Ends (.eddsaVerify id) s id .inputInvalid)) ∧
      ((c.pkt.hasKey 0 = true ∨ pubOk (0x50 + k) 0 pk = true) →
        (AtStep s id .ecdsaVerify c → Ends (.ecdsaVerify id) s id
          (if ecdsaOk k [bits c.prm 7 5] pk (ie .digest) (ie .sig) then .ok else .verifyFail)) ∧
        (AtStep s id .eddsaVerify c → Ends (.eddsaVerify id) s id
          (if eddsaOk k (bits c.prm 5 4) pk (ie .ctx) (ie .msg) (ie .sig) then .ok else .verifyFail)))) ∧
    (css = true ∨ agreeKar d c (ie .kar) = none →
      (agree k (c.mat 0) (ie .peer) = none →
        (AtStep s id .ecdh c → Ends (.ecdh id) s id .inputInvalid) ∧
        (AtStep s id .xdh c → Ends (.xdh id) s id .inputInvalid)) ∧
      ∀ z, agree k (c.mat 0) (ie .peer) = some z → Config.stdOk .ecdh [k] [c.mat 0, ie .peer] = true →
      ∀ n ss, n = ((typeLens 6 (reqOf (ie .kar)).sub).getD (0, 0)).1 →
      ss = (if css then z else kmac256 (zeros 132) (z ++ ie .info) n "KDF") →
      (AtStep s id .ecdh c → Gives (.ecdh id) s (placeSecret id fe css true (ie .kar) ss [] d)) ∧
      (AtStep s id .xdh c → Gives (.xdh id) s (placeSecret id fe css true (ie .kar) ss [] d)))

/-- The commands of the Muslin lanes at their execution step. -/
def Obligations.HashCommands : Prop :=
  ∀ (s : State) (id : Nat) (c : Cmd),
    let d := s.dev
    let f := hashForm c.pkt c.op
    let i := inRole s c f
    let heads := headsOf s.mem d c (hashHeads c.pkt c.op).length
    let msg := dataOf d c ++ i .msg
    let more := c.pkt.segf = 1 ∨ c.pkt.segf = 2
    let fs := slhForm c.pkt c.op
    let is := inRole s c fs
    let x := c.pkt.slhSet
    let ft := treeForm c.pkt c.op
    let it := inRole s c ft
    let typ := treeType c.op c.prm
    (more → ∀ e, e = segAccepted id [] heads (i .msg) c d →
      (AtStep s id .hash c → Gives (.hash id) s e) ∧ (AtStep s id .xof c → Gives (.xof id) s e) ∧
      (AtStep s id .hmacGen c → Gives (.hmacGen id) s e) ∧ (AtStep s id .hmacVerify c → Gives (.hmacVerify id) s e) ∧
      (AtStep s id .kmacGen c → Gives (.kmacGen id) s e) ∧ (AtStep s id .kmacVerify c → Gives (.kmacVerify id) s e)) ∧
    (¬more →
      (AtStep s id .hash c → Yields (.hash id) s id (f.put .digest (std .sha (f.len c.pkt .digest) [c.prm] [msg])) d) ∧
      (AtStep s id .xof c → c.prm ≤ 2 → Yields (.xof id) s id
        (f.put .digest (std .shake (f.len c.pkt .digest) [if c.prm % 2 = 1 then 128 else 256] [msg])) d) ∧
      (AtStep s id .xof c → 2 < c.prm → Yields (.xof id) s id
        (f.put .digest (std .cshake (f.len c.pkt .digest) [if c.prm % 2 = 1 then 128 else 256]
          [msg, heads.getD 1 [], heads.getD 2 []])) d) ∧
      (AtStep s id .hmacGen c → Yields (.hmacGen id) s id (f.put .mac (hmacOf c msg (f.len c.pkt .mac))) d) ∧
      (AtStep s id .hmacVerify c → Ends (.hmacVerify id) s id
        (if hmacOf c msg (f.len c.pkt .mac) = i .mac then .ok else .verifyFail)) ∧
      (AtStep s id .kmacGen c → Yields (.kmacGen id) s id
        (f.put .mac (kmacOf c (heads.getD 1 []) msg (f.len c.pkt .mac))) d) ∧
      (AtStep s id .kmacVerify c → Ends (.kmacVerify id) s id
        (if kmacOf c (heads.getD 0 []) msg (f.len c.pkt .mac) = i .mac then .ok else .verifyFail))) ∧
    (AtStep s id .slhdsaKeygen c → Gives (.slhdsaKeygen id) s (genKey id (is .kar) (0x20 + x) 0 0 (fs.put .pk) d)) ∧
    (∀ str, str = slhStr c.pkt (is .ctx) (is .msg) →
      (AtStep s id .slhdsaSign c → ∀ (g : Bytes × Dev) sig,
        g = (if bit c.prm 4 then (seg (c.mat 0) (2 * slhN x) (slhN x), d) else draw (slhN x) d) →
        sig = std .slhSign (slhSigLen x) [x] [c.mat 0, str, g.1] → Gives (.slhdsaSign id) s
          (if Config.stdOk .slhVerify [x] [c.pub 0, str, sig] then okOuts (fs.put .sig sig) id g.2
           else invariantFail .hash id g.2)) ∧
      (AtStep s id .slhdsaVerify c → Ends (.slhdsaVerify id) s id
        (if Config.stdOk .slhVerify [x] [if c.pkt.hasKey 0 then c.pub 0 else is .ek, str, is .sig] then .ok
         else .verifyFail))) ∧
    (∀ t, treeSet (reqOf (it .kar)).typ (reqOf (it .kar)).sub = some t →
      (c.pkt.ndesc = 2 → ft.len c.pkt .pk = treePkLen (reqOf (it .kar)).typ t) →
      (AtStep s id .lmsKeygen c → (reqOf (it .kar)).typ = 0x30 → Gives (.lmsKeygen id) s
        (genKey id (it .kar) 0x30 (reqOf (it .kar)).sub 0 (ft.put .pk) d)) ∧
      (AtStep s id .xmssKeygen c → (reqOf (it .kar)).typ = 0x31 ∨ (reqOf (it .kar)).typ = 0x32 → Gives (.xmssKeygen id) s
        (genKey id (it .kar) (reqOf (it .kar)).typ (reqOf (it .kar)).sub 0 (ft.put .pk) d))) ∧
    (∀ t j, treeSet typ c.prm = some t → j = c.otIndex.getD 0 →
      (treesOk d c = false → hbmOk d c.slice = true →
        (AtStep s id .lmsSign c → Ends (.lmsSign id) s id .faultDetected) ∧
        (AtStep s id .xmssSign c → Ends (.xmssSign id) s id .faultDetected)) ∧
      (treesOk d c = true → ∀ sig,
        (AtStep s id .lmsSign c → sig = std .lmsSign (treeSigLen 0x30 t) [0x30, c.prm, j]
            (it .msg :: std .drbg 32 [c.draws] [] :: levelKeys 0x30 t (c.mat 0) j) →
          Gives (.lmsSign id) s (if Config.stdOk .lmsVerify [0x30, c.prm] [c.pub 0, it .msg, sig] then
            outcomeIs (answer .ok (ft.put .sig sig) (leBytes 8 j)) id d else invariantFail .hash id d)) ∧
        (AtStep s id .xmssSign c → sig = std .xmssSign (treeSigLen typ t) [typ, c.prm, j]
            (it .msg :: std .drbg 32 [c.draws] [] :: levelKeys typ t (c.mat 0) j) →
          Gives (.xmssSign id) s (if Config.stdOk .xmssVerify [typ, c.prm] [c.pub 0, it .msg, sig] then
            outcomeIs (answer .ok (ft.put .sig sig) (leBytes 8 j)) id d else invariantFail .hash id d)))) ∧
    (∀ t mat j l, 2 ≤ l → l ≤ t.layers → (levelKeys 0x30 t mat j)[l - 1]? = some (kmac256 (mat.drop 16)
      (leBytes 1 l ++ beBytes 8 (j / 2 ^ (t.h * (t.layers + 1 - l)))) (16 + t.n) "ORNATH-HSS")) ∧
    (∀ pk, pk = (if c.pkt.hasKey 0 then c.pub 0 else it .ek) →
      (c.pkt.hasKey 0 = false → pubOk typ c.prm pk = false →
        (AtStep s id .lmsVerify c → Ends (.lmsVerify id) s id .inputInvalid) ∧
        (AtStep s id .xmssVerify c → Ends (.xmssVerify id) s id .inputInvalid)) ∧
      ((c.pkt.hasKey 0 = true ∨ pubOk typ c.prm pk = true) →
        (AtStep s id .lmsVerify c → Ends (.lmsVerify id) s id
          (if Config.stdOk .lmsVerify [0x30, c.prm] [pk, it .msg, it .sig] then .ok else .verifyFail)) ∧
        (AtStep s id .xmssVerify c → Ends (.xmssVerify id) s id
          (if Config.stdOk .xmssVerify [typ, c.prm] [pk, it .msg, it .sig] then .ok else .verifyFail)))) ∧
    (∀ k t, c.keys.head? = some k → treeSet (d.ent k.idx).typ (d.ent k.idx).subtype = some t →
      field (it .params) 8 8 = 0 → ∀ e v u, e = d.ent k.idx → v = field (it .params) 0 8 →
      u = setCmd { c with undo := some (k.idx, e) } d → ∀ q : Dev,
      (bit c.prm 7 = true ∧ (v ≠ e.pending ∨ e.pending ≤ e.ceiling) ∧ q = failWith .policyRefused id d) ∨
      (bit c.prm 7 = true ∧ v = e.pending ∧ e.ceiling < e.pending ∧ ∃ n, n = { e with ceiling := e.pending, pend := none } ∧
        q = okOuts (ft.put .report (leBytes 8 e.next ++ leBytes 8 e.pending ++ leBytes 8 e.pending)) id
          (setEnt k.idx n u)) ∨
      (bit c.prm 7 = false ∧ e.ceiling = 2 ^ t.total ∧ q = failWith .keySigExhausted id d) ∨
      (bit c.prm 7 = false ∧ e.ceiling ≠ 2 ^ t.total ∧ ∃ np, np = newPending t e v ∧ np ≤ 2 ^ t.total ∧
        (v = 0 ∨ np ≤ (if t.layers = 1 then 2 ^ t.total else (treeOf t e.next + 2) * 2 ^ t.h)) ∧ hbmOk d c.slice = true ∧
        ∃ n, n = { e with pend := some np, cache := true, treeTo := max e.treeTo (reachOf t np) } ∧
        q = okOuts (ft.put .report (leBytes 8 e.next ++ leBytes 8 e.ceiling ++ leBytes 8 np)
          ++ ft.put .blob (sliceBlob d n (bits c.prm 3 0))) id (setEnt k.idx n u)) →
      (AtStep s id .lmsReserve c → Gives (.lmsReserve id) s q) ∧
      (AtStep s id .xmssReserve c → Gives (.xmssReserve id) s q))

/-- The commands of the Satin lanes at their execution step. -/
def Obligations.SymmetricCommands : Prop :=
  ∀ (s : State) (id : Nat) (c : Cmd),
    let d := s.dev
    let p := c.pkt
    let k := c.mat 0
    let fb := blockForm p c.op
    let x := inRole s c fb .src
    let fa := aeadForm p c.op
    let ia := inRole s c fa
    let fm := macForm p c.op
    let im := inRole s c fm
    let hd := headsOf s.mem d c 2
    let had := dataOf d c
    let all := had ++ ia .src
    let more := p.segf = 1 ∨ p.segf = 2
    let iv := (headsOf s.mem d c 1).getD 0 []
    let seg1 (y : Bytes) : Dev := segAccepted id (fb.put .dst (y.drop had.length)) (headsOf s.mem d c 1) x c d
    (p.mode = 1 →
      (AtStep s id .encrypt c →
        Yields (.encrypt id) s id (fb.put .dst ((cut p.blk x).flatMap (blockEnc p.tdes k))) d) ∧
      (AtStep s id .decrypt c →
        Yields (.decrypt id) s id (fb.put .dst ((cut p.blk x).flatMap (blockDec p.tdes k))) d)) ∧
    (p.mode = 2 →
      (AtStep s id .encrypt c → ∀ y, y = cbcEnc (blockEnc p.tdes k) iv (cut p.blk (had ++ x)) →
        (more → Gives (.encrypt id) s (seg1 y)) ∧
        (¬more → Yields (.encrypt id) s id (fb.put .dst (y.drop had.length)) d)) ∧
      (AtStep s id .decrypt c → ∀ y, y = cbcDec (blockDec p.tdes k) iv (cut p.blk (had ++ x)) →
        (more → Gives (.decrypt id) s (seg1 y)) ∧
        (¬more → Yields (.decrypt id) s id (fb.put .dst (y.drop had.length)) d))) ∧
    (p.mode = 3 → ∀ y, y = ctrMode (blockEnc false k) (ctrWhole iv) 0 (cut 16 (had ++ x)) →
      (AtStep s id .encrypt c → (more → Gives (.encrypt id) s (seg1 y)) ∧
        (¬more → Yields (.encrypt id) s id (fb.put .dst (y.drop had.length)) d)) ∧
      (AtStep s id .decrypt c → (more → Gives (.decrypt id) s (seg1 y)) ∧
        (¬more → Yields (.decrypt id) s id (fb.put .dst (y.drop had.length)) d))) ∧
    (p.mode = 4 → ∀ pb du t, pb = input s c 0 → du = field pb 16 4 → t = field pb 0 16 →
      (2 ^ 128 ≤ t + (x.length / du - 1) ∨ k.take 16 = k.drop 16 →
        (AtStep s id .encrypt c → Ends (.encrypt id) s id .inputInvalid) ∧
        (AtStep s id .decrypt c → Ends (.decrypt id) s id .inputInvalid)) ∧
      (t + (x.length / du - 1) < 2 ^ 128 → k.take 16 ≠ k.drop 16 →
        (AtStep s id .encrypt c → Yields (.encrypt id) s id (fb.put .dst (xtsUnits true k t (cut du x))) d) ∧
        (AtStep s id .decrypt c → Yields (.decrypt id) s id (fb.put .dst (xtsUnits false k t (cut du x))) d))) ∧
    (p.mode = 5 →
      (AtStep s id .encrypt c →
        Yields (.encrypt id) s id (fb.put .dst (std .keyWrap (x.length + 8) [0, 0] [k, x])) d) ∧
      (AtStep s id .decrypt c → Gives (.decrypt id) s (if Config.stdOk .keyWrap [0] [k, x] then
        okOuts (fb.put .dst (std .keyWrap (x.length - 8) [0, 1] [k, x])) id d
        else outcomeIs (answer .authFail (fb.put .dst (zeros (fb.len p .dst))) []) id d))) ∧
    (p.mode = 6 → ∀ y, y = (Config.std .keyWrap [1, 1] [k, x]).take (x.length - 8) →
      (AtStep s id .encrypt c →
        Yields (.encrypt id) s id (fb.put .dst (std .keyWrap (fb.len p .dst) [1, 0] [k, x])) d) ∧
      (AtStep s id .decrypt c → Gives (.decrypt id) s (if Config.stdOk .keyWrap [1] [k, x] then
        outcomeIs (answer .ok (fb.put .dst (fit (x.length - 8) y)) (leBytes 4 y.length)) id d
        else outcomeIs (answer .authFail (fb.put .dst (zeros (fb.len p .dst))) []) id d))) ∧
    (AtStep s id .aeadEncrypt c → p.mode ≠ 4 → ∀ tag y,
      tag = (if p.mode = 3 then sivTag k (hd.getD 0 []) (hd.getD 1 []) all else []) →
      y = aeadData p.mode k (hd.getD 0 []) tag all →
      (more → Gives (.aeadEncrypt id) s (segAccepted id (fa.put .dst (y.drop had.length)) hd (ia .src) c d)) ∧
      (¬more → Yields (.aeadEncrypt id) s id (fa.put .dst (y.drop had.length) ++
          fa.put .tag (aeadTag p.mode k (hd.getD 0 []) (hd.getD 1 []) all y p.aeadTagLen)) d)) ∧
    (AtStep s id .aeadDecrypt c → p.mode ≠ 4 →
      (more → Gives (.aeadDecrypt id) s (segAccepted id [] hd (ia .src) c d)) ∧
      (¬more → ∀ y, y = aeadData p.mode k (hd.getD 0 []) (ia .tag) all →
        (aeadTag p.mode k (hd.getD 0 []) (hd.getD 1 []) y all p.aeadTagLen = ia .tag →
          Yields (.aeadDecrypt id) s id (fa.put .dst y) d) ∧
        (aeadTag p.mode k (hd.getD 0 []) (hd.getD 1 []) y all p.aeadTagLen ≠ ia .tag →
          Gives (.aeadDecrypt id) s (outcomeIs (answer .authFail (fa.put .dst (zeros (fa.len p .dst))) []) id d)))) ∧
    (p.mode = 4 → ∀ xs, xs = (if ia .src = [] then [[]] else cut (if c.op = .aeadEncrypt then 65536 else 65552) (ia .src)) →
      (AtStep s id .aeadEncrypt c → ∀ y, y = sealChunks k (hd.getD 0 []) (hd.getD 1 []) (!(p.segf == 1 || p.segf == 2)) (had.length / 65536) xs →
        (more → Gives (.aeadEncrypt id) s (segAccepted id (fa.put .dst y) hd (ia .src) c d)) ∧
        (¬more → Yields (.aeadEncrypt id) s id (fa.put .dst y) d)) ∧
      (AtStep s id .aeadDecrypt c → ∀ z, z = openChunks k (hd.getD 0 []) (hd.getD 1 []) (!(p.segf == 1 || p.segf == 2)) (had.length / 65552) xs →
        (z = none → Gives (.aeadDecrypt id) s (outcomeIs (answer .authFail (fa.put .dst (zeros (fa.len p .dst))) []) id d)) ∧
        ∀ y, z = some y → (more → Gives (.aeadDecrypt id) s (segAccepted id (fa.put .dst y) hd (ia .src) c d)) ∧
          (¬more → Yields (.aeadDecrypt id) s id (fa.put .dst y) d))) ∧
    (∀ heads t, heads = headsOf s.mem d c (if p.mode = 2 then 1 else 0) →
      t = macOf p k (heads.getD 0 []) (had ++ im .msg) →
      (AtStep s id .macGen c → ¬more → Yields (.macGen id) s id (fm.put .tag t) d) ∧
      (AtStep s id .macVerify c → ¬more → Ends (.macVerify id) s id (if t = im .tag then .ok else .verifyFail)) ∧
      (AtStep s id .macGen c → more → Gives (.macGen id) s (segAccepted id [] heads (im .msg) c d)) ∧
      (AtStep s id .macVerify c → more → Gives (.macVerify id) s (segAccepted id [] heads (im .msg) c d))) ∧
    (AtStep s id .random c → ∀ g, g = d.prot.drbg.getD (c.slice % 8) ⟨zeros 32, zeros 16, 0⟩ →
      let put (e : Dev) (h : Drbg) : Dev := { e with prot := { e.prot with drbg := e.prot.drbg.set (c.slice % 8) h } }
      (bit c.prm 0 = true ∨ 2 ^ 20 ≤ g.count → entropyOk d = false → Ends (.random id) s id .entropyFail) ∧
      (bit c.prm 0 = false → g.count < 2 ^ 20 → Gives (.random id) s
        (okOuts [(0, (g.generate (c.len 0)).1)] id (put d (g.generate (c.len 0)).2))) ∧
      (bit c.prm 0 = true ∨ 2 ^ 20 ≤ g.count → entropyOk d = true → ∀ e : Bytes × Dev, e = draw 48 d →
        ∀ h, h = { g.update e.1 with count := 0 } → Gives (.random id) s
        (okOuts [(0, (h.generate (c.len 0)).1)] id (put e.2 (h.generate (c.len 0)).2))))

/-- Counter mode, over pieces no longer than what the block function answers. -/
def Obligations.CounterModeUndoesItself : Prop :=
  ∀ (f : Bytes → Bytes) (ctr : Nat → Bytes) (n i : Nat) (xs : List Bytes),
    (∀ b, (f b).length = n) → (∀ x ∈ xs, x.length = n) → 0 < n →
    ctrMode f ctr i (xs) = (List.zipWith (fun x j => xorB x (f (ctr (i + j)))) xs (List.range xs.length)).flatten ∧
    ctrMode f ctr i (List.zipWith (fun x j => xorB x (f (ctr (i + j)))) xs (List.range xs.length)) = xs.flatten

/-- The payment commands at their execution step. -/
def Obligations.PaymentCommands : Prop :=
  ∀ (s : State) (id : Nat) (c : Cmd),
    let d := s.dev
    let p := c.pkt
    let f := payForm p c.op
    let i := inRole s c f
    let sub := ((c.key 0).map (·.subtype)).getD 0
    let b := i .block2
    let pass (pin : List Nat) : Bytes × Dev := draw 16 (holdPay id (unnibs (padTo 12 15 pin)) d)
    let out (pin : List Nat) : List (Nat × Bytes) := f.put .out0 (encPin p.pinOut (c.mat 1) c.pan pin (pass pin).1)
    (AtStep s id .pinTranslate c → ∀ pin, pin = decPin p.pinIn (c.mat 0) c.pan (i .block) →
      (pin = none → Ends (.pinTranslate id) s id .inputInvalid) ∧
      ∀ x, pin = some x → Yields (.pinTranslate id) s id (out x) (pass x).2) ∧
    (AtStep s id .dukptAesTranslate c → ∀ pin, pin = decPin p.pinIn (workingKey c 0 b) c.pan (i .block) →
      (pin = none → Ends (.dukptAesTranslate id) s id .inputInvalid) ∧
      ∀ x, pin = some x → Yields (.dukptAesTranslate id) s id (out x) (pass x).2) ∧
    (AtStep s id .dukptTdesTranslate c → ∀ pin, pin = decPin p.pinIn (workingKey c 0 b) c.pan (i .block) →
      (pin = none → Ends (.dukptTdesTranslate id) s id .inputInvalid) ∧
      ∀ x, pin = some x → Yields (.dukptTdesTranslate id) s id (out x) (pass x).2) ∧
    (∀ v, v = (decPin p.pinIn (c.mat 0) c.pan (i .block)).bind (pvvOf (c.mat 1) c.pan b) →
      (v = none → (AtStep s id .pvvGenerate c → Ends (.pvvGenerate id) s id .inputInvalid) ∧
        (AtStep s id .pvvVerify c → Ends (.pvvVerify id) s id .inputInvalid)) ∧
      ∀ x y, v = some x → y = unnibs (padTo 12 15 x) →
        (AtStep s id .pvvGenerate c → Yields (.pvvGenerate id) s id (f.put .out0 y) (holdPay id y d)) ∧
        (AtStep s id .pvvVerify c → Gives (.pvvVerify id) s
          (failWith (if y = seg b 0x14 6 then .ok else .verifyFail) id (holdPay id y d)))) ∧
    (∀ y, y = cvcOf c.prm (c.mat 0) b →
      (AtStep s id .cvcGenerate c → Yields (.cvcGenerate id) s id (f.put .out0 y) (holdPay id y d)) ∧
      (AtStep s id .cvcVerify c → Gives (.cvcVerify id) s
        (failWith (if y = i .digest then .ok else .verifyFail) id (holdPay id y d)))) ∧
    (∀ y, (((holdPay id y d).job id).pay.foldl xorB (zeros y.length)) = y) ∧
    (AtStep s id .dukptMacVerify c → ∀ k t, k = workingKey c 1 b →
      t = (if p.tdes then isoMac 3 k (isoPad 1 8 (i .msg)) else std .cmac 16 [] [k, i .msg]).take p.macTagLen →
      Ends (.dukptMacVerify id) s id (if t = i .mac then .ok else .verifyFail)) ∧
    (AtStep s id .ipekDerive c → ∀ r, r = reqOf (i .kar) → karCheck d (i .kar) false = none → r.typ = 0x61 → r.sub = sub →
      (∀ u, u = uEXPORTBLOB ∨ u = uEXPORTWRAPPED → bit r.usage u = true → (c.key 0).any (fun e => e.may u) = true) →
      (dukptBad (sub != 4) true (p.inlineOf 1) = true → Ends (.ipekDerive id) s id .packetMalformed) ∧
      (dukptBad (sub != 4) true (p.inlineOf 1) = false → tooDeep c 0 = true → Ends (.ipekDerive id) s id .policyRefused) ∧
      (dukptBad (sub != 4) true (p.inlineOf 1) = false → tooDeep c 0 = false → roomLeft d c 0 = false →
        Ends (.ipekDerive id) s id .resourceQuota) ∧
      (dukptBad (sub != 4) true (p.inlineOf 1) = false → tooDeep c 0 = false → roomLeft d c 0 = true →
        Gives (.ipekDerive id) s
          (makeKey id (childOf c 0 (entryOf r (ipekOf sub (c.mat 0) b) [] false)) true 0 [] d))) ∧
    (AtStep s id .arqcVerify c →
      (emvMac c (emvKey c b) (i .msg) (if bit c.prm 2 then 2 else 1) ≠ seg b 16 8 → Ends (.arqcVerify id) s id .verifyFail) ∧
      (emvMac c (emvKey c b) (i .msg) (if bit c.prm 2 then 2 else 1) = seg b 16 8 → Yields (.arqcVerify id) s id
        (if p.arpc = 0 then [] else f.put .out0 (arpcOf c b (i .info))) d)) ∧
    (AtStep s id .arpcGenerate c → Yields (.arpcGenerate id) s id (f.put .out0 (arpcOf c b (i .info))) d) ∧
    (AtStep s id .retailMacGen c → Yields (.retailMacGen id) s id (f.put .mac (retailMac c (i .msg))) d) ∧
    (AtStep s id .retailMacVerify c → Ends (.retailMacVerify id) s id
      (if retailMac c (i .msg) = i .mac then .ok else .verifyFail)) ∧
    (AtStep s id .keyblockImport c → tooDeep c 0 = false → roomLeft d c 0 = false →
      Ends (.keyblockImport id) s id .resourceQuota) ∧
    (AtStep s id .keyblockImport c → tooDeep c 0 = false → roomLeft d c 0 = true →
      (kbHdr (c.prm == 16) sub (i .blob) = none → Ends (.keyblockImport id) s id .keyBlobInvalid) ∧
      ∀ h, kbHdr (c.prm == 16) sub (i .blob) = some h → ∀ fld, fld = Config.std .keyblockOpen [h.version] [c.mat 0, i .blob] →
        ∀ len alg t u bits_, len = beNat (fld.take 2) / 8 → kbAlg h.alg len = some alg →
        usageMap h.usage alg h.mode = some (t, u, bits_) → strength alg ≤ strength sub →
        Config.stdOk .keyblockOpen [h.version] [c.mat 0, i .blob] = true → beNat (fld.take 2) % 8 = 0 →
        fld.length = (if alg ≤ 3 then 48 else 32) → ∀ r, r = reqOf (i .kar) → r.typ = t → r.sub = u →
        anyBit r.usage (2 ^ 32 - 1 - (bits_ ||| maskOf ([uEXPORTBLOB, uMIRROR]
          ++ (if h.exp == 0x45 then [uEXPORTWRAPPED] else [])))) = false →
        (karCheck d (i .kar) false ≠ none → Ends (.keyblockImport id) s id .fieldRejected) ∧
        (karCheck d (i .kar) false = none →
          ∀ e, e = childOf c 0 (entryOf r (seg fld 2 len) [] false) → Gives (.keyblockImport id) s
            (makeKey id e (h.kp.all (fun k => k == hexOf (fit 3 e.kcv))) 0 [] d))) ∧
    (AtStep s id .keyblockExport c → ∀ e t u need req, c.key 1 = some e → req = i .params →
      usageMap (seg req 0 2) (baseAlg e.typ e.subtype) (chr req 2) = some (t, u, need) →
      (t ≠ e.typ ∨ u ≠ e.subtype → Ends (.keyblockExport id) s id .fieldRejected) ∧
      (t = e.typ → u = e.subtype → anyBit need (2 ^ 32 - 1 - e.usage) = false → isAlnum (chr req 4) = true →
        isAlnum (chr req 5) = true → chr req 4 ≠ 0x63 → chr req 3 = 0x45 ∨ chr req 3 = 0x4E ∨ chr req 3 = 0x53 →
        field req 6 2 = 0 → ∀ n v h kb, n = (if baseAlg e.typ e.subtype ≤ 3 then 96 else 64) + (if 4 ≤ sub then 16 else 32) →
        v = (if 4 ≤ sub then 0x42 else 0x44) → h = kbHeader v (32 + n) (baseAlg e.typ e.subtype) req e.kcv →
        ∀ g : Bytes × Dev, g = draw 64 d → kb = h ++ std .keyblockSeal n [v] [c.mat 0, h, e.material, g.1] →
        Yields (.keyblockExport id) s id (f.put .blob (fit 1024 (leBytes 2 kb.length ++ kb))) g.2))

/-! Microcode. -/

/-- A context executes a word of one of the forms: it carries a running command, and the word is the one that stands at
its address, defined, and no fault to execute (R420, R422, R438). -/
def Sys2Proof.Executes (d : Dev) (k : Nat) (x : MicroCtx) (c : Cmd) (w : BitVec 160) (form : Nat) : Prop :=
  tfind d.micro.ctxs k = some x ∧ findCmd d x.cmd = some c ∧ mwForm w = form ∧ x.ended = none ∧ c.stage = .running ∧
    (wordAt d c x.next = none ∨ wordAt d c x.next = some w) ∧ d.alive = true ∧ notStarted d c = false ∧ wordBad w = false

/-- Loads, bank switches and microwords. First: The loads at their execution step, and the switches. Then: The rows of the sequencers. -/
def Obligations.MicrocodeImagesAndWords : Prop :=
  (
    ∀ (s : State) (id : Nat) (c : Cmd),
      let d := s.dev
      let u := d.micro
      let b := input s c 0
      let key := input s c 1
      (AtStep s id .patchLoad c →
        (∀ st, patchRefused d b = some st → Ends (.patchLoad id) s id st) ∧
        (patchRefused d b = none → Config.stdOk .kat [] [b] = false → Ends (.patchLoad id) s id .invariantFail) ∧
        (patchRefused d b = none → Config.stdOk .kat [] [b] = true → Gives (.patchLoad id) s
          (setCmd { c with stage := .waiting } { d with micro := { u with
            vendor := tset u.vendor (1 - u.vendorBank) (imageOf b), vendorDue := some id } }))) ∧
      (AtStep s id .moduleLoad c →
        (∀ st, modsetRefused d b key = some st → Ends (.moduleLoad id) s id st) ∧
        (modsetRefused d b key = none → Gives (.moduleLoad id) s
          (setCmd { c with stage := .waiting } { d with micro := { u with
            ext := tset u.ext (1 - u.extBank) (imageOf b), extDue := some id } }))) ∧
      (AtStep s id .policyLoad c → (∀ e ∈ d.cmds, e.stage ≠ .hooked) →
        (∀ st, polRefused d b key = some st → Ends (.policyLoad id) s id st) ∧
        (polRefused d b key = none → ∀ mem, mem = { s.mem with
            dram := memClear s.mem.dram 0x6000 0x2000
            iram := putWords s.mem.iram 0xE000 (seg b 64 (2 * field b 4 4)) } → GivesBoth (.policyLoad id) s
          (failWith .ok id (modLinen (fun l => { l with
            policy := if field b 4 4 = 0 then none else some (polModule b), hookFaults := 0 }) d), mem))) ∧
      (∀ ext, d.atRound = false ∨ d.alive = false → exec (.bankSwitch ext) s = .next s) ∧
      (u.floorDue.isSome = true → exec (.bankSwitch false) s = .next s) ∧
      (d.atRound = true → d.alive = true → u.floorDue = none → ∀ k, u.vendorDue = some k →
        ∀ i up, i = tget noImage u.vendor (1 - u.vendorBank) → up = (i.raiseFloor && decide (floorOf d.otp < i.svn)) →
        ∀ rev : Nat → Nat, rev = (fun n => if n = 0 then 1 else n) → ∀ n : Micro, n = { u with
          vendorBank := 1 - u.vendorBank
          vendorDue := none
          draining := true
          patchRequired := false
          fndsaRev := rev i.fndsaRev
          hqcRev := rev i.hqcRev
          floorDue := if up = true then some (k, i.svn) else none } →
        (up = false → Gives (.bankSwitch false) s
          (conclude k (answer .ok [] (leBytes 2 i.version ++ leBytes 1 i.svn)) { d with micro := n })) ∧
        (up = true → Gives (.bankSwitch false) s { d with micro := n })) ∧
      (d.alive = true → d.link.lcRun = none → ∀ k svn, u.floorDue = some (k, svn) →
        ∀ i, i = tget noImage u.vendor u.vendorBank → Gives .otpWriteComplete s
          (linenPend 19 (conclude k (answer .ok [] (leBytes 2 i.version ++ leBytes 1 i.svn)) { d with
            micro := { u with floorDue := none }
            otp := { d.otp with floor := d.otp.floor.write (BitVec.ofNat 64 (2 ^ svn - 1)) } }))) ∧
      (d.alive = true → d.link.lcRun = none → u.floorDue = none → d.prot.fuseDue = none →
        Gives .otpWriteComplete s (linenPend 19 d)) ∧
      (d.atRound = true → d.alive = true → ∀ k, u.extDue = some k → Gives (.bankSwitch true) s
        (conclude k (bare .ok) { d with micro := { u with extBank := 1 - u.extBank, extDue := none, draining := true } })) ∧
      Gives .oldBankDrainDone s
        (if bankInUse d false (1 - u.vendorBank) = true ∨ bankInUse d true (1 - u.extBank) = true then d
         else { d with micro := { u with draining := false } })
  ) ∧ (
    ∀ (s : State) (sq : Fin 32) (cx : Fin 64) (w : BitVec 160) (x : MicroCtx) (c : Cmd) (k : Nat), k = 64 * sq.val + cx.val →
      let d := s.dev
      let y := issue w (aluStep w x)
      (Executes d k x c w 0 → mwCond w ≤ 5 → Gives (.microword sq cx w) s (goTo k c y (y.next + 1) d)) ∧
      (Executes d k x c w 1 → mwCond w ≤ 5 → Gives (.microword sq cx w) s
        (goTo k c y (if (condOf w y d).1 then mwNext w else y.next + 1) d)) ∧
      (Executes d k x c w 2 → mwCond w ≤ 5 → Gives (.microword sq cx w) s
        (goTo k c y (if (condOf w y d).1 then y.next + 1 else mwNext w) d)) ∧
      (Executes d k x c w 3 → x.stack.length < 8 → Gives (.microCall sq cx w) s
        (goTo k c { y with stack := (x.next + 1) % 65536 :: x.stack } (mwNext w) d)) ∧
      (Executes d k x c w 3 → 8 ≤ x.stack.length → Gives (.microCall sq cx w) s (raiseFault (224 + sq.val) 0 0 (some c.id) d)) ∧
      (Executes d k x c w 4 → x.stack = [] → Gives (.microReturn sq cx w) s (raiseFault (224 + sq.val) 0 0 (some c.id) d)) ∧
      (∀ a st, Executes d k x c w 4 → x.stack = a :: st → Gives (.microReturn sq cx w) s (goTo k c { y with stack := st } a d)) ∧
      (Executes d k x c w 5 → Gives (.microDispatch sq cx w) s (goTo k c y (dispatchTo d c) d)) ∧
      (Executes d k x c w 6 → c.op = .moduleOp → c.dmaErr = none → Gives (.microEndRelease sq cx w) s
        (okOuts (d.job c.id).holding c.id (setCtx k { y with ended := some true } d))) ∧
      (Executes d k x c w 7 → c.op = .moduleOp → c.dmaErr = none → Gives (.microEndWithhold sq cx w) s
        (failWith .invariantFail c.id (setCtx k { y with ended := some false } d))) ∧
      (tfind d.micro.ctxs k = some x → Gives (.primitiveDone sq cx) s (setCtx k { x with primBusy := false } d)) ∧
      (∀ id e j, findCmd d id = some e → ctxKey d id = some j → ∀ entry, moduleOf d e = some entry → e.op = .moduleOp →
        e.stage = .running → e.outcome = none → (d.job id).started = false → Gives (.moduleOpcode id) s
          (setJob id { d.job id with started := true } (setCtx j { ctxStart id (modEntry entry) with
            regs := [(0, BitVec.ofNat 64 e.prm)], dmaErr := e.dmaErr.isSome } d))) ∧
      (∀ id e, findCmd d id = some e → e.op = .moduleOp → e.stage = .running → e.outcome = none → e.endAt ≤ d.clk →
        Gives (.moduleOverrun id) s (jobFault id d)) ∧
      (∀ a, a % 65536 < 0xD000 → (vendorOf d c).matches_ = [] → goTo k c y a d = setCtx k { y with next := a % 65536 } d) ∧
      (∀ a e, (vendorOf d c).matches_.find? (fun r => r.1 == a % 65536) = some e → e.2 < 0xD000 →
        goTo k c y a d = setCtx k { y with next := e.2 } d) ∧
      (∀ a, 0xD000 ≤ a % 65536 → (vendorOf d c).matches_ = [] → goTo k c y a d = raiseFault (224 + k / 64) 0 0 (some c.id) d)
  )

/-- Job `id` may act on its unit of a class: it runs there and has been started (R438). -/
def Sys2Proof.Acts (d : Dev) (id : Nat) (c : Cmd) (k : UnitClass) : Prop :=
  findCmd d id = some c ∧ c.stage = .running ∧ c.units.any (fun h => h.cls == k) = true ∧ d.alive = true ∧
    notStarted d c = false

/-- The primitives, in a job that may use them; slots for a polynomial of one slot, operands of `n` words. -/
def Obligations.Primitives : Prop :=
  ∀ (s : State) (id : Nat) (c : Cmd),
    let d := s.dev
    let j := d.job id
    let slot (a : Fin 64) : Bytes := fit 1024 (tget [] j.slots a)
    let put (a : Fin 64) (b : Bytes) : JobMem := { j with slots := tset j.slots a (fit 1024 (seg b 0 1024)) }
    (Acts d id c .lattice → ∀ (a b e : Fin 64) (m : Modulus) (n : Nat), slotsFor m n = 1 → ∀ r : Bytes → Bytes → Bytes,
      (r = (fun x y => if m = .q3329 then std .pmul 1024 [n] [x, y]
        else packCoefs m (List.zipWith (fun u v => u * v % modQ m) (coefs m x) (coefs m y))) →
        Gives (.pmul id a b e m n) s (setJob id (put e (r (slot a) (slot b))) d)) ∧
      (∀ sub, r = (fun x y => packCoefs m (List.zipWith
          (fun u v => if sub then (u + modQ m - v % modQ m) % modQ m else (u + v) % modQ m) (coefs m x) (coefs m y))) →
        Gives (.paddPsub id sub a b e m n) s (setJob id (put e (r (slot a) (slot b))) d))) ∧
    (Acts d id c .lattice → ∀ (a e : Fin 64) (m : Modulus) (n eta : Nat) (x : Bytes), slotsFor m n = 1 →
      Gives (.nttFwd id a m n) s (setJob id (put a (std .ntt 1024 [0, modQ m, n] [slot a])) d) ∧
      Gives (.nttInv id a m n) s (setJob id (put a (std .ntt 1024 [1, modQ m, n] [slot a])) d) ∧
      Gives (.sampleUniform id x e m) s (setJob id (put e (std .sample 1024 [0, modQ m] [fit 34 x])) d) ∧
      Gives (.sampleCbd id eta a e m) s (setJob id (put e (std .sample 1024 [1, eta, modQ m] [slot a])) d)) ∧
    (Acts d id c .lattice → ∀ (unit : Fin 2) (a : Fin 64) (rate count : Nat), 1 ≤ rate → rate ≤ 200 → count ≤ 1024 → 1 ≤ count →
      (∀ st : Bytes, st = absorb rate (count + 1) (fit 200 (tget [] j.keccak unit)) ((slot a).take count) →
        Gives (.keccakAbsorb id unit rate a count) s
          (setJob id { j with keccak := tset j.keccak unit (st ++ leBytes 1 rate) } d)) ∧
      ∀ r : Bytes × Bytes, r = squeeze rate (count + 1) (fit 200 (tget [] j.keccak unit)) count →
        ∀ k, putSlots a r.2 j = some k → (fit 201 (tget [] j.keccak unit)).drop 200 = leBytes 1 rate →
          Gives (.keccakSqueeze id unit a count) s
            (setJob id { k with keccak := tset k.keccak unit (r.1 ++ leBytes 1 rate) } d)) ∧
    (∀ (a : Nat) (b : Bytes) k, putSlots a b j = some k → k.operand = j.operand ∧ k.keccak = j.keccak ∧
      ∀ i, tget [] k.slots i = if a ≤ i ∧ i < a + cdiv b.length 1024 then fit 1024 (seg b (1024 * (i - a)) 1024)
        else tget [] j.slots i) ∧
    (∀ (a : Nat) (b : Bytes), putSlots a b j = none ↔ 64 < a + cdiv b.length 1024) ∧
    (Acts d id c .lattice → ∀ (a : Fin 64) (count : Nat) k, putSlots a (zeros (1024 * count)) j = some k →
      Gives (.damaskZero id a count) s (setJob id k d)) ∧
    (Acts d id c .lattice → ∀ (a : Fin 64) (count : Nat), 64 < a.val + count → Gives (.damaskZero id a count) s (jobFault id d)) ∧
    (Acts d id c .lattice → ∀ (k : Fin 3) (a : Fin 64), c.key k = none → Gives (.keyShares id k a) s (jobFault id d)) ∧
    (Acts d id c .lattice → ∀ (k : Fin 3) (a : Fin 64) e, c.key k = some e → ∀ g : List Bytes × Dev,
      g = sharesOf e.material j.order d → ∀ m, putSlots a (g.1.flatMap (fit (1024 * max 1 (cdiv e.material.length 1024)))) j = some m →
        Gives (.keyShares id k a) s (setJob id m g.2)) ∧
    (∀ b : Bytes, sharesOf b 0 d = ([zeros b.length, b], d) ∧
      ∀ r : Bytes × Dev, r = draw b.length d → sharesOf b 1 d = ([r.1, xorB b r.1], r.2) ∧
        ∀ q : Bytes × Dev, q = draw b.length r.2 → sharesOf b 2 d = ([r.1, q.1, xorB (xorB b r.1) q.1], q.2)) ∧
    (Acts d id c .classical → ∀ n a b e : Nat, operandOk c a n = true → operandOk c b n = true → operandOk c e n = true →
      ∀ (u v : Nat), u = getOperand j a n → v = getOperand j b n →
      Gives (.setModulus id a n) s (setJob id { j with modulus := u, modWords := n } d) ∧
      Gives (.mac id a b n) s (setJob id { j with acc := (j.acc + u * v) % 2 ^ (64 * (2 * n + 1)) } d) ∧
      (∀ g : Bytes × Dev, g = draw (8 * n) d → Gives (.sergeRandom id e n) s (setJob id (putOperand e n (leNat g.1) j) g.2)) ∧
      Gives (.sergeZero id e n) s (setJob id (putOperand e n 0 j) d) ∧
      ((drawNat d).1 % 2 = 1 → Gives (.cswap id a b n) s (setJob id (putOperand b n u (putOperand a n v j)) (drawNat d).2)) ∧
      ((drawNat d).1 % 2 = 0 → Gives (.cswap id a b n) s (setJob id j (drawNat d).2)) ∧
      (j.modWords = n → j.modulus % 2 = 1 →
        Gives (.montMul id a b e) s (setJob id (putOperand e n (montgomery j.modulus n u v) j) d) ∧
        Gives (.montSqr id a e) s (setJob id (putOperand e n (montgomery j.modulus n u u) j) d)) ∧
      (j.modWords = n → j.modulus ≠ 0 →
        Gives (.addModSubMod id false a b e) s (setJob id (putOperand e n ((u + v) % j.modulus) j) d) ∧
        Gives (.addModSubMod id true a b e) s (setJob id (putOperand e n ((u + (j.modulus - v % j.modulus)) % j.modulus) j) d)) ∧
      (∀ (k : Fin 3) ent i v, c.key k = some ent → keyComponent ent i = some v → componentWords ent i = n →
        Gives (.keyOperand id k i e) s (setJob id (putOperand e n v j) d))) ∧
    (Acts d id c .classical → ∀ n e, operandOk c e n = false → Gives (.sergeZero id e n) s (jobFault id d) ∧
      Gives (.setModulus id e n) s (jobFault id d) ∧ Gives (.sergeRandom id e n) s (jobFault id d) ∧
      ∀ b, Gives (.mac id e b n) s (jobFault id d) ∧ Gives (.mac id b e n) s (jobFault id d) ∧
        Gives (.cswap id e b n) s (jobFault id d) ∧ Gives (.cswap id b e n) s (jobFault id d)) ∧
    (findCmd d id = some c → c.stage = .running → c.units ≠ [] → d.alive = true → notStarted d c = false → ∀ i x len,
      (c.pkt.ndesc ≤ i → Gives (.dmaReadDescriptor id i x len) s (jobFault id d)) ∧
      (onDamask c = false → i < c.pkt.ndesc → len ≤ c.len i →
        x + cdiv len 8 ≤ operandSpace c →
        (∀ b, (c.pkt.desc i).isOut = false → c.dmaErr = none → inputOf s.mem d c i = some b →
          Gives (.dmaReadDescriptor id i x len) s
            (setJob id (putOperand x (cdiv (b.take len).length 8) (leNat (b.take len)) j) d)) ∧
        ((c.pkt.desc i).isOut = true → ∀ b, b = fit (c.len i) (leBytes len (getOperand j x (cdiv len 8))) →
          Gives (.dmaWriteHolding id i x len) s (setJob id { j with holding := tset j.holding i b } d))))

/-! The DMA engine, memories, power domains. -/

/-- Manager channels, scratch banks, zeroisation, power domains. First: DMA_GO, DMA_RESET, DMA_READ_COMPLETION and DMA_DESC_COMPLETE. Then: SCR_OWN_HANDOVER, SCR_WIPE_DONE, HBM_ZEROISE_DONE, POWER_DOMAIN_IDLE, POWER_DOMAIN_WAKE, ZENARI_PORT_IDLE. -/
def Obligations.DmaMemoriesDomains : Prop :=
  (
    ∀ (s : State) (c : Fin 64) (b : Bytes),
      let d := s.dev
      let h := d.chan c
      (h.st ≠ .idle ∨ (h.st = .idle ∧ (c.val < 56 ∨ d.reachable = false ∨ d.prot.pendingFc.getLsbD (272 + c.val) = true)) →
        ∀ r, exec (.dmaGo c r) s = .next s) ∧
      (56 ≤ c.val → d.reachable = true → h.st = .idle → d.prot.pendingFc.getLsbD (272 + c.val) = false →
        ∀ e, e = modChan c (fun _ => { h with
          st := .running, cur := h.head, desc := [], staged := [], stagedOther := [], mismatch := false }) d →
        (d.dmaHeld = true → ∀ r, Gives (.dmaGo c r) s e) ∧
        (d.dmaHeld = false → b.length = 32 →
          (descError b = true → Gives (.dmaGo c (.data b)) s
            (raisePf0 (440 + c.val) (modChan c (fun x => { x with st := .halted, err := 3 }) e))) ∧
          (descError b = false → Gives (.dmaGo c (.data b)) s (modChan c (fun x => { x with
            desc := b, staged := [], stagedOther := [], count := if dOp b = 1 then 0 else dCount b }) e)))) ∧
      (c.val < 56 ∨ d.reachable = false → exec (.dmaReset c) s = .next s) ∧
      (56 ≤ c.val → d.reachable = true → h.st = .running → Gives (.dmaReset c) s
        (modChan c (fun _ => { h with st := .idle, desc := [], staged := [], stagedOther := [] }) d)) ∧
      (56 ≤ c.val → d.reachable = true → h.st = .halted → Gives (.dmaReset c) s
        (modChan c (fun _ => { h with
          st := .idle, desc := [], staged := [], stagedOther := [], err := 0, mismatch := false, count := 0, errAddr := 0, dirWrite := false, cmp := 0 }) d)) ∧
      (chanRuns d c = false → ∀ wr n next, exec (.dmaDescComplete c wr n next) s = .next s) ∧
      (chanRuns d c = true → h.desc ≠ [] → dOp h.desc = 1 → dDstSpace h.desc = 0 → ∀ wr next, wr = .ok → 0 < dCount h.desc →
        Gives (.dmaDescComplete c wr 0 next) s (chanNext c next
          (emit (.hostWrite none (dDst h.desc) (fillBytes (dSrc h.desc) (dDst h.desc) (dCount h.desc))) d))) ∧
      (∀ k a n i, i < n → (fillBytes k a n)[i]? = some ((leBytes 8 k).getD ((a + i) % 8) 0)) ∧
      (chanRuns d c = true → h.desc ≠ [] → dOp h.desc = 2 → dSrcSpace h.desc = 0 → dDstSpace h.desc = 0 →
        h.staged.length = dCount h.desc → h.stagedOther.length = dCount h.desc → ∀ wr n next,
        Gives (.dmaDescComplete c wr n next) s (chanCompare c h.staged h.stagedOther next (modChan c (fun x => { x with count := 0 }) d))) ∧
      (∀ x y : Bytes, x.length = y.length → (firstDiff x y = none ↔ x = y) ∧
        ∀ i, firstDiff x y = some i → x[i]? ≠ y[i]? ∧ ∀ j, j < i → x[j]? = y[j]?) ∧
      (chanRuns d c = true → h.desc ≠ [] → Gives (.dmaReadCompletion (.chan c true) (.data b)) s
        (modChan c (fun x => { x with stagedOther := (x.stagedOther ++ b).take (dCount h.desc) }) d)) ∧
      (∀ id i q, d.dmaHeld = false → findCmd d id = some q → q.unfinished = true → q.outcome = none → q.dmaErr = none →
        i < q.pkt.ndesc → (q.pkt.desc i).isOut = false → (q.pkt.desc i).len ≠ 0 → (q.pkt.desc i).space = 0 →
        tfind q.inputs i = none →
        Gives (.dmaReadCompletion (.cmd id i) (.data b)) s
          (noteAts (pasidOf d q.slice (q.pkt.desc i).pslot) (q.pkt.desc i).addr (q.pkt.desc i).len
            (setCmd { q with inputs := tset q.inputs i (fit (q.pkt.desc i).len b) } d)) ∧
        ∀ a late, Gives (.dmaReadCompletion (.cmd id i) (.error a late)) s
          (inputError id (if late then .dmaLateError else .dmaBusError) d))
  ) ∧ (
    ∀ (s : State) (b : Fin 64) (v : BitVec 32) (dom : Fin 37) (port : Fin 2),
      let d := s.dev
      let n := bits v.toNat 15 8
      (b.val < 32 ∨ 47 < b.val ∨ 8 < n ∨ d.reachable = false → exec (.scrOwnHandover b v) s = .next s) ∧
      (d.reachable = true → 32 ≤ b.val → b.val ≤ 47 → n ≤ 8 →
        (n = 0 ∨ v.getLsbD 16 = true → Gives (.scrOwnHandover b v) s
          (modBank b (fun k => { k with owner := n, wiping := true, wipeEnd := d.clk + 600 }) d)) ∧
        (n ≠ 0 → v.getLsbD 16 = false → Gives (.scrOwnHandover b v) s (modBank b (fun k => { k with owner := n }) d))) ∧
      ((d.bank b).wiping = true → (d.bank b).wipeEnd ≤ d.clk → GivesBoth (.scrWipeDone b) s
        (modBank b (fun k => { k with wiping := false }) d, { s.mem with scr := memClear s.mem.scr (b.val * 65536) 65536 })) ∧
      (Inv s → ∀ lo n a,
        memGet (memClear s.mem.scr lo n) a = (if lo ≤ a ∧ a < lo + n then 0 else memGet s.mem.scr a) ∧
        memGet (memClear s.mem.hbm lo n) a = (if lo ≤ a ∧ a < lo + n then 0 else memGet s.mem.hbm a)) ∧
      ((d.bank b).wiping = false ∨ d.clk < (d.bank b).wipeEnd → exec (.scrWipeDone b) s = .next s) ∧
      (d.powered = true → ∀ (z : Option (Fin 256)) k, k = z.map (·.val) → d.dma.zeroing.contains k = true →
        ∀ e, e = { d with dma := { d.dma with zeroing := d.dma.zeroing.filter (fun x => x != k) } } →
        ∀ f : Cmd → Cmd, f = (fun q => if (q.op == .sliceCreate && q.stage == .waiting && !windowOwed e q.prm) = true
          then { q with stage := .results } else q) →
        GivesBoth (.hbmZeroiseDone z) s (mapCmds f e, { s.mem with
          hbm := match z with
            | none => []
            | some x => memClear s.mem.hbm (xwBase x) 65536 })) ∧
      (∀ z : Option (Fin 256), d.dma.zeroing.contains (z.map (·.val)) = false → exec (.hbmZeroiseDone z) s = .next s) ∧
      (∀ k, domainClass dom = some k → d.powered = true → d.link.started = true → d.link.domainsOff.contains dom.val = false →
        domainOut d dom = true ∨ (classIdle d k = true ∧ domainQuiet d dom = true ∧ otherOn d k dom = true) →
        Gives (.powerDomainIdle dom) s { d with link := { d.link with domainsOff := d.link.domainsOff ++ [dom.val] } }) ∧
      (domainClass dom = none → exec (.powerDomainIdle dom) s = .next s) ∧
      ((∃ w ∈ d.link.waking, w.1 = dom.val ∧ w.2 ≤ d.clk) → Gives (.powerDomainWake dom) s { d with link := { d.link with
        waking := d.link.waking.filter (fun w => w.1 != dom.val)
        domainsOff := d.link.domainsOff.filter (fun k => k != dom.val) } }) ∧
      ((∀ w ∈ d.link.waking, w.1 = dom.val → d.clk < w.2) → exec (.powerDomainWake dom) s = .next s) ∧
      (d.powered = true → d.link.started = true → d.bound = false → (d.port port).link = .down →
        d.link.domainsOff.contains (27 + port.val) = false → d.link.startAt + 100000000 ≤ d.clk → Gives (.zenariPortIdle port) s
          { d with link := { d.link with domainsOff := d.link.domainsOff ++ [27 + port.val] } })
  )

/-! Linen, its digest unit, its instructions. -/

/-- Exceptions, timers, the watchdog, the digest unit. First: EXCEPTION_ENTRY, TIMER_EXPIRY, WDOG_WRITE, WATCHDOG_HALF, WATCHDOG_EXPIRY,
OTP_WRITE_COMPLETE, RTC_ALARM and HOOK_TIMEOUT. Then: The rows of the digest unit, while Linen runs and the unit is the running task's. -/
def Obligations.LinenExceptionsAndDigests : Prop :=
  (
    ∀ (s : State) (v : Fin 65),
      let d := s.dev
      let l := d.linen
      (Inv s → ∀ (kind prio : Nat) (pc sr repc : Word16), 3 ≤ l.ksp.toNat → l.ksp.toNat ≤ 0x8000 → kind ≤ 2 →
        let t := takeException v kind prio pc sr repc d s.mem
        t.1.linen.ksp = l.ksp - 3 ∧ memGet t.2.dram (l.ksp.toNat - 1) = repc ∧ memGet t.2.dram (l.ksp.toNat - 2) = sr ∧
        memGet t.2.dram (l.ksp.toNat - 3) = pc ∧ t.1.linen.pc = instrRead t.2 ((l.vbr &&& 0xFF80) + BitVec.ofNat 16 v.val).toNat ∧
        t.1.linen.sr.getLsbD 15 = false ∧ t.1.linen.sr.getLsbD 12 = (sr.getLsbD 12 && kind == 0) ∧
        t.1.linen.sr.getLsbD 13 = (sr.getLsbD 13 && decide (kind ≤ 1)) ∧ t.1.linen.repc = repc ∧ t.1.linen.rep = none ∧
        t.1.linen.resume = false ∧ t.1.linen.waiting = false ∧ t.1.linen.nest = prio :: l.nest ∧ t.1.linen.v = l.v ∧
        t.1.linen.x = l.x ∧ t.1.linen.psp = l.psp ∧ t.1.linen.ac0 = l.ac0 ∧ t.1.linen.ac1 = l.ac1 ∧ t.1.cmds = d.cmds ∧
        ∀ a, (a < l.ksp.toNat - 3 ∨ l.ksp.toNat ≤ a) → memGet t.2.dram a = memGet s.mem.dram a) ∧
      (d.powered = true → l.halted = false → nextVec l = some v.val → ∀ pc sr repc,
        (l.rep = none ∧ pc = l.pc ∧ sr = l.sr ∧ repc = l.repc) ∨
          (∃ p left, l.rep = some (p, false, left) ∧ pc = BitVec.ofNat 16 p ∧ sr = l.sr ||| 0x0100 ∧ repc = BitVec.ofNat 16 left) →
        (16 ≤ v.val → v.val ≤ 26 → GivesBoth (.exceptionEntry v) s
          (takeException v (if highVec l v then 2 else 1) (if highVec l v then 1 else 0) pc sr repc
            (modLinen (fun x => { x with ipend := x.ipend &&& ~~~(1#64 <<< v.val) }) d) s.mem)) ∧
        (v.val = 64 → GivesBoth (.exceptionEntry v) s
          (takeException 64 2 2 pc sr repc (modLinen (fun x => { x with nmiPend := false }) d) s.mem))) ∧
      (16 ≤ v.val → v.val ≤ 26 → nextVec l ≠ some v.val → exec (.exceptionEntry v) s = .next s) ∧
      (d.powered = true → l.halted = false → l.waiting = false → l.rep = none → l.policyMode = false ∨ l.hook = none →
        (v.val ≤ 3 → GivesBoth (.exceptionEntry v) s (takeException v 0 3 l.pc l.sr l.repc d s.mem)) ∧
        (48 ≤ v.val → v.val ≤ 63 → GivesBoth (.exceptionEntry v) s (takeException v 0 3 (l.pc + 1) l.sr l.repc d s.mem)) ∧
        (v.val = 4 → l.policyMode = true → l.pc.toNat < 0xE000 →
          GivesBoth (.exceptionEntry v) s (takeException v 0 3 l.pc l.sr l.repc d s.mem))) ∧
      ((5 ≤ v.val ∧ v.val ≤ 15) ∨ (27 ≤ v.val ∧ v.val ≤ 47) → exec (.exceptionEntry v) s = .next s) ∧
      (d.powered = true → l.timer0 = 1 → Gives (.timerExpiry 0) s (linenPend 20 (modLinen (fun x => { x with timer0 := x.reload0 }) d))) ∧
      (d.powered = true → l.timer1 = 1 → Gives (.timerExpiry 1) s (linenPend 21 (modLinen (fun x => { x with timer1 := x.reload1 }) d))) ∧
      (linenRuns d = true → l.policyMode = false → ∀ w, Gives (.wdogWrite w) s
        (modLinen (fun x => { x with wdogAt := d.clk, wdogHalf := false }) d)) ∧
      (d.powered = true → d.link.started = true → l.wdogHalf = false → l.wdogAt + 8000000 ≤ d.clk →
        Gives .watchdogHalf s (linenPend 22 (modLinen (fun x => { x with wdogHalf := true }) d))) ∧
      (d.clk < l.wdogAt + 8000000 → exec .watchdogHalf s = .next s ∧ exec .watchdogExpiry s = .next s) ∧
      (d.powered = true → d.link.started = true → d.link.halt = false → l.wdogAt + 16000000 ≤ d.clk →
        Gives .watchdogExpiry s (raiseFault 413 0 0 none d)) ∧
      (d.powered = true → Gives .rtcAlarm s (linenPend 23 d)) ∧
      (∀ id due, l.hook = some (id, due) → d.clk < due + 20000 → exec (.hookTimeout id) s = .next s) ∧
      (∀ id due, l.hook = some (id, due) → due + 20000 ≤ d.clk → d.powered = true →
        ∀ r, r = hookEnd false l.ksp (modLinen (fun x => { x with
          sr := x.sr &&& 0x7FFF, taskId := 0, pc := BitVec.ofNat 16 (drawNat d).1, rep := none, resume := false,
          hookFaults := x.hookFaults + 1 }) (drawNat d).2) s.mem → GivesBoth (.hookTimeout id) s r)
  ) ∧ (
    ∀ (s : State) (v : BitVec 16) (rd : Fin 16), linenRuns s.dev = true →
      let d := s.dev
      let l := d.linen
      let u := l.sdu
      let put (f : Sdu → Sdu) : Dev := modLinen (fun x => { x with sdu := f x.sdu }) d
      (v.getLsbD 0 = true → u.owner = 15 ∨ u.owner = l.taskId.toNat % 8 →
        ∀ alg dest, alg = bits v.toNat 15 12 → dest = bits v.toNat 10 9 → ∀ e, e = put (fun x => { x with
          alg := alg, dest := dest, compat := if u.opened = true then u.compat else v.getLsbD 11 }) →
        ∀ bad : Prop, bad = (alg = 0 ∨ 8 < alg ∨ dest = 3 ∨ u.outLen = 0 ∨ 64 < u.outLen.toNat ∨
          (dest = 2 ∧ l.policyMode = true)) →
        (bad → Gives (.sduStart v) s (modSdu (fun x => { x with errSeq := true }) e)) ∧
        (¬bad → 6 ≤ alg → sduKey e u.keySel.toNat = none → Gives (.sduStart v) s (modSdu (fun x => { x with errKey := true }) e)) ∧
        (¬bad → ∀ key, (alg ≤ 5 ∧ key = []) ∨ (6 ≤ alg ∧ sduKey e u.keySel.toNat = some key) → Gives (.sduStart v) s
          (modSdu (fun x => { x with
            cur := { alg := alg, key := key, slen := u.slen.toNat, outLen := u.outLen.toNat, dest := dest }
            owner := if u.owner = 15 then l.taskId.toNat % 8 else u.owner
            opened := true
            finished := false
            valid := false
            buffered := 0
            msg := []
            last := none
            result := []
            readPos := 0 }) e))) ∧
      (u.owner ≠ 15 → u.owner ≠ l.taskId.toNat % 8 → exec (.sduStart v) s = .next s) ∧
      (u.owner = l.taskId.toNat % 8 →
        (u.opened = true → u.full = false → u.last = none → Gives (.din v) s
          (put (fun x => { x with msg := x.msg ++ leBytes 2 v.toNat, buffered := x.buffered + 1 }))) ∧
        (u.opened = true → u.full = true → u.compat = false → exec (.din v) s = .next s) ∧
        (u.opened = true → v = 0 → Gives (.last v) s (put (fun x => { x with opened := false, finished := true, last := none }))) ∧
        (u.opened = true → 1 ≤ v.toNat → v.toNat ≤ 2 → Gives (.last v) s (put (fun x => { x with last := some v.toNat }))) ∧
        (u.opened = false ∨ 2 < v.toNat → Gives (.last v) s (put (fun x => { x with errSeq := true }))) ∧
        (u.valid = true → u.readPos < u.result.length → Gives (.dout rd) s
          (svSet rd (BitVec.ofNat 16 (field u.result u.readPos 2)) (put (fun x => { x with readPos := x.readPos + 2 })))) ∧
        (u.valid = false → u.compat = false → exec (.dout rd) s = .next s) ∧
        (bits v.toNat 3 0 = 15 → Gives (.sduOwnerWrite v) s (put (fun x => { x with owner := 15 })))) ∧
      (u.owner ≠ l.taskId.toNat % 8 → exec (.din v) s = .next s ∧ exec (.last v) s = .next s) ∧
      (l.policyMode = false → u.busy = true → exec (.ctxSave rd) s = .next s) ∧
      (l.policyMode = false → u.busy = false → u.ctxPos ≠ 0 → Gives (.ctxSave rd) s (svSet rd (u.ctxImage.getD u.ctxPos 0)
        (put (fun x => { x with ctxPos := (u.ctxPos + 1) % 192 })))) ∧
      (l.policyMode = false → u.owner = 15 ∨ u.owner = 0 → u.opened = false → u.busy = false → u.ctxPos = 0 →
        (u.ctxIn.length + 1 < 192 → Gives (.ctxRestore v) s (put (fun x => { x with ctxIn := u.ctxIn ++ [v] }))) ∧
        (192 ≤ u.ctxIn.length + 1 → l.sduCtxs.any (fun e => e.1 == u.ctxIn ++ [v]) = false →
          Gives (.ctxRestore v) s (put (fun x => { sduZero false x with errSeq := true })))) ∧
      (d.powered = true → sduBlock u.cur.alg ≤ u.buffered → Gives .sduBlockDone s
        (linenPend 17 (put (fun x => { x with buffered := x.buffered - sduBlock u.cur.alg })))) ∧
      (d.powered = true → u.buffered < sduBlock u.cur.alg → u.finished = true → u.valid = false → u.cur.dest = 0 →
        Gives .sduBlockDone s (linenPend 18 (put (fun x => { x with
          buffered := 0, valid := true, readPos := 0, result := sduDigest u.cur u.msg }))))
  )

/-- Linen executes the instruction at its PC: it runs, no prefix is in force, and in policy mode the fetch is from the
policy region (R448, R449). -/
def Sys2Proof.Executing (s : State) : Prop :=
  linenRuns s.dev = true ∧ s.dev.linen.rep = none ∧ (s.dev.linen.policyMode = true → 0xE000 ≤ s.dev.linen.pc.toNat)

/-- The instruction goes on to the next one, `words` words later, with the device and the memories given. -/
def Sys2Proof.GoesOn (i : Instr) (s : State) (words : Nat) (d : Dev) (m : Memory) : Prop :=
  exec i s = .next { s with dev := modLinen (fun l => { l with pc := l.pc + BitVec.ofNat 16 words }) d, mem := m }

/-- The instruction goes to an address. -/
def Sys2Proof.GoesTo (i : Instr) (s : State) (a : Word16) (d : Dev) (m : Memory) : Prop :=
  exec i s = .next { s with dev := modLinen (fun l => { l with pc := a }) d, mem := m }

/-- The device with a register written and the flags set by a result: Z and N follow it. -/
def Sys2Proof.withResult (d : Dev) (rd : Nat) (r : Word16) (c v : Bool) : Dev :=
  svSet rd r (svFlags { z := r == 0, n := r.msb, c := c, v := v } d)

/-- The device with the flags of a result that is not written. -/
def Sys2Proof.withFlagsOf (d : Dev) (r : Word16) (c v : Bool) : Dev :=
  svFlags { z := r == 0, n := r.msb, c := c, v := v } d

/-- The device with an accumulator written and its flags: Z and N follow the 32 bits. -/
def Sys2Proof.withAcc (d : Dev) (ac : Bool) (r : Word32) (c v : Bool) : Dev :=
  svAcc ac r (svFlags { z := r == 0, n := r.msb, c := c, v := v } d)

/-- Results and flags (R445), in any state in which Linen executes the instruction. -/
def Obligations.FlagsFollowResults : Prop :=
  ∀ (s : State) (rd ra rb : Fin 16) (b : SvSrc) (ac : Bool), Executing s →
    let d := s.dev
    let x := svReg d rd
    let y := srcVal d b
    let n := srcWords b
    let c := d.linen.sr.getLsbD 2
    let v := d.linen.sr.getLsbD 3
    let p : Int := (svReg d ra).toInt * (svReg d rb).toInt
    let q : Nat := (svReg d ra).toNat * (svReg d rb).toNat
    let acc := d.linen.acc ac
    GoesOn (.svAdd rd b) s n (withResult d rd (x + y) (decide (65536 ≤ x.toNat + y.toNat))
      (decide ((x + y).toInt ≠ x.toInt + y.toInt))) s.mem ∧
    GoesOn (.svAdc rd b) s n (withResult d rd (x + y + BitVec.ofNat 16 (b2n c)) (decide (65536 ≤ x.toNat + y.toNat + b2n c))
      (decide ((x + y + BitVec.ofNat 16 (b2n c)).toInt ≠ x.toInt + y.toInt + b2n c))) s.mem ∧
    GoesOn (.svSub rd b) s n (withResult d rd (x - y) (decide (x.toNat < y.toNat))
      (decide ((x - y).toInt ≠ x.toInt - y.toInt))) s.mem ∧
    GoesOn (.svSbc rd b) s n (withResult d rd (x - y - BitVec.ofNat 16 (b2n c)) (decide (x.toNat < y.toNat + b2n c))
      (decide ((x - y - BitVec.ofNat 16 (b2n c)).toInt ≠ x.toInt - y.toInt - b2n c))) s.mem ∧
    GoesOn (.svCmp rd b) s n (withFlagsOf d (x - y) (decide (x.toNat < y.toNat))
      (decide ((x - y).toInt ≠ x.toInt - y.toInt))) s.mem ∧
    GoesOn (.svAnd rd b) s n (withResult d rd (x &&& y) false false) s.mem ∧
    GoesOn (.svOr rd b) s n (withResult d rd (x ||| y) false false) s.mem ∧
    GoesOn (.svXor rd b) s n (withResult d rd (x ^^^ y) false false) s.mem ∧
    GoesOn (.svTst rd b) s n (withFlagsOf d (x &&& y) false false) s.mem ∧
    GoesOn (.svNot rd) s 1 (withResult d rd (~~~x) false false) s.mem ∧
    GoesOn (.svSwapb rd) s 1 (withResult d rd ((x <<< 8) ||| (x >>> 8)) false false) s.mem ∧
    GoesOn (.svSxb rd) s 1 (withResult d rd ((x.setWidth 8).signExtend 16) false false) s.mem ∧
    GoesOn (.svNeg rd) s 1 (withResult d rd (-x) (decide (x ≠ 0)) (decide (x = 0x8000))) s.mem ∧
    GoesOn (.svInc rd) s 1 (withResult d rd (x + 1) c (decide (x = 0x7FFF))) s.mem ∧
    GoesOn (.svDec rd) s 1 (withResult d rd (x - 1) c (decide (x = 0x8000))) s.mem ∧
    GoesOn (.svSmul ac ra rb) s 1 (withAcc d ac (BitVec.ofInt 32 p) false false) s.mem ∧
    GoesOn (.svUmul ac ra rb) s 1 (withAcc d ac (BitVec.ofNat 32 q) false false) s.mem ∧
    GoesOn (.svSmac ac ra rb) s 1 (withAcc d ac (BitVec.ofInt 32 (acc.toInt + p)) c
      (decide ((BitVec.ofInt 32 (acc.toInt + p)).toInt ≠ acc.toInt + p))) s.mem ∧
    GoesOn (.svUmac ac ra rb) s 1 (withAcc d ac (BitVec.ofNat 32 (acc.toNat + q)) (decide (2 ^ 32 ≤ acc.toNat + q)) v) s.mem ∧
    (-(0x8000 : Word16) = 0x8000) ∧
    (∀ (e : Dev) (r : Word16), svReg (svSet rd r e) rd = r ∧ ∀ k, k ≠ rd.val → svReg (svSet rd r e) k = svReg e k) ∧
    (∀ (w : Word16) (f : Flags), flagsOf (withFlags w f) = f ∧ ∀ k, 4 ≤ k → (withFlags w f).getLsbD k = w.getLsbD k)

/-- Shifts and rotates (R447). -/
def Obligations.ShiftCounts : Prop :=
  ∀ (s : State) (rd : Fin 16) (cnt : SvSrc), Executing s →
    let d := s.dev
    let x := svReg d rd
    let k := srcWords cnt
    let n := (srcVal d cnt).toNat % 32
    let out := withResult d rd
    (n = 0 → GoesOn (.svLsl rd cnt) s k (out x false false) s.mem ∧ GoesOn (.svLsr rd cnt) s k (out x false false) s.mem ∧
      GoesOn (.svAsr rd cnt) s k (out x false false) s.mem ∧ GoesOn (.svAsl rd cnt) s k (out x false false) s.mem) ∧
    (1 ≤ n → n ≤ 15 →
      GoesOn (.svLsl rd cnt) s k (out (x <<< n) (x.getLsbD (16 - n)) false) s.mem ∧
      GoesOn (.svLsr rd cnt) s k (out (x >>> n) (x.getLsbD (n - 1)) false) s.mem ∧
      GoesOn (.svAsr rd cnt) s k (out (x.sshiftRight n) (x.getLsbD (n - 1)) false) s.mem ∧
      GoesOn (.svAsl rd cnt) s k (out (x <<< n) (x.getLsbD (16 - n)) (decide ((x <<< n).sshiftRight n ≠ x))) s.mem) ∧
    (16 ≤ n →
      GoesOn (.svLsl rd cnt) s k (out 0 false false) s.mem ∧ GoesOn (.svLsr rd cnt) s k (out 0 false false) s.mem ∧
      GoesOn (.svAsr rd cnt) s k (out (if x.msb then 0xFFFF else 0) x.msb false) s.mem ∧
      GoesOn (.svAsl rd cnt) s k (out 0 false (decide (x ≠ 0))) s.mem) ∧
    (n % 16 = 0 → GoesOn (.svRol rd cnt) s k (out x false false) s.mem ∧ GoesOn (.svRor rd cnt) s k (out x false false) s.mem) ∧
    (n % 16 ≠ 0 →
      GoesOn (.svRol rd cnt) s k (out (x.rotateLeft (n % 16)) (x.getLsbD (16 - n % 16)) false) s.mem ∧
      GoesOn (.svRor rd cnt) s k (out (x.rotateRight (n % 16)) (x.getLsbD (n % 16 - 1)) false) s.mem)

/-- Moves, loads, stores, ports, branches, calls, prefixes. First: The instructions that move data, in any state in which Linen executes them. Then: The instructions that change the flow, in any state in which Linen executes them. -/
def Obligations.MovesAndControlFlow : Prop :=
  (
    ∀ (s : State) (rd rs : Fin 16) (imm : BitVec 16) (ea : SvEa) (port : SvPort) (ac : Bool), Executing s →
      let d := s.dev
      let m := s.mem
      let l := d.linen
      let x := svReg d rd
      let y := svReg d rs
      let traps (i : Instr) (v : Nat) : Prop := exec i s = .next { s with dev := (syncEntry v l.pc d m).1, mem := (syncEntry v l.pc d m).2 }
      let a := (eaAddr d ea).toNat
      GoesOn .svNop s 1 d m ∧
      GoesOn (.svMov rd rs) s 1 (svSet rd y d) m ∧
      GoesOn (.svLdi rd imm) s 2 (svSet rd imm d) m ∧
      (eaOk ea = false → traps (.svLd rd ea) 0 ∧ traps (.svSt ea rs) 0) ∧
      (eaOk ea = true → dataRead d m a = none → traps (.svLd rd ea) 2) ∧
      (eaOk ea = true → dataWritable d a = false → traps (.svSt ea rs) 2) ∧
      (∀ v e, eaOk ea = true → dataRead d m a = some (v, e) → GoesOn (.svLd rd ea) s (eaWords ea) (svSet rd v (eaStep ea e)) m) ∧
      (eaOk ea = true → dataWritable d a = true → GoesOn (.svSt ea rs) s (eaWords ea) (eaStep ea d) { m with dram := memPut m.dram a y }) ∧
      (dataWritable d (l.sp - 1).toNat = true → GoesOn (.svPush rs) s 1 (svSet 8 (l.sp - 1) d)
        { m with dram := memPut m.dram (l.sp - 1).toNat y }) ∧
      (∀ v e, dataRead d m l.sp.toNat = some (v, e) → GoesOn (.svPop rd) s 1 (svSet rd v (svSet 8 (e.linen.sp + 1) e)) m) ∧
      (dataWritable d (l.sp - 1).toNat = false → traps (.svPush rs) 2) ∧
      (portOk port = false → traps (.svIn rd port) 0 ∧ traps (.svOut port rs) 0) ∧
      (∀ v e, portOk port = true → portRead (portNo d port) d = .done v e → GoesOn (.svIn rd port) s (portWords port) (svSet rd v e) m) ∧
      (∀ v e, portOk port = true → portWrite (portNo d port) y d = .done v e → GoesOn (.svOut port rs) s (portWords port) e m) ∧
      (portOk port = true → portOpen d (portNo d port) = false → traps (.svIn rd port) 3 ∧ traps (.svOut port rs) 3) ∧
      (8 ≤ rs.val → GoesOn (.svLdp rd rs) s 1 (svSet rd (instrRead m y.toNat) d) m) ∧
      (l.policyMode = true → traps (.svStp rd rs) 1) ∧
      (l.policyMode = false → 8 ≤ rd.val → x.toNat < 0x8000 → traps (.svStp rd rs) 2) ∧
      (l.policyMode = false → 8 ≤ rd.val → 0x8000 ≤ x.toNat → GoesOn (.svStp rd rs) s 1 d { m with iram := memPut m.iram x.toNat y }) ∧
      (∀ v e w f, 8 ≤ rd.val → 8 ≤ rs.val → dataRead d m y.toNat = some (v, e) → portWrite (x.toNat % 4096) v e = .done w f →
        GoesOn (.svOutm rd rs) s 1 (svSet rs (svReg f rs + 1) f) m) ∧
      (∀ v e, 8 ≤ rd.val → 8 ≤ rs.val → portRead (y.toNat % 4096) d = .done v e → dataWritable e (svReg e rd).toNat = true →
        GoesOn (.svInm rd rs) s 1 (svSet rd (svReg e rd + 1) e) { m with dram := memPut m.dram (svReg e rd).toNat v }) ∧
      (8 ≤ rd.val ∨ rd.val % 2 = 1 → traps (.svSdiv rd rs) 0 ∧ traps (.svUdiv rd rs) 0) ∧
      (rd.val < 8 → rd.val % 2 = 0 →
        (y = 0 → ∀ e, e = svSet (rd.val + 1) x (svSet rd 0xFFFF (modLinen (fun l => { l with sr := l.sr ||| 0x0010 }) (svFlags ⟨false, true, false, true⟩ d))) →
          GoesOn (.svSdiv rd rs) s 1 e m ∧ GoesOn (.svUdiv rd rs) s 1 e m) ∧
        (x = 0x8000 → y = 0xFFFF → GoesOn (.svSdiv rd rs) s 1 (svSet (rd.val + 1) 0 (svSet rd 0x8000 (svFlags ⟨false, true, false, true⟩ d))) m) ∧
        (y ≠ 0 → ∀ q r, q = x / y → r = x % y →
          GoesOn (.svUdiv rd rs) s 1 (svSet (rd.val + 1) r (svSet rd q (svFlags ⟨q == 0, q.msb, false, false⟩ d))) m) ∧
        (y ≠ 0 → x ≠ 0x8000 ∨ y ≠ 0xFFFF → ∀ q r, q = BitVec.ofInt 16 (x.toInt.tdiv y.toInt) → r = BitVec.ofInt 16 (x.toInt.tmod y.toInt) →
          GoesOn (.svSdiv rd rs) s 1 (svSet (rd.val + 1) r (svSet rd q (svFlags ⟨q == 0, q.msb, false, false⟩ d))) m)) ∧
      GoesOn (.svMovl rd ac) s 1 (svSet rd ((l.acc ac).setWidth 16) d) m ∧
      GoesOn (.svMovh rd ac) s 1 (svSet rd ((l.acc ac >>> 16).setWidth 16) d) m ∧
      GoesOn (.svMvtl ac rs) s 1 (svAcc ac (((l.acc ac >>> 16).setWidth 16) ++ y) d) m ∧
      GoesOn (.svMvth ac rs) s 1 (svAcc ac (y ++ ((l.acc ac).setWidth 16)) d) m ∧
      GoesOn (.svClra ac) s 1 (svAcc ac 0 d) m ∧
      GoesOn (.svMfsr rd) s 1 (svSet rd l.sr d) m ∧
      (l.policyMode = false → GoesOn (.svMtsr rs) s 1 (modLinen (fun l => { l with sr := y &&& 0xB11F }) d) m) ∧
      (l.policyMode = true → GoesOn (.svMtsr rs) s 1 (modLinen (fun l => { l with sr := (l.sr &&& 0xFFE0) ||| (y &&& 0x001F) }) d) m) ∧
      GoesOn .svClrdz s 1 (modLinen (fun l => { l with sr := l.sr &&& 0xFFEF }) d) m
  ) ∧ (
    ∀ (s : State) (rs cc t : Fin 16) (disp : BitVec 8) (tgt : SvTarget) (k : Fin 64),
      let d := s.dev
      let m := s.mem
      let l := d.linen
      let traps (i : Instr) (v : Nat) (pc : Word16) : Prop := exec i s = .next { s with dev := (syncEntry v pc d m).1, mem := (syncEntry v pc d m).2 }
      (Executing s →
        (condition cc l.sr = true → GoesTo (.svBcc cc disp) s (l.pc + 1 + disp.signExtend 16) d m) ∧
        (condition cc l.sr = false → GoesOn (.svBcc cc disp) s 1 d m) ∧
        (targetOk tgt = true → GoesTo (.svJmp tgt) s (targetAddr d tgt) d m) ∧
        (targetOk tgt = false → traps (.svJmp tgt) 0 l.pc ∧ traps (.svCall tgt) 0 l.pc) ∧
        (targetOk tgt = true → dataWritable d (l.sp - 1).toNat = true → GoesTo (.svCall tgt) s (targetAddr d tgt)
          (svSet 8 (l.sp - 1) d) { m with dram := memPut m.dram (l.sp - 1).toNat (l.pc + BitVec.ofNat 16 (targetWords tgt)) }) ∧
        (∀ v e, dataRead d m l.sp.toNat = some (v, e) → GoesTo .svRet s v (svSet 8 (e.linen.sp + 1) e) m) ∧
        (l.policyMode = true → traps .svReti 1 l.pc ∧ traps .svEi 1 l.pc ∧ traps .svDi 1 l.pc ∧ traps .svWait 1 l.pc) ∧
        (l.policyMode = false → GoesOn .svEi s 1 (modLinen (fun l => { l with sr := l.sr ||| 0x3000 }) d) m ∧
          GoesOn .svDi s 1 (modLinen (fun l => { l with sr := l.sr &&& 0xCFFF }) d) m ∧
          GoesOn .svWait s 1 (modLinen (fun l => { l with waiting := true }) d) m) ∧
        (l.policyMode = false → l.ksp.toNat + 2 < 0x6000 → GoesTo .svReti s (memGet m.dram l.ksp.toNat)
          (modLinen (fun x => { x with
            ksp := l.ksp + 3
            sr := memGet m.dram (l.ksp.toNat + 1) &&& 0xB11F
            repc := memGet m.dram (l.ksp.toNat + 2)
            resume := (memGet m.dram (l.ksp.toNat + 1)).getLsbD 8
            nest := l.nest.drop 1 }) d) m) ∧
        (l.resume = true → GoesTo (.svRepi rs) s (l.pc + 1) (modLinen (fun x => { x with
          sr := l.sr &&& 0xFEFF, resume := false, rep := some (l.pc.toNat, false, l.repc.toNat) }) d) m) ∧
        (l.resume = false → GoesTo (.svRepi rs) s (l.pc + 1) (modLinen (fun x => { x with
          resume := false, rep := some (l.pc.toNat, false, (svReg d rs).toNat) }) d) m) ∧
        GoesTo (.svRepn k) s (l.pc + 1) (modLinen (fun x => { x with rep := some (l.pc.toNat, true, k.val + 1) }) d) m ∧
        (l.policyMode = false ∨ l.hook = none → GivesBoth (.svSys t) s
          (takeException (48 + t.val) 0 3 (l.pc + 1) l.sr l.repc d m)) ∧
        (l.policyMode = true → l.hook.isSome = true → ∀ e, e = takeException (48 + t.val) 0 3 (l.pc + 1) l.sr l.repc d m →
          (t.val = 0 → GivesBoth (.svSys t) s (hookEnd (tget 0 l.v 0 == 0) l.ksp e.1 e.2)) ∧
          (t.val ≠ 0 → GivesBoth (.svSys t) s
            (hookEnd false l.ksp (modLinen (fun x => { x with hookFaults := x.hookFaults + 1 }) e.1) e.2)))) ∧
      (linenRuns d = true → (l.policyMode = true → 0xE000 ≤ l.pc.toNat) → ∀ p isN left, l.rep = some (p, isN, left) →
        (left = 0 → exec .svNop s = .next { s with dev := modLinen (fun x => { x with pc := l.pc + 1, rep := none }) d }) ∧
        (left = 1 → exec .svNop s = .next { s with dev := modLinen (fun x => { x with pc := l.pc + 1, rep := none }) d }) ∧
        (1 < left → exec .svNop s = .next { s with dev := modLinen (fun x => { x with rep := some (p, isN, left - 1) }) d }) ∧
        ∀ r, r = syncEntry 0 (BitVec.ofNat 16 p) (modLinen (fun x => { x with rep := none }) d) m →
          exec (.svBcc cc disp) s = .next { s with dev := r.1, mem := r.2 } ∧
          (isN = true → ∀ rd port, exec (.svIn rd port) s = .next { s with dev := r.1, mem := r.2 })) ∧
      (l.halted = true → exec .svNop s = .next s)
  )

/-- Reads after a write of Linen's data space. -/
def Obligations.DataReadsWhatWasWritten : Prop :=
  ∀ (d : Dev) (m : Memory) (a : Nat) (v : Word16), m.wf = true →
    (dataWritable d a = false → dataWrite d m a v = none) ∧
    (dataWritable d a = true → ∃ n, dataWrite d m a v = some n ∧ n.hbm = m.hbm ∧ n.scr = m.scr ∧ n.iram = m.iram ∧
      dataRead d n a = some (v, d) ∧ ∀ k, k ≠ a → dataRead d n k = dataRead d m k) ∧
    (d.linen.policyMode = true → (a < 0x6000 ∨ 0x8000 ≤ a) → dataRead d m a = none ∧ dataWrite d m a v = none)
end

