-- ==== Sys2Proof/Laws/Maps.lean ====
section
/-!
SUPPORT. Reading after writing: sparse maps and memories; and that every memory operation of Ops keeps the
canonical form.
-/
namespace Sys2Proof.Machine

/-- A map read at the key just written. -/
@[simp] theorem tget_tset_same {α : Type} (d : α) (m : TMap α) (k : Nat) (v : α) : tget d (tset m k v) k = v := by
  induction m with
  | nil => simp [tset, tget]
  | cons e m ih =>
    obtain ⟨j, u⟩ := e
    simp only [tset]
    split
    · simp [tget]
    · split
      · simp [tget]
      · rename_i h1 h2
        simp [tget, h1, h2, ih]

/-- A map read at another key. -/
theorem tget_tset_other {α : Type} (d : α) (m : TMap α) (k j : Nat) (v : α) (h : j ≠ k) :
    tget d (tset m k v) j = tget d m j := by
  induction m with
  | nil => simp [tset, tget, h]
  | cons e m ih =>
    obtain ⟨i, u⟩ := e
    simp only [tset]
    split
    · subst_vars
      simp [tget, h]
    · split
      · rename_i h1 h2
        simp only [tget, h, if_false]
        split
        · have : j ≠ i := by omega
          have : j < i := by omega
          simp [*]
        · rfl
      · simp only [tget, ih]

/-- The slice just set. -/
@[simp] theorem slice_setSlice_same (d : Dev) (s : Nat) (x : Slice) : (d.setSlice s x).slice s = x := by
  simp [Dev.setSlice, Dev.slice]

/-- Another slice. -/
theorem slice_setSlice_other (d : Dev) (s r : Nat) (x : Slice) (h : r ≠ s) : (d.setSlice s x).slice r = d.slice r := by
  simp [Dev.setSlice, Dev.slice, tget_tset_other _ _ _ _ _ h]

@[simp] theorem slice_modSlice_same (d : Dev) (s : Nat) (f : Slice → Slice) : (d.modSlice s f).slice s = f (d.slice s) := by
  simp [Dev.modSlice]

theorem slice_modSlice_other (d : Dev) (s r : Nat) (f : Slice → Slice) (h : r ≠ s) :
    (d.modSlice s f).slice r = d.slice r := by
  simp [Dev.modSlice, slice_setSlice_other _ _ _ _ h]

/-! Memories. -/

/-- What a memory in canonical form says of its tail. -/
theorem memWf_tail {n : Nat} {a : Nat} {v : BitVec n} {m : List (Nat × BitVec n)} (h : memWf ((a, v) :: m) = true) :
    memWf m = true := by
  cases m with
  | nil => rfl
  | cons e m =>
    obtain ⟨b, w⟩ := e
    simp only [memWf, Bool.and_eq_true] at h
    exact h.2

/-- Below the first listed address, everything reads as zero. -/
theorem memGet_below {n : Nat} {a b : Nat} {v : BitVec n} {m : List (Nat × BitVec n)} (h : memWf ((a, v) :: m) = true)
    (hb : b ≤ a) : memGet m b = 0 := by
  cases m with
  | nil => rfl
  | cons e m =>
    obtain ⟨c, w⟩ := e
    simp only [memWf, Bool.and_eq_true, decide_eq_true_eq] at h
    have : b ≠ c := by omega
    have : b < c := by omega
    simp [memGet, *]

/-- A memory read at the address just written. -/
theorem memGet_memPut_same {n : Nat} (m : List (Nat × BitVec n)) (a : Nat) (v : BitVec n) (h : memWf m = true) :
    memGet (memPut m a v) a = v := by
  induction m with
  | nil =>
    simp only [memPut]
    split <;> simp_all [memGet]
  | cons e m ih =>
    obtain ⟨b, w⟩ := e
    simp only [memPut]
    split
    · subst_vars
      split
      · subst_vars
        exact memGet_below h (Nat.le_refl _)
      · simp [memGet]
    · split
      · rename_i h1 h2
        split
        · subst_vars
          simp [memGet, h1, h2]
        · simp [memGet]
      · rename_i h1 h2
        simp [memGet, h1, h2, ih (memWf_tail h)]

/-- A memory read at another address. -/
theorem memGet_memPut_other {n : Nat} (m : List (Nat × BitVec n)) (a b : Nat) (v : BitVec n) (h : memWf m = true)
    (hb : b ≠ a) : memGet (memPut m a v) b = memGet m b := by
  induction m with
  | nil =>
    simp only [memPut]
    split <;> simp [memGet, hb]
  | cons e m ih =>
    obtain ⟨c, w⟩ := e
    simp only [memPut]
    split
    · subst_vars
      split
      · simp only [memGet, hb, if_false]
        split
        · exact memGet_below h (by omega)
        · rfl
      · simp [memGet, hb]
    · split
      · rename_i h1 h2
        split
        · rfl
        · simp only [memGet, hb, if_false]
          split
          · have : b ≠ c := by omega
            have : b < c := by omega
            simp [*]
          · rfl
      · simp only [memGet, ih (memWf_tail h)]

/-- A memory whose addresses all lie above `a`. -/
def memAbove {n : Nat} (a : Nat) (m : List (Nat × BitVec n)) : Prop := ∀ e ∈ m, a < e.1

/-- The canonical form, taken apart. -/
theorem memWf_cons {n : Nat} {a : Nat} {v : BitVec n} {m : List (Nat × BitVec n)} :
    memWf ((a, v) :: m) = true ↔ v ≠ 0 ∧ memAbove a m ∧ memWf m = true := by
  induction m generalizing a v with
  | nil => simp [memWf, memAbove]
  | cons e m ih =>
    obtain ⟨b, w⟩ := e
    simp only [memWf, Bool.and_eq_true, bne_iff_ne, ne_eq, decide_eq_true_eq]
    constructor
    · rintro ⟨⟨h1, h2⟩, h3⟩
      refine ⟨h1, ?_, h3⟩
      intro e he
      rcases List.mem_cons.mp he with rfl | he
      · exact h2
      · exact Nat.lt_trans h2 ((ih.mp h3).2.1 e he)
    · rintro ⟨h1, h2, h3⟩
      exact ⟨⟨h1, h2 (b, w) (List.mem_cons_self ..)⟩, h3⟩

/-- What a write lists was listed, or is the address written. -/
theorem memPut_mem {n : Nat} {m : List (Nat × BitVec n)} {a : Nat} {v : BitVec n} {e : Nat × BitVec n}
    (h : e ∈ memPut m a v) : e.1 = a ∨ e ∈ m := by
  induction m with
  | nil =>
    simp only [memPut] at h
    split at h <;> simp_all
  | cons c m ih =>
    obtain ⟨b, w⟩ := c
    simp only [memPut] at h
    split at h
    · split at h
      · exact .inr (List.mem_cons_of_mem _ h)
      · rcases List.mem_cons.mp h with rfl | h
        · exact .inl rfl
        · exact .inr (List.mem_cons_of_mem _ h)
    · split at h
      · split at h
        · exact .inr h
        · rcases List.mem_cons.mp h with rfl | h
          · exact .inl rfl
          · exact .inr h
      · rcases List.mem_cons.mp h with rfl | h
        · exact .inr (List.mem_cons_self ..)
        · rcases ih h with h | h
          · exact .inl h
          · exact .inr (List.mem_cons_of_mem _ h)

/-- A write keeps the canonical form. -/
theorem memPut_wf {n : Nat} (m : List (Nat × BitVec n)) (a : Nat) (v : BitVec n) (h : memWf m = true) :
    memWf (memPut m a v) = true := by
  induction m with
  | nil =>
    simp only [memPut]
    split <;> simp_all [memWf]
  | cons e m ih =>
    obtain ⟨b, w⟩ := e
    have ⟨h1, h2, h3⟩ := memWf_cons.mp h
    simp only [memPut]
    split
    · subst_vars
      split
      · exact h3
      · exact memWf_cons.mpr ⟨by assumption, h2, h3⟩
    · split
      · rename_i h4 h5
        split
        · exact h
        · refine memWf_cons.mpr ⟨by assumption, ?_, h⟩
          intro e he
          rcases List.mem_cons.mp he with rfl | he
          · exact h5
          · exact Nat.lt_trans h5 (h2 e he)
      · rename_i h4 h5
        refine memWf_cons.mpr ⟨h1, ?_, ih h3⟩
        intro e he
        rcases memPut_mem he with he | he
        · omega
        · exact h2 e he

/-- So does taking entries out. -/
theorem memFilter_wf {n : Nat} (m : List (Nat × BitVec n)) (p : Nat × BitVec n → Bool) (h : memWf m = true) :
    memWf (m.filter p) = true := by
  induction m with
  | nil => rfl
  | cons e m ih =>
    obtain ⟨b, w⟩ := e
    have ⟨h1, h2, h3⟩ := memWf_cons.mp h
    simp only [List.filter_cons]
    split
    · exact memWf_cons.mpr ⟨h1, fun e he => h2 e (List.mem_filter.mp he).1, ih h3⟩
    · exact ih h3

theorem memClear_wf {n : Nat} (m : List (Nat × BitVec n)) (a k : Nat) (h : memWf m = true) :
    memWf (memClear m a k) = true := memFilter_wf m _ h

theorem memWrite_wf (m : List Host.Cell) (a : Nat) (b : Bytes) (h : memWf m = true) :
    memWf (memWrite m a b) = true := by
  induction b generalizing m a with
  | nil => exact h
  | cons x xs ih => exact ih _ _ (memPut_wf m a x h)

/-- The memories written in one of their four parts stay canonical. -/
theorem Memory.wf_iff (m : Memory) :
    m.wf = true ↔ memWf m.hbm = true ∧ memWf m.scr = true ∧ memWf m.dram = true ∧ memWf m.iram = true := by
  simp [Memory.wf, and_assoc]

end Sys2Proof.Machine
end

