-- ==== Sys2Proof/Laws/Keep.lean ====
section
/-!
SUPPORT. What each operation that writes a memory does to it: it keeps the canonical form. One lemma per operation,
cited by the proofs that every step keeps it.
-/
namespace Sys2Proof.Machine

/-- Word memory written by its parts. -/
theorem Memory.wf_mk {h s : List Host.Cell} {r i : List (Nat × Word16)} (h1 : memWf h = true) (h2 : memWf s = true)
    (h3 : memWf r = true) (h4 : memWf i = true) : Memory.wf ⟨h, s, r, i⟩ = true :=
  (Memory.wf_iff _).mpr ⟨h1, h2, h3, h4⟩

theorem Memory.zero_wf : Memory.zero.wf = true := rfl

/-- The four parts of a memory in canonical form. -/
theorem Memory.wf_hbm {m : Memory} (h : m.wf = true) : memWf m.hbm = true := ((Memory.wf_iff m).mp h).1
theorem Memory.wf_scr {m : Memory} (h : m.wf = true) : memWf m.scr = true := ((Memory.wf_iff m).mp h).2.1
theorem Memory.wf_dram {m : Memory} (h : m.wf = true) : memWf m.dram = true := ((Memory.wf_iff m).mp h).2.2.1
theorem Memory.wf_iram {m : Memory} (h : m.wf = true) : memWf m.iram = true := ((Memory.wf_iff m).mp h).2.2.2

/-- One part replaced by another in canonical form. -/
theorem Memory.wf_setHbm {m : Memory} {x : List Host.Cell} (h : m.wf = true) (hx : memWf x = true) :
    ({ m with hbm := x } : Memory).wf = true := Memory.wf_mk hx (Memory.wf_scr h) (Memory.wf_dram h) (Memory.wf_iram h)
theorem Memory.wf_setScr {m : Memory} {x : List Host.Cell} (h : m.wf = true) (hx : memWf x = true) :
    ({ m with scr := x } : Memory).wf = true := Memory.wf_mk (Memory.wf_hbm h) hx (Memory.wf_dram h) (Memory.wf_iram h)
theorem Memory.wf_setDram {m : Memory} {x : List (Nat × Word16)} (h : m.wf = true) (hx : memWf x = true) :
    ({ m with dram := x } : Memory).wf = true := Memory.wf_mk (Memory.wf_hbm h) (Memory.wf_scr h) hx (Memory.wf_iram h)
theorem Memory.wf_setIram {m : Memory} {x : List (Nat × Word16)} (h : m.wf = true) (hx : memWf x = true) :
    ({ m with iram := x } : Memory).wf = true := Memory.wf_mk (Memory.wf_hbm h) (Memory.wf_scr h) (Memory.wf_dram h) hx

/-! Words of Linen's memories. -/

theorem foldPut_wf (l : List Nat) (g : Nat → Nat) (f : Nat → Word16) (m : List (Nat × Word16)) (h : memWf m = true) :
    memWf (l.foldl (fun m i => memPut m (g i) (f i)) m) = true := by
  induction l generalizing m with
  | nil => exact h
  | cons a l ih => exact ih _ (memPut_wf m _ _ h)

theorem putWords_wf (m : List (Nat × Word16)) (a : Nat) (b : Bytes) (h : memWf m = true) :
    memWf (putWords m a b) = true := foldPut_wf _ _ _ _ h

theorem dataWrite_wf {d : Dev} {m n : Memory} {a : Nat} {v : Word16} (h : m.wf = true)
    (e : dataWrite d m a v = some n) : n.wf = true := by
  simp only [dataWrite] at e
  split at e
  · obtain rfl := Option.some.inj e
    exact Memory.wf_setDram h (memPut_wf _ _ _ (Memory.wf_dram h))
  · exact absurd e (by simp)

theorem pushSp_wf {v : Word16} {d d' : Dev} {m m' : Memory} (h : m.wf = true)
    (e : pushSp v d m = some (d', m')) : m'.wf = true := by
  simp only [pushSp] at e
  split at e
  · rename_i n hn
    obtain ⟨-, rfl⟩ := Prod.mk.inj (Option.some.inj e)
    exact dataWrite_wf h hn
  · exact absurd e (by simp)

theorem pushKsp_wf (v : Word16) (x : Bool × Dev × Memory) (h : x.2.2.wf = true) : (pushKsp v x).2.2.wf = true := by
  obtain ⟨ok, d, m⟩ := x
  simp only [pushKsp]
  split
  · exact h
  · exact Memory.wf_setDram h (memPut_wf _ _ _ (Memory.wf_dram h))

theorem takeException_wf (v k p : Nat) (pc sr repc : Word16) (d : Dev) (m : Memory) (h : m.wf = true) :
    (takeException v k p pc sr repc d m).2.wf = true := by
  have w := pushKsp_wf pc _ (pushKsp_wf sr _ (pushKsp_wf repc (true, d, m) h))
  simp only [takeException]
  split
  · exact w
  · exact w

theorem startHook_wf (c : Cmd) (d : Dev) (m : Memory) (h : m.wf = true) : (startHook c d m).2.wf = true :=
  Memory.wf_setDram h (putWords_wf _ _ _ (Memory.wf_dram h))

theorem hookNext_wf (d : Dev) (m : Memory) (h : m.wf = true) : (hookNext d m).2.wf = true := by
  simp only [hookNext]
  repeat' split
  all_goals first | exact h | exact startHook_wf _ _ _ h

theorem hookEnd_wf (b : Bool) (k : Word16) (d : Dev) (m : Memory) (h : m.wf = true) : (hookEnd b k d m).2.wf = true := by
  simp only [hookEnd]
  split
  · exact hookNext_wf _ _ h
  · exact h

theorem hookFault_wf (k : Word16) (d : Dev) (m : Memory) (h : m.wf = true) : (hookFault k d m).2.wf = true :=
  hookEnd_wf _ _ _ _ h

theorem syncEntry_wf (v : Nat) (pc : Word16) (d : Dev) (m : Memory) (h : m.wf = true) :
    (syncEntry v pc d m).2.wf = true := by
  have w := takeException_wf v 0 3 (savedAt d.linen pc).1 (savedAt d.linen pc).2.1 (savedAt d.linen pc).2.2 d m h
  simp only [syncEntry]
  split
  · exact w
  · split
    · exact hookEnd_wf _ _ _ _ w
    · exact hookFault_wf _ _ _ w

theorem interruptEntry_wf (v : Nat) (d : Dev) (m : Memory) (h : m.wf = true) :
    (interruptEntry v d m).2.wf = true := by
  simp only [interruptEntry]
  repeat' split
  all_goals first | exact h | exact takeException_wf _ _ _ _ _ _ _ _ h

/-- What an instruction of Linen leaves of the memories, when it keeps the canonical form. -/
def SvEnd.keeps : SvEnd → Prop
  | .done _ m _ => m.wf = true
  | _ => True

/-- The frame of an instruction keeps the canonical form when the instruction does. -/
theorem svStep_keeps {n : Nat} {k : Bool} {rk : Repeat} {f : Dev → Memory → SvEnd} {s t : State}
    (hf : (f s.dev s.mem).keeps) (h : s.mem.wf = true) (e : svStep n k rk f s = .next t) : t.mem.wf = true := by
  simp only [svStep, onBoth] at e
  obtain rfl := Host.Outcome.next.inj e
  dsimp only
  repeat' split
  all_goals first
    | exact h
    | exact syncEntry_wf _ _ _ _ h
    | (rename_i hx; rw [hx] at hf; exact hf)

/-! Scratch, on-package memory, outputs. -/

theorem scrPut_wf (m : Memory) (a : Nat) (x : Byte) (h : m.wf = true) : (scrPut m a x).wf = true :=
  Memory.wf_setScr h (memPut_wf _ _ _ (Memory.wf_scr h))

theorem localWrite_wf (m : Memory) (space a : Nat) (b : Bytes) (h : m.wf = true) :
    (localWrite m space a b).wf = true := by
  induction b generalizing m a with
  | nil => exact h
  | cons x xs ih =>
    refine ih _ _ ?_
    split
    · exact Memory.wf_setHbm h (memPut_wf _ _ _ (Memory.wf_hbm h))
    · exact scrPut_wf _ _ _ h

theorem putAt_wf (space a : Nat) (x : Bytes) (r : Dev × Memory) (h : r.2.wf = true) : (putAt space a x r).2.wf = true := by
  simp only [putAt]
  split
  · exact h
  · split
    · exact h
    · exact localWrite_wf _ _ _ _ h

theorem chanStage_wf (c : Nat) (other : Bool) (x : Bytes) (r : Dev × Memory) (h : r.2.wf = true) :
    (chanStage c other x r).2.wf = true := by
  obtain ⟨d, m⟩ := r
  simp only [chanStage]
  split
  · exact h
  · repeat' split
    all_goals first | exact h | exact putAt_wf _ _ _ _ h

theorem chanFinish_wf (c : Nat) (x : Bytes) (a : Nat) (wr : WriteResult) (n : Nat) (next : Option DmaRead)
    (r : Dev × Memory) (h : r.2.wf = true) : (chanFinish c x a wr n next r).2.wf = true := by
  simp only [chanFinish]
  split <;> exact putAt_wf _ _ _ _ h

theorem writeOut_wf (c : Cmd) (e : Nat × Bytes) (r : Dev × Memory) (h : r.2.wf = true) :
    (writeOut c e r).2.wf = true := by
  simp only [writeOut]
  split
  · exact h
  · split
    · exact h
    · exact Memory.wf_setHbm h (memWrite_wf _ _ _ (Memory.wf_hbm h))

theorem writeOuts_wf (c : Cmd) (l : List (Nat × Bytes)) (r : Dev × Memory) (h : r.2.wf = true) :
    (writeOuts c l r).2.wf = true := by
  induction l generalizing r with
  | nil => exact h
  | cons e l ih => exact ih _ (writeOut_wf c e r h)

theorem bar2Write_wf (d : Dev) (m : Memory) (a : Nat) (b : Bytes) (h : m.wf = true) : (bar2Write d m a b).wf = true := by
  induction b generalizing m a with
  | nil => exact h
  | cons x xs ih =>
    refine ih _ _ ?_
    split
    · exact Memory.wf_setHbm h (memPut_wf _ _ _ (Memory.wf_hbm h))
    · exact h

theorem alarmMem_wf (n : Nat) (m : Memory) (h : m.wf = true) : (alarmMem n m).wf = true := by
  simp only [alarmMem]
  split
  · exact Memory.wf_setScr h rfl
  · exact h

theorem takeEntry_wf (again : Bool) (s q : Nat) (g0 : RingRead) (conts : List RingRead) (aux : List (Nat × Bytes))
    (d : Dev) (m : Memory) (h : m.wf = true) : (takeEntry again s q g0 conts aux d m).2.wf = true := by
  simp only [takeEntry]
  split
  · exact h
  · exact h
  · split <;> exact h
  · exact h
  · exact hookNext_wf _ _ h

end Sys2Proof.Machine
end

