-- ==== Sys2Proof/Laws/State.lean ====
section
/-!
SUPPORT. The fields of the device that each named update leaves, and those it sets: every lemma is true by
computation, so that no proof unfolds a record update.
-/
namespace Sys2Proof.Machine

@[simp] theorem setSlice_clk (s : Nat) (x : Slice) (d : Dev) : (d.setSlice s x).clk = d.clk := rfl
@[simp] theorem setSlice_devTime (s : Nat) (x : Slice) (d : Dev) : (d.setSlice s x).devTime = d.devTime := rfl
@[simp] theorem setSlice_free (s : Nat) (x : Slice) (d : Dev) : (d.setSlice s x).free = d.free := rfl
@[simp] theorem setSlice_link (s : Nat) (x : Slice) (d : Dev) : (d.setSlice s x).link = d.link := rfl
@[simp] theorem setSlice_otp (s : Nat) (x : Slice) (d : Dev) : (d.setSlice s x).otp = d.otp := rfl
@[simp] theorem setSlice_cmds (s : Nat) (x : Slice) (d : Dev) : (d.setSlice s x).cmds = d.cmds := rfl
@[simp] theorem setSlice_nextId (s : Nat) (x : Slice) (d : Dev) : (d.setSlice s x).nextId = d.nextId := rfl
@[simp] theorem setSlice_sched (s : Nat) (x : Slice) (d : Dev) : (d.setSlice s x).sched = d.sched := rfl
@[simp] theorem setSlice_led (s : Nat) (x : Slice) (d : Dev) : (d.setSlice s x).led = d.led := rfl
@[simp] theorem setSlice_cust (s : Nat) (x : Slice) (d : Dev) : (d.setSlice s x).cust = d.cust := rfl
@[simp] theorem setSlice_prot (s : Nat) (x : Slice) (d : Dev) : (d.setSlice s x).prot = d.prot := rfl
@[simp] theorem setSlice_board (s : Nat) (x : Slice) (d : Dev) : (d.setSlice s x).board = d.board := rfl
@[simp] theorem setSlice_dma (s : Nat) (x : Slice) (d : Dev) : (d.setSlice s x).dma = d.dma := rfl
@[simp] theorem setSlice_micro (s : Nat) (x : Slice) (d : Dev) : (d.setSlice s x).micro = d.micro := rfl
@[simp] theorem setSlice_linen (s : Nat) (x : Slice) (d : Dev) : (d.setSlice s x).linen = d.linen := rfl
@[simp] theorem setSlice_out (s : Nat) (x : Slice) (d : Dev) : (d.setSlice s x).out = d.out := rfl
@[simp] theorem setSlice_held (s : Nat) (x : Slice) (d : Dev) : (d.setSlice s x).held = d.held := rfl

@[simp] theorem modSlice_clk (s : Nat) (f : Slice → Slice) (d : Dev) : (d.modSlice s f).clk = d.clk := rfl
@[simp] theorem modSlice_devTime (s : Nat) (f : Slice → Slice) (d : Dev) : (d.modSlice s f).devTime = d.devTime := rfl
@[simp] theorem modSlice_free (s : Nat) (f : Slice → Slice) (d : Dev) : (d.modSlice s f).free = d.free := rfl
@[simp] theorem modSlice_link (s : Nat) (f : Slice → Slice) (d : Dev) : (d.modSlice s f).link = d.link := rfl
@[simp] theorem modSlice_otp (s : Nat) (f : Slice → Slice) (d : Dev) : (d.modSlice s f).otp = d.otp := rfl
@[simp] theorem modSlice_cmds (s : Nat) (f : Slice → Slice) (d : Dev) : (d.modSlice s f).cmds = d.cmds := rfl
@[simp] theorem modSlice_nextId (s : Nat) (f : Slice → Slice) (d : Dev) : (d.modSlice s f).nextId = d.nextId := rfl
@[simp] theorem modSlice_sched (s : Nat) (f : Slice → Slice) (d : Dev) : (d.modSlice s f).sched = d.sched := rfl
@[simp] theorem modSlice_led (s : Nat) (f : Slice → Slice) (d : Dev) : (d.modSlice s f).led = d.led := rfl
@[simp] theorem modSlice_cust (s : Nat) (f : Slice → Slice) (d : Dev) : (d.modSlice s f).cust = d.cust := rfl
@[simp] theorem modSlice_prot (s : Nat) (f : Slice → Slice) (d : Dev) : (d.modSlice s f).prot = d.prot := rfl
@[simp] theorem modSlice_board (s : Nat) (f : Slice → Slice) (d : Dev) : (d.modSlice s f).board = d.board := rfl
@[simp] theorem modSlice_dma (s : Nat) (f : Slice → Slice) (d : Dev) : (d.modSlice s f).dma = d.dma := rfl
@[simp] theorem modSlice_micro (s : Nat) (f : Slice → Slice) (d : Dev) : (d.modSlice s f).micro = d.micro := rfl
@[simp] theorem modSlice_linen (s : Nat) (f : Slice → Slice) (d : Dev) : (d.modSlice s f).linen = d.linen := rfl
@[simp] theorem modSlice_out (s : Nat) (f : Slice → Slice) (d : Dev) : (d.modSlice s f).out = d.out := rfl
@[simp] theorem modSlice_held (s : Nat) (f : Slice → Slice) (d : Dev) : (d.modSlice s f).held = d.held := rfl

@[simp] theorem modSq_clk (s q : Nat) (f : Sq → Sq) (d : Dev) : (d.modSq s q f).clk = d.clk := rfl
@[simp] theorem modSq_devTime (s q : Nat) (f : Sq → Sq) (d : Dev) : (d.modSq s q f).devTime = d.devTime := rfl
@[simp] theorem modSq_free (s q : Nat) (f : Sq → Sq) (d : Dev) : (d.modSq s q f).free = d.free := rfl
@[simp] theorem modSq_link (s q : Nat) (f : Sq → Sq) (d : Dev) : (d.modSq s q f).link = d.link := rfl
@[simp] theorem modSq_otp (s q : Nat) (f : Sq → Sq) (d : Dev) : (d.modSq s q f).otp = d.otp := rfl
@[simp] theorem modSq_cmds (s q : Nat) (f : Sq → Sq) (d : Dev) : (d.modSq s q f).cmds = d.cmds := rfl
@[simp] theorem modSq_nextId (s q : Nat) (f : Sq → Sq) (d : Dev) : (d.modSq s q f).nextId = d.nextId := rfl
@[simp] theorem modSq_sched (s q : Nat) (f : Sq → Sq) (d : Dev) : (d.modSq s q f).sched = d.sched := rfl
@[simp] theorem modSq_led (s q : Nat) (f : Sq → Sq) (d : Dev) : (d.modSq s q f).led = d.led := rfl
@[simp] theorem modSq_cust (s q : Nat) (f : Sq → Sq) (d : Dev) : (d.modSq s q f).cust = d.cust := rfl
@[simp] theorem modSq_prot (s q : Nat) (f : Sq → Sq) (d : Dev) : (d.modSq s q f).prot = d.prot := rfl
@[simp] theorem modSq_board (s q : Nat) (f : Sq → Sq) (d : Dev) : (d.modSq s q f).board = d.board := rfl
@[simp] theorem modSq_dma (s q : Nat) (f : Sq → Sq) (d : Dev) : (d.modSq s q f).dma = d.dma := rfl
@[simp] theorem modSq_micro (s q : Nat) (f : Sq → Sq) (d : Dev) : (d.modSq s q f).micro = d.micro := rfl
@[simp] theorem modSq_linen (s q : Nat) (f : Sq → Sq) (d : Dev) : (d.modSq s q f).linen = d.linen := rfl
@[simp] theorem modSq_out (s q : Nat) (f : Sq → Sq) (d : Dev) : (d.modSq s q f).out = d.out := rfl
@[simp] theorem modSq_held (s q : Nat) (f : Sq → Sq) (d : Dev) : (d.modSq s q f).held = d.held := rfl

@[simp] theorem modCq_clk (s q : Nat) (f : Cq → Cq) (d : Dev) : (d.modCq s q f).clk = d.clk := rfl
@[simp] theorem modCq_devTime (s q : Nat) (f : Cq → Cq) (d : Dev) : (d.modCq s q f).devTime = d.devTime := rfl
@[simp] theorem modCq_free (s q : Nat) (f : Cq → Cq) (d : Dev) : (d.modCq s q f).free = d.free := rfl
@[simp] theorem modCq_link (s q : Nat) (f : Cq → Cq) (d : Dev) : (d.modCq s q f).link = d.link := rfl
@[simp] theorem modCq_otp (s q : Nat) (f : Cq → Cq) (d : Dev) : (d.modCq s q f).otp = d.otp := rfl
@[simp] theorem modCq_cmds (s q : Nat) (f : Cq → Cq) (d : Dev) : (d.modCq s q f).cmds = d.cmds := rfl
@[simp] theorem modCq_nextId (s q : Nat) (f : Cq → Cq) (d : Dev) : (d.modCq s q f).nextId = d.nextId := rfl
@[simp] theorem modCq_sched (s q : Nat) (f : Cq → Cq) (d : Dev) : (d.modCq s q f).sched = d.sched := rfl
@[simp] theorem modCq_led (s q : Nat) (f : Cq → Cq) (d : Dev) : (d.modCq s q f).led = d.led := rfl
@[simp] theorem modCq_cust (s q : Nat) (f : Cq → Cq) (d : Dev) : (d.modCq s q f).cust = d.cust := rfl
@[simp] theorem modCq_prot (s q : Nat) (f : Cq → Cq) (d : Dev) : (d.modCq s q f).prot = d.prot := rfl
@[simp] theorem modCq_board (s q : Nat) (f : Cq → Cq) (d : Dev) : (d.modCq s q f).board = d.board := rfl
@[simp] theorem modCq_dma (s q : Nat) (f : Cq → Cq) (d : Dev) : (d.modCq s q f).dma = d.dma := rfl
@[simp] theorem modCq_micro (s q : Nat) (f : Cq → Cq) (d : Dev) : (d.modCq s q f).micro = d.micro := rfl
@[simp] theorem modCq_linen (s q : Nat) (f : Cq → Cq) (d : Dev) : (d.modCq s q f).linen = d.linen := rfl
@[simp] theorem modCq_out (s q : Nat) (f : Cq → Cq) (d : Dev) : (d.modCq s q f).out = d.out := rfl
@[simp] theorem modCq_held (s q : Nat) (f : Cq → Cq) (d : Dev) : (d.modCq s q f).held = d.held := rfl

@[simp] theorem modCust_clk (s : Nat) (f : Custody → Custody) (d : Dev) : (d.modCust s f).clk = d.clk := rfl
@[simp] theorem modCust_devTime (s : Nat) (f : Custody → Custody) (d : Dev) : (d.modCust s f).devTime = d.devTime := rfl
@[simp] theorem modCust_free (s : Nat) (f : Custody → Custody) (d : Dev) : (d.modCust s f).free = d.free := rfl
@[simp] theorem modCust_link (s : Nat) (f : Custody → Custody) (d : Dev) : (d.modCust s f).link = d.link := rfl
@[simp] theorem modCust_otp (s : Nat) (f : Custody → Custody) (d : Dev) : (d.modCust s f).otp = d.otp := rfl
@[simp] theorem modCust_slices (s : Nat) (f : Custody → Custody) (d : Dev) : (d.modCust s f).slices = d.slices := rfl
@[simp] theorem modCust_cmds (s : Nat) (f : Custody → Custody) (d : Dev) : (d.modCust s f).cmds = d.cmds := rfl
@[simp] theorem modCust_nextId (s : Nat) (f : Custody → Custody) (d : Dev) : (d.modCust s f).nextId = d.nextId := rfl
@[simp] theorem modCust_sched (s : Nat) (f : Custody → Custody) (d : Dev) : (d.modCust s f).sched = d.sched := rfl
@[simp] theorem modCust_led (s : Nat) (f : Custody → Custody) (d : Dev) : (d.modCust s f).led = d.led := rfl
@[simp] theorem modCust_prot (s : Nat) (f : Custody → Custody) (d : Dev) : (d.modCust s f).prot = d.prot := rfl
@[simp] theorem modCust_board (s : Nat) (f : Custody → Custody) (d : Dev) : (d.modCust s f).board = d.board := rfl
@[simp] theorem modCust_dma (s : Nat) (f : Custody → Custody) (d : Dev) : (d.modCust s f).dma = d.dma := rfl
@[simp] theorem modCust_micro (s : Nat) (f : Custody → Custody) (d : Dev) : (d.modCust s f).micro = d.micro := rfl
@[simp] theorem modCust_linen (s : Nat) (f : Custody → Custody) (d : Dev) : (d.modCust s f).linen = d.linen := rfl
@[simp] theorem modCust_out (s : Nat) (f : Custody → Custody) (d : Dev) : (d.modCust s f).out = d.out := rfl
@[simp] theorem modCust_held (s : Nat) (f : Custody → Custody) (d : Dev) : (d.modCust s f).held = d.held := rfl

@[simp] theorem mapSlices_clk (f : Slice → Slice) (d : Dev) : (mapSlices f d).clk = d.clk := rfl
@[simp] theorem mapSlices_devTime (f : Slice → Slice) (d : Dev) : (mapSlices f d).devTime = d.devTime := rfl
@[simp] theorem mapSlices_free (f : Slice → Slice) (d : Dev) : (mapSlices f d).free = d.free := rfl
@[simp] theorem mapSlices_link (f : Slice → Slice) (d : Dev) : (mapSlices f d).link = d.link := rfl
@[simp] theorem mapSlices_otp (f : Slice → Slice) (d : Dev) : (mapSlices f d).otp = d.otp := rfl
@[simp] theorem mapSlices_cmds (f : Slice → Slice) (d : Dev) : (mapSlices f d).cmds = d.cmds := rfl
@[simp] theorem mapSlices_nextId (f : Slice → Slice) (d : Dev) : (mapSlices f d).nextId = d.nextId := rfl
@[simp] theorem mapSlices_sched (f : Slice → Slice) (d : Dev) : (mapSlices f d).sched = d.sched := rfl
@[simp] theorem mapSlices_led (f : Slice → Slice) (d : Dev) : (mapSlices f d).led = d.led := rfl
@[simp] theorem mapSlices_cust (f : Slice → Slice) (d : Dev) : (mapSlices f d).cust = d.cust := rfl
@[simp] theorem mapSlices_prot (f : Slice → Slice) (d : Dev) : (mapSlices f d).prot = d.prot := rfl
@[simp] theorem mapSlices_board (f : Slice → Slice) (d : Dev) : (mapSlices f d).board = d.board := rfl
@[simp] theorem mapSlices_dma (f : Slice → Slice) (d : Dev) : (mapSlices f d).dma = d.dma := rfl
@[simp] theorem mapSlices_micro (f : Slice → Slice) (d : Dev) : (mapSlices f d).micro = d.micro := rfl
@[simp] theorem mapSlices_linen (f : Slice → Slice) (d : Dev) : (mapSlices f d).linen = d.linen := rfl
@[simp] theorem mapSlices_out (f : Slice → Slice) (d : Dev) : (mapSlices f d).out = d.out := rfl
@[simp] theorem mapSlices_held (f : Slice → Slice) (d : Dev) : (mapSlices f d).held = d.held := rfl

@[simp] theorem mapCust_clk (f : Custody → Custody) (d : Dev) : (mapCust f d).clk = d.clk := rfl
@[simp] theorem mapCust_devTime (f : Custody → Custody) (d : Dev) : (mapCust f d).devTime = d.devTime := rfl
@[simp] theorem mapCust_free (f : Custody → Custody) (d : Dev) : (mapCust f d).free = d.free := rfl
@[simp] theorem mapCust_link (f : Custody → Custody) (d : Dev) : (mapCust f d).link = d.link := rfl
@[simp] theorem mapCust_otp (f : Custody → Custody) (d : Dev) : (mapCust f d).otp = d.otp := rfl
@[simp] theorem mapCust_slices (f : Custody → Custody) (d : Dev) : (mapCust f d).slices = d.slices := rfl
@[simp] theorem mapCust_cmds (f : Custody → Custody) (d : Dev) : (mapCust f d).cmds = d.cmds := rfl
@[simp] theorem mapCust_nextId (f : Custody → Custody) (d : Dev) : (mapCust f d).nextId = d.nextId := rfl
@[simp] theorem mapCust_sched (f : Custody → Custody) (d : Dev) : (mapCust f d).sched = d.sched := rfl
@[simp] theorem mapCust_led (f : Custody → Custody) (d : Dev) : (mapCust f d).led = d.led := rfl
@[simp] theorem mapCust_prot (f : Custody → Custody) (d : Dev) : (mapCust f d).prot = d.prot := rfl
@[simp] theorem mapCust_board (f : Custody → Custody) (d : Dev) : (mapCust f d).board = d.board := rfl
@[simp] theorem mapCust_dma (f : Custody → Custody) (d : Dev) : (mapCust f d).dma = d.dma := rfl
@[simp] theorem mapCust_micro (f : Custody → Custody) (d : Dev) : (mapCust f d).micro = d.micro := rfl
@[simp] theorem mapCust_linen (f : Custody → Custody) (d : Dev) : (mapCust f d).linen = d.linen := rfl
@[simp] theorem mapCust_out (f : Custody → Custody) (d : Dev) : (mapCust f d).out = d.out := rfl
@[simp] theorem mapCust_held (f : Custody → Custody) (d : Dev) : (mapCust f d).held = d.held := rfl

@[simp] theorem modAction_clk (i : Nat) (f : ActionEntry → ActionEntry) (d : Dev) : (modAction i f d).clk = d.clk := rfl
@[simp] theorem modAction_devTime (i : Nat) (f : ActionEntry → ActionEntry) (d : Dev) : (modAction i f d).devTime = d.devTime := rfl
@[simp] theorem modAction_free (i : Nat) (f : ActionEntry → ActionEntry) (d : Dev) : (modAction i f d).free = d.free := rfl
@[simp] theorem modAction_link (i : Nat) (f : ActionEntry → ActionEntry) (d : Dev) : (modAction i f d).link = d.link := rfl
@[simp] theorem modAction_otp (i : Nat) (f : ActionEntry → ActionEntry) (d : Dev) : (modAction i f d).otp = d.otp := rfl
@[simp] theorem modAction_slices (i : Nat) (f : ActionEntry → ActionEntry) (d : Dev) : (modAction i f d).slices = d.slices := rfl
@[simp] theorem modAction_cmds (i : Nat) (f : ActionEntry → ActionEntry) (d : Dev) : (modAction i f d).cmds = d.cmds := rfl
@[simp] theorem modAction_nextId (i : Nat) (f : ActionEntry → ActionEntry) (d : Dev) : (modAction i f d).nextId = d.nextId := rfl
@[simp] theorem modAction_sched (i : Nat) (f : ActionEntry → ActionEntry) (d : Dev) : (modAction i f d).sched = d.sched := rfl
@[simp] theorem modAction_led (i : Nat) (f : ActionEntry → ActionEntry) (d : Dev) : (modAction i f d).led = d.led := rfl
@[simp] theorem modAction_cust (i : Nat) (f : ActionEntry → ActionEntry) (d : Dev) : (modAction i f d).cust = d.cust := rfl
@[simp] theorem modAction_prot (i : Nat) (f : ActionEntry → ActionEntry) (d : Dev) : (modAction i f d).prot = d.prot := rfl
@[simp] theorem modAction_dma (i : Nat) (f : ActionEntry → ActionEntry) (d : Dev) : (modAction i f d).dma = d.dma := rfl
@[simp] theorem modAction_micro (i : Nat) (f : ActionEntry → ActionEntry) (d : Dev) : (modAction i f d).micro = d.micro := rfl
@[simp] theorem modAction_linen (i : Nat) (f : ActionEntry → ActionEntry) (d : Dev) : (modAction i f d).linen = d.linen := rfl
@[simp] theorem modAction_out (i : Nat) (f : ActionEntry → ActionEntry) (d : Dev) : (modAction i f d).out = d.out := rfl
@[simp] theorem modAction_held (i : Nat) (f : ActionEntry → ActionEntry) (d : Dev) : (modAction i f d).held = d.held := rfl

@[simp] theorem setCmd_clk (c : Cmd) (d : Dev) : (setCmd c d).clk = d.clk := rfl
@[simp] theorem setCmd_devTime (c : Cmd) (d : Dev) : (setCmd c d).devTime = d.devTime := rfl
@[simp] theorem setCmd_free (c : Cmd) (d : Dev) : (setCmd c d).free = d.free := rfl
@[simp] theorem setCmd_link (c : Cmd) (d : Dev) : (setCmd c d).link = d.link := rfl
@[simp] theorem setCmd_otp (c : Cmd) (d : Dev) : (setCmd c d).otp = d.otp := rfl
@[simp] theorem setCmd_slices (c : Cmd) (d : Dev) : (setCmd c d).slices = d.slices := rfl
@[simp] theorem setCmd_nextId (c : Cmd) (d : Dev) : (setCmd c d).nextId = d.nextId := rfl
@[simp] theorem setCmd_sched (c : Cmd) (d : Dev) : (setCmd c d).sched = d.sched := rfl
@[simp] theorem setCmd_led (c : Cmd) (d : Dev) : (setCmd c d).led = d.led := rfl
@[simp] theorem setCmd_cust (c : Cmd) (d : Dev) : (setCmd c d).cust = d.cust := rfl
@[simp] theorem setCmd_prot (c : Cmd) (d : Dev) : (setCmd c d).prot = d.prot := rfl
@[simp] theorem setCmd_board (c : Cmd) (d : Dev) : (setCmd c d).board = d.board := rfl
@[simp] theorem setCmd_dma (c : Cmd) (d : Dev) : (setCmd c d).dma = d.dma := rfl
@[simp] theorem setCmd_micro (c : Cmd) (d : Dev) : (setCmd c d).micro = d.micro := rfl
@[simp] theorem setCmd_linen (c : Cmd) (d : Dev) : (setCmd c d).linen = d.linen := rfl
@[simp] theorem setCmd_out (c : Cmd) (d : Dev) : (setCmd c d).out = d.out := rfl
@[simp] theorem setCmd_held (c : Cmd) (d : Dev) : (setCmd c d).held = d.held := rfl

@[simp] theorem mapCmds_clk (f : Cmd → Cmd) (d : Dev) : (mapCmds f d).clk = d.clk := rfl
@[simp] theorem mapCmds_devTime (f : Cmd → Cmd) (d : Dev) : (mapCmds f d).devTime = d.devTime := rfl
@[simp] theorem mapCmds_free (f : Cmd → Cmd) (d : Dev) : (mapCmds f d).free = d.free := rfl
@[simp] theorem mapCmds_link (f : Cmd → Cmd) (d : Dev) : (mapCmds f d).link = d.link := rfl
@[simp] theorem mapCmds_otp (f : Cmd → Cmd) (d : Dev) : (mapCmds f d).otp = d.otp := rfl
@[simp] theorem mapCmds_slices (f : Cmd → Cmd) (d : Dev) : (mapCmds f d).slices = d.slices := rfl
@[simp] theorem mapCmds_nextId (f : Cmd → Cmd) (d : Dev) : (mapCmds f d).nextId = d.nextId := rfl
@[simp] theorem mapCmds_sched (f : Cmd → Cmd) (d : Dev) : (mapCmds f d).sched = d.sched := rfl
@[simp] theorem mapCmds_led (f : Cmd → Cmd) (d : Dev) : (mapCmds f d).led = d.led := rfl
@[simp] theorem mapCmds_cust (f : Cmd → Cmd) (d : Dev) : (mapCmds f d).cust = d.cust := rfl
@[simp] theorem mapCmds_prot (f : Cmd → Cmd) (d : Dev) : (mapCmds f d).prot = d.prot := rfl
@[simp] theorem mapCmds_board (f : Cmd → Cmd) (d : Dev) : (mapCmds f d).board = d.board := rfl
@[simp] theorem mapCmds_dma (f : Cmd → Cmd) (d : Dev) : (mapCmds f d).dma = d.dma := rfl
@[simp] theorem mapCmds_micro (f : Cmd → Cmd) (d : Dev) : (mapCmds f d).micro = d.micro := rfl
@[simp] theorem mapCmds_linen (f : Cmd → Cmd) (d : Dev) : (mapCmds f d).linen = d.linen := rfl
@[simp] theorem mapCmds_out (f : Cmd → Cmd) (d : Dev) : (mapCmds f d).out = d.out := rfl
@[simp] theorem mapCmds_held (f : Cmd → Cmd) (d : Dev) : (mapCmds f d).held = d.held := rfl

@[simp] theorem emit_clk (e : Emit) (d : Dev) : (emit e d).clk = d.clk := rfl
@[simp] theorem emit_devTime (e : Emit) (d : Dev) : (emit e d).devTime = d.devTime := rfl
@[simp] theorem emit_free (e : Emit) (d : Dev) : (emit e d).free = d.free := rfl
@[simp] theorem emit_link (e : Emit) (d : Dev) : (emit e d).link = d.link := rfl
@[simp] theorem emit_otp (e : Emit) (d : Dev) : (emit e d).otp = d.otp := rfl
@[simp] theorem emit_slices (e : Emit) (d : Dev) : (emit e d).slices = d.slices := rfl
@[simp] theorem emit_cmds (e : Emit) (d : Dev) : (emit e d).cmds = d.cmds := rfl
@[simp] theorem emit_nextId (e : Emit) (d : Dev) : (emit e d).nextId = d.nextId := rfl
@[simp] theorem emit_sched (e : Emit) (d : Dev) : (emit e d).sched = d.sched := rfl
@[simp] theorem emit_led (e : Emit) (d : Dev) : (emit e d).led = d.led := rfl
@[simp] theorem emit_cust (e : Emit) (d : Dev) : (emit e d).cust = d.cust := rfl
@[simp] theorem emit_prot (e : Emit) (d : Dev) : (emit e d).prot = d.prot := rfl
@[simp] theorem emit_board (e : Emit) (d : Dev) : (emit e d).board = d.board := rfl
@[simp] theorem emit_dma (e : Emit) (d : Dev) : (emit e d).dma = d.dma := rfl
@[simp] theorem emit_micro (e : Emit) (d : Dev) : (emit e d).micro = d.micro := rfl
@[simp] theorem emit_linen (e : Emit) (d : Dev) : (emit e d).linen = d.linen := rfl

@[simp] theorem modUnit_clk (k : UnitClass) (u : Nat) (f : EUnit → EUnit) (d : Dev) : (d.modUnit k u f).clk = d.clk := rfl
@[simp] theorem modUnit_devTime (k : UnitClass) (u : Nat) (f : EUnit → EUnit) (d : Dev) : (d.modUnit k u f).devTime = d.devTime := rfl
@[simp] theorem modUnit_free (k : UnitClass) (u : Nat) (f : EUnit → EUnit) (d : Dev) : (d.modUnit k u f).free = d.free := rfl
@[simp] theorem modUnit_link (k : UnitClass) (u : Nat) (f : EUnit → EUnit) (d : Dev) : (d.modUnit k u f).link = d.link := rfl
@[simp] theorem modUnit_otp (k : UnitClass) (u : Nat) (f : EUnit → EUnit) (d : Dev) : (d.modUnit k u f).otp = d.otp := rfl
@[simp] theorem modUnit_slices (k : UnitClass) (u : Nat) (f : EUnit → EUnit) (d : Dev) : (d.modUnit k u f).slices = d.slices := rfl
@[simp] theorem modUnit_cmds (k : UnitClass) (u : Nat) (f : EUnit → EUnit) (d : Dev) : (d.modUnit k u f).cmds = d.cmds := rfl
@[simp] theorem modUnit_nextId (k : UnitClass) (u : Nat) (f : EUnit → EUnit) (d : Dev) : (d.modUnit k u f).nextId = d.nextId := rfl
@[simp] theorem modUnit_led (k : UnitClass) (u : Nat) (f : EUnit → EUnit) (d : Dev) : (d.modUnit k u f).led = d.led := rfl
@[simp] theorem modUnit_cust (k : UnitClass) (u : Nat) (f : EUnit → EUnit) (d : Dev) : (d.modUnit k u f).cust = d.cust := rfl
@[simp] theorem modUnit_prot (k : UnitClass) (u : Nat) (f : EUnit → EUnit) (d : Dev) : (d.modUnit k u f).prot = d.prot := rfl
@[simp] theorem modUnit_board (k : UnitClass) (u : Nat) (f : EUnit → EUnit) (d : Dev) : (d.modUnit k u f).board = d.board := rfl
@[simp] theorem modUnit_dma (k : UnitClass) (u : Nat) (f : EUnit → EUnit) (d : Dev) : (d.modUnit k u f).dma = d.dma := rfl
@[simp] theorem modUnit_micro (k : UnitClass) (u : Nat) (f : EUnit → EUnit) (d : Dev) : (d.modUnit k u f).micro = d.micro := rfl
@[simp] theorem modUnit_linen (k : UnitClass) (u : Nat) (f : EUnit → EUnit) (d : Dev) : (d.modUnit k u f).linen = d.linen := rfl
@[simp] theorem modUnit_out (k : UnitClass) (u : Nat) (f : EUnit → EUnit) (d : Dev) : (d.modUnit k u f).out = d.out := rfl
@[simp] theorem modUnit_held (k : UnitClass) (u : Nat) (f : EUnit → EUnit) (d : Dev) : (d.modUnit k u f).held = d.held := rfl

@[simp] theorem modChan_clk (c : Nat) (f : Channel → Channel) (d : Dev) : (modChan c f d).clk = d.clk := rfl
@[simp] theorem modChan_devTime (c : Nat) (f : Channel → Channel) (d : Dev) : (modChan c f d).devTime = d.devTime := rfl
@[simp] theorem modChan_free (c : Nat) (f : Channel → Channel) (d : Dev) : (modChan c f d).free = d.free := rfl
@[simp] theorem modChan_link (c : Nat) (f : Channel → Channel) (d : Dev) : (modChan c f d).link = d.link := rfl
@[simp] theorem modChan_otp (c : Nat) (f : Channel → Channel) (d : Dev) : (modChan c f d).otp = d.otp := rfl
@[simp] theorem modChan_slices (c : Nat) (f : Channel → Channel) (d : Dev) : (modChan c f d).slices = d.slices := rfl
@[simp] theorem modChan_cmds (c : Nat) (f : Channel → Channel) (d : Dev) : (modChan c f d).cmds = d.cmds := rfl
@[simp] theorem modChan_nextId (c : Nat) (f : Channel → Channel) (d : Dev) : (modChan c f d).nextId = d.nextId := rfl
@[simp] theorem modChan_sched (c : Nat) (f : Channel → Channel) (d : Dev) : (modChan c f d).sched = d.sched := rfl
@[simp] theorem modChan_led (c : Nat) (f : Channel → Channel) (d : Dev) : (modChan c f d).led = d.led := rfl
@[simp] theorem modChan_cust (c : Nat) (f : Channel → Channel) (d : Dev) : (modChan c f d).cust = d.cust := rfl
@[simp] theorem modChan_prot (c : Nat) (f : Channel → Channel) (d : Dev) : (modChan c f d).prot = d.prot := rfl
@[simp] theorem modChan_board (c : Nat) (f : Channel → Channel) (d : Dev) : (modChan c f d).board = d.board := rfl
@[simp] theorem modChan_micro (c : Nat) (f : Channel → Channel) (d : Dev) : (modChan c f d).micro = d.micro := rfl
@[simp] theorem modChan_linen (c : Nat) (f : Channel → Channel) (d : Dev) : (modChan c f d).linen = d.linen := rfl
@[simp] theorem modChan_out (c : Nat) (f : Channel → Channel) (d : Dev) : (modChan c f d).out = d.out := rfl
@[simp] theorem modChan_held (c : Nat) (f : Channel → Channel) (d : Dev) : (modChan c f d).held = d.held := rfl

@[simp] theorem modBank_clk (b : Nat) (f : Bank → Bank) (d : Dev) : (modBank b f d).clk = d.clk := rfl
@[simp] theorem modBank_devTime (b : Nat) (f : Bank → Bank) (d : Dev) : (modBank b f d).devTime = d.devTime := rfl
@[simp] theorem modBank_free (b : Nat) (f : Bank → Bank) (d : Dev) : (modBank b f d).free = d.free := rfl
@[simp] theorem modBank_link (b : Nat) (f : Bank → Bank) (d : Dev) : (modBank b f d).link = d.link := rfl
@[simp] theorem modBank_otp (b : Nat) (f : Bank → Bank) (d : Dev) : (modBank b f d).otp = d.otp := rfl
@[simp] theorem modBank_slices (b : Nat) (f : Bank → Bank) (d : Dev) : (modBank b f d).slices = d.slices := rfl
@[simp] theorem modBank_cmds (b : Nat) (f : Bank → Bank) (d : Dev) : (modBank b f d).cmds = d.cmds := rfl
@[simp] theorem modBank_nextId (b : Nat) (f : Bank → Bank) (d : Dev) : (modBank b f d).nextId = d.nextId := rfl
@[simp] theorem modBank_sched (b : Nat) (f : Bank → Bank) (d : Dev) : (modBank b f d).sched = d.sched := rfl
@[simp] theorem modBank_led (b : Nat) (f : Bank → Bank) (d : Dev) : (modBank b f d).led = d.led := rfl
@[simp] theorem modBank_cust (b : Nat) (f : Bank → Bank) (d : Dev) : (modBank b f d).cust = d.cust := rfl
@[simp] theorem modBank_prot (b : Nat) (f : Bank → Bank) (d : Dev) : (modBank b f d).prot = d.prot := rfl
@[simp] theorem modBank_board (b : Nat) (f : Bank → Bank) (d : Dev) : (modBank b f d).board = d.board := rfl
@[simp] theorem modBank_micro (b : Nat) (f : Bank → Bank) (d : Dev) : (modBank b f d).micro = d.micro := rfl
@[simp] theorem modBank_linen (b : Nat) (f : Bank → Bank) (d : Dev) : (modBank b f d).linen = d.linen := rfl
@[simp] theorem modBank_out (b : Nat) (f : Bank → Bank) (d : Dev) : (modBank b f d).out = d.out := rfl
@[simp] theorem modBank_held (b : Nat) (f : Bank → Bank) (d : Dev) : (modBank b f d).held = d.held := rfl

@[simp] theorem modPort_clk (p : Nat) (f : Port → Port) (d : Dev) : (modPort p f d).clk = d.clk := rfl
@[simp] theorem modPort_devTime (p : Nat) (f : Port → Port) (d : Dev) : (modPort p f d).devTime = d.devTime := rfl
@[simp] theorem modPort_free (p : Nat) (f : Port → Port) (d : Dev) : (modPort p f d).free = d.free := rfl
@[simp] theorem modPort_link (p : Nat) (f : Port → Port) (d : Dev) : (modPort p f d).link = d.link := rfl
@[simp] theorem modPort_otp (p : Nat) (f : Port → Port) (d : Dev) : (modPort p f d).otp = d.otp := rfl
@[simp] theorem modPort_slices (p : Nat) (f : Port → Port) (d : Dev) : (modPort p f d).slices = d.slices := rfl
@[simp] theorem modPort_cmds (p : Nat) (f : Port → Port) (d : Dev) : (modPort p f d).cmds = d.cmds := rfl
@[simp] theorem modPort_nextId (p : Nat) (f : Port → Port) (d : Dev) : (modPort p f d).nextId = d.nextId := rfl
@[simp] theorem modPort_sched (p : Nat) (f : Port → Port) (d : Dev) : (modPort p f d).sched = d.sched := rfl
@[simp] theorem modPort_led (p : Nat) (f : Port → Port) (d : Dev) : (modPort p f d).led = d.led := rfl
@[simp] theorem modPort_cust (p : Nat) (f : Port → Port) (d : Dev) : (modPort p f d).cust = d.cust := rfl
@[simp] theorem modPort_prot (p : Nat) (f : Port → Port) (d : Dev) : (modPort p f d).prot = d.prot := rfl
@[simp] theorem modPort_dma (p : Nat) (f : Port → Port) (d : Dev) : (modPort p f d).dma = d.dma := rfl
@[simp] theorem modPort_micro (p : Nat) (f : Port → Port) (d : Dev) : (modPort p f d).micro = d.micro := rfl
@[simp] theorem modPort_linen (p : Nat) (f : Port → Port) (d : Dev) : (modPort p f d).linen = d.linen := rfl
@[simp] theorem modPort_out (p : Nat) (f : Port → Port) (d : Dev) : (modPort p f d).out = d.out := rfl
@[simp] theorem modPort_held (p : Nat) (f : Port → Port) (d : Dev) : (modPort p f d).held = d.held := rfl

@[simp] theorem modLinen_clk (f : Linen → Linen) (d : Dev) : (modLinen f d).clk = d.clk := rfl
@[simp] theorem modLinen_devTime (f : Linen → Linen) (d : Dev) : (modLinen f d).devTime = d.devTime := rfl
@[simp] theorem modLinen_free (f : Linen → Linen) (d : Dev) : (modLinen f d).free = d.free := rfl
@[simp] theorem modLinen_link (f : Linen → Linen) (d : Dev) : (modLinen f d).link = d.link := rfl
@[simp] theorem modLinen_otp (f : Linen → Linen) (d : Dev) : (modLinen f d).otp = d.otp := rfl
@[simp] theorem modLinen_slices (f : Linen → Linen) (d : Dev) : (modLinen f d).slices = d.slices := rfl
@[simp] theorem modLinen_cmds (f : Linen → Linen) (d : Dev) : (modLinen f d).cmds = d.cmds := rfl
@[simp] theorem modLinen_nextId (f : Linen → Linen) (d : Dev) : (modLinen f d).nextId = d.nextId := rfl
@[simp] theorem modLinen_sched (f : Linen → Linen) (d : Dev) : (modLinen f d).sched = d.sched := rfl
@[simp] theorem modLinen_led (f : Linen → Linen) (d : Dev) : (modLinen f d).led = d.led := rfl
@[simp] theorem modLinen_cust (f : Linen → Linen) (d : Dev) : (modLinen f d).cust = d.cust := rfl
@[simp] theorem modLinen_prot (f : Linen → Linen) (d : Dev) : (modLinen f d).prot = d.prot := rfl
@[simp] theorem modLinen_board (f : Linen → Linen) (d : Dev) : (modLinen f d).board = d.board := rfl
@[simp] theorem modLinen_dma (f : Linen → Linen) (d : Dev) : (modLinen f d).dma = d.dma := rfl
@[simp] theorem modLinen_micro (f : Linen → Linen) (d : Dev) : (modLinen f d).micro = d.micro := rfl
@[simp] theorem modLinen_out (f : Linen → Linen) (d : Dev) : (modLinen f d).out = d.out := rfl
@[simp] theorem modLinen_held (f : Linen → Linen) (d : Dev) : (modLinen f d).held = d.held := rfl

@[simp] theorem linenPend_clk (v : Nat) (d : Dev) : (linenPend v d).clk = d.clk := rfl
@[simp] theorem linenPend_devTime (v : Nat) (d : Dev) : (linenPend v d).devTime = d.devTime := rfl
@[simp] theorem linenPend_free (v : Nat) (d : Dev) : (linenPend v d).free = d.free := rfl
@[simp] theorem linenPend_link (v : Nat) (d : Dev) : (linenPend v d).link = d.link := rfl
@[simp] theorem linenPend_otp (v : Nat) (d : Dev) : (linenPend v d).otp = d.otp := rfl
@[simp] theorem linenPend_slices (v : Nat) (d : Dev) : (linenPend v d).slices = d.slices := rfl
@[simp] theorem linenPend_cmds (v : Nat) (d : Dev) : (linenPend v d).cmds = d.cmds := rfl
@[simp] theorem linenPend_nextId (v : Nat) (d : Dev) : (linenPend v d).nextId = d.nextId := rfl
@[simp] theorem linenPend_sched (v : Nat) (d : Dev) : (linenPend v d).sched = d.sched := rfl
@[simp] theorem linenPend_led (v : Nat) (d : Dev) : (linenPend v d).led = d.led := rfl
@[simp] theorem linenPend_cust (v : Nat) (d : Dev) : (linenPend v d).cust = d.cust := rfl
@[simp] theorem linenPend_prot (v : Nat) (d : Dev) : (linenPend v d).prot = d.prot := rfl
@[simp] theorem linenPend_board (v : Nat) (d : Dev) : (linenPend v d).board = d.board := rfl
@[simp] theorem linenPend_dma (v : Nat) (d : Dev) : (linenPend v d).dma = d.dma := rfl
@[simp] theorem linenPend_micro (v : Nat) (d : Dev) : (linenPend v d).micro = d.micro := rfl
@[simp] theorem linenPend_out (v : Nat) (d : Dev) : (linenPend v d).out = d.out := rfl
@[simp] theorem linenPend_held (v : Nat) (d : Dev) : (linenPend v d).held = d.held := rfl

@[simp] theorem modEnt_clk (i : Nat) (f : Entry → Entry) (d : Dev) : (modEnt i f d).clk = d.clk := rfl
@[simp] theorem modEnt_devTime (i : Nat) (f : Entry → Entry) (d : Dev) : (modEnt i f d).devTime = d.devTime := rfl
@[simp] theorem modEnt_free (i : Nat) (f : Entry → Entry) (d : Dev) : (modEnt i f d).free = d.free := rfl
@[simp] theorem modEnt_link (i : Nat) (f : Entry → Entry) (d : Dev) : (modEnt i f d).link = d.link := rfl
@[simp] theorem modEnt_otp (i : Nat) (f : Entry → Entry) (d : Dev) : (modEnt i f d).otp = d.otp := rfl
@[simp] theorem modEnt_slices (i : Nat) (f : Entry → Entry) (d : Dev) : (modEnt i f d).slices = d.slices := rfl
@[simp] theorem modEnt_cmds (i : Nat) (f : Entry → Entry) (d : Dev) : (modEnt i f d).cmds = d.cmds := rfl
@[simp] theorem modEnt_nextId (i : Nat) (f : Entry → Entry) (d : Dev) : (modEnt i f d).nextId = d.nextId := rfl
@[simp] theorem modEnt_sched (i : Nat) (f : Entry → Entry) (d : Dev) : (modEnt i f d).sched = d.sched := rfl
@[simp] theorem modEnt_cust (i : Nat) (f : Entry → Entry) (d : Dev) : (modEnt i f d).cust = d.cust := rfl
@[simp] theorem modEnt_prot (i : Nat) (f : Entry → Entry) (d : Dev) : (modEnt i f d).prot = d.prot := rfl
@[simp] theorem modEnt_board (i : Nat) (f : Entry → Entry) (d : Dev) : (modEnt i f d).board = d.board := rfl
@[simp] theorem modEnt_dma (i : Nat) (f : Entry → Entry) (d : Dev) : (modEnt i f d).dma = d.dma := rfl
@[simp] theorem modEnt_micro (i : Nat) (f : Entry → Entry) (d : Dev) : (modEnt i f d).micro = d.micro := rfl
@[simp] theorem modEnt_linen (i : Nat) (f : Entry → Entry) (d : Dev) : (modEnt i f d).linen = d.linen := rfl
@[simp] theorem modEnt_out (i : Nat) (f : Entry → Entry) (d : Dev) : (modEnt i f d).out = d.out := rfl
@[simp] theorem modEnt_held (i : Nat) (f : Entry → Entry) (d : Dev) : (modEnt i f d).held = d.held := rfl

@[simp] theorem emit_held (e : Emit) (d : Dev) : (emit e d).held = d.held := rfl
@[simp] theorem emit_out (e : Emit) (d : Dev) : (emit e d).out = d.out ++ [e] := rfl
@[simp] theorem modLinen_linen (f : Linen → Linen) (d : Dev) : (modLinen f d).linen = f d.linen := rfl
@[simp] theorem mapCmds_cmds (f : Cmd → Cmd) (d : Dev) : (mapCmds f d).cmds = d.cmds.map f := rfl

/-- A row whose effect is on the device alone answers a next state; queue and memories are as they were. -/
@[simp] theorem onDev_eq (f : Dev → Dev) (s : State) : onDev f s = .next { s with dev := f s.dev } := rfl

/-- The same for a row that reads the memories. -/
@[simp] theorem onDevM_eq (f : Memory → Dev → Dev) (s : State) :
    onDevM f s = .next { s with dev := f s.mem s.dev } := rfl

/-- A row that changes both leaves the queue. -/
@[simp] theorem onBoth_eq (f : Dev → Memory → Dev × Memory) (s : State) :
    onBoth f s = .next { s with dev := (f s.dev s.mem).1, mem := (f s.dev s.mem).2 } := rfl

end Sys2Proof.Machine
end

