-- ==== Sys2Proof/WellFormed.lean ====
section
/-!
DEFINITION. Well-formed commands: operands in the ranges their rows give.
-/
namespace Sys2Proof

/-- The operands lie in their ranges. -/
def Instr.wf : Instr → Bool
  | .faultDetect _ _ access _ => decide (access < 16)
  | _ => true

end Sys2Proof
end

