-- ==== Sys2Proof/Tests/Slice0.lean ====
section
/-!
SUPPORT. Tests: small states, witnesses of the hypotheses of the statements, worked examples of the manual.
-/
set_option Elab.async false

namespace Sys2Proof.Tests

open Machine

/-- A packet with PARAM, descriptors and inline data in its body. -/
def pktOf (opcode prm ndesc : Nat) (body : Bytes) (inl : Nat) : Packet :=
  { flags := 0, opcode := opcode, tag := 0, notBefore := 0, keys := [], param := BitVec.ofNat 8 prm, ndesc := ndesc,
    inlineLen := inl, body := body, contOk := true, pushFault := false }

/-- A command of slice 0 that runs on an engine of class `cls`, or waits for Linen. -/
def cmdOf (o : Op) (cls : List EngClass) (p : Packet) : Cmd :=
  { id := 7, slice := 0, queue := 0, ring := 0, push := none, pos := 0, pkt := p, op := o,
    stage := if cls.isEmpty then .ready else .running, refused := false, wasHeld := false, readyAt := 0, keys := [], classes := cls,
    inputs := [], dmaErr := none, units := [], charge := [], startAt := 0, endAt := 0, overlap := false, retried := false,
    front := false, saved := none, order := 1, revs := (1, 1), hits := [], entry := none, undo := none, otIndex := none, relUnits := 0, stageUnits := 0, audit := 0,
    token := none, foreign := none, chan := none, banks := (0, 0), ranAway := false, noSpill := false, draws := 0, outcome := none,
    outLen := 0, time := 0 }

/-- The reset state with the device changed. -/
def with_ (f : Dev → Dev) : State := { State.reset with dev := f State.reset.dev }

/-- The reset state holding one command. -/
def holding (c : Cmd) : State := with_ (fun d => { d with cmds := [c] })

/-- What a command leads to satisfies a check. -/
def leads (o : Out) (p : State → Bool) : Bool :=
  match o with
  | .next t => p t
  | _ => false

/-- A command stops. -/
def stops (o : Out) : Bool :=
  match o with
  | .fault .outsideBar => true
  | _ => false

/-- A started device out of its resets. -/
def up : State := with_ (fun d => { d with link := { d.link with started := true } })

/-- `up` with the device changed. -/
def upWith (f : Dev → Dev) : State := { up with dev := f up.dev }

/-- `up` with slice 0 ACTIVE and its queue 0 RUNNING with a ring of `n` granules. -/
def openRing (n : Nat) : State :=
  upWith (fun d => (d.modSlice 0 (fun x => { x with st := .active })).modSq 0 0 (fun x => { x with st := .running, depth := n }))

/-- A packet with one inline input. -/
def inPkt (opcode prm : Nat) (data : Bytes) : Packet :=
  pktOf opcode prm 1 (leBytes 8 0 ++ leBytes 4 data.length ++ leBytes 4 2 ++ data) data.length

/-- A ledger entry: an AES-256 key of slice 0. -/
def aKey : Entry := { blankEntry 1 with
  st := .active, gen := 1, typ := 3, subtype := 0, usage := 3, material := zeros 32, matLen := 32, kcv := zeros 3 }

/-! Well-formedness, the block. -/

theorem test_wf_refuses_access : (Instr.faultDetect 0 0 16 none).wf = false := by decide
theorem test_wf_takes_access : (Instr.faultDetect 0 0 15 none).wf = true := by decide

theorem witness_inv : Inv State.reset ∧ ∃ t, step State.reset = .next t := ⟨rfl, _, rfl⟩
theorem witness_stop : stops (step { up with pending := [.registerWrite .pf0 0x4000000 1 0] }) = true := by decide +kernel
theorem witness_bar_end : leads (step { up with pending := [.registerWrite .pf0 0x3FFFFFC 4 0] }) (fun t =>
    t.dev.link == up.dev.link && t.dev.board == up.dev.board && t.dev.sched == up.dev.sched) = true := by
  decide +kernel
theorem witness_xw_stop : stops (step { up with pending := [.xwBar2Access 255 0xFFFF 2 none] }) = true := by decide +kernel
theorem test_idle_tick : leads (step up) (fun t => t.dev.clk == 1 && t.dev.devTime == 1) = true := by decide +kernel
theorem test_idle_before_start : leads (step State.reset) (fun t => t.dev.clk == 1 && t.dev.devTime == 0) = true := by
  decide +kernel

/-! Execution steps. -/

/-- Every operation can stand at its execution step, with any PARAM: no statement about one is empty. -/
theorem witness_at_step (o : Op) (cls : List EngClass) (prm : Nat) : AtStep (holding (cmdOf o cls (pktOf 0 prm 0 [] 0))) 7 o
    (cmdOf o cls (pktOf 0 prm 0 [] 0)) := by
  cases cls <;> cases o <;> refine ⟨rfl, rfl, rfl, rfl, rfl, rfl⟩

/-- A command with an inline input, which it then reads. -/
theorem witness_input : let c := cmdOf .echo [] (inPkt 0xF004 3 [1, 2, 3, 4, 5, 6, 7, 8])
    findCmd (holding c).dev 7 = some c ∧ canRun (holding c).mem (holding c).dev c = true ∧
    inputTagFail (holding c).dev c = false ∧ input (holding c) c 0 = [1, 2, 3, 4, 5, 6, 7, 8] ∧ c.prm = 3 := by
  decide +kernel

/-- Two input descriptors of host memory, of one byte each. -/
def twoDescs : Bytes := leBytes 8 0 ++ leBytes 4 1 ++ zeros 4 ++ leBytes 8 64 ++ leBytes 4 1 ++ zeros 4

/-- A command of host memory whose inputs have been read, whatever they are. -/
def reading (o : Op) (prm : Nat) (x y : Bytes) : Cmd :=
  { cmdOf o [] (pktOf 0 prm 2 twoDescs 0) with
    inputs := [(0, x), (1, y)] }

/-- Every operation can stand at its execution step with any two inputs. -/
theorem witness_any_input (o : Op) (prm : Nat) (x y : Bytes) : AtStep (holding (reading o prm x y)) 7 o (reading o prm x y) ∧
    input (holding (reading o prm x y)) (reading o prm x y) 0 = x ∧ input (holding (reading o prm x y)) (reading o prm x y) 1 = y := by
  have k : (reading o prm x y).pkt.skip = 0 := by simp [Packet.skip, Packet.segf, reading, cmdOf, pktOf, bits]
  have h0 : (reading o prm x y).pkt.desc 0 = ⟨0, 1, 0⟩ := by
    rw [Packet.desc, k]
    show (⟨field twoDescs 0 8, field twoDescs 8 4, BitVec.ofNat 32 (field twoDescs 12 4)⟩ : Desc) = _
    decide +kernel
  have h1 : (reading o prm x y).pkt.desc 1 = ⟨64, 1, 0⟩ := by
    rw [Packet.desc, k]
    show (⟨field twoDescs 16 8, field twoDescs 24 4, BitVec.ofNat 32 (field twoDescs 28 4)⟩ : Desc) = _
    decide +kernel
  have n : (reading o prm x y).pkt.ndesc = 2 := rfl
  have i : (reading o prm x y).inputs = [(0, x), (1, y)] := rfl
  refine ⟨⟨rfl, rfl, ?_, rfl, ?_, ?_⟩, ?_, ?_⟩
  · have r : inputsReady (holding (reading o prm x y)).mem (holding (reading o prm x y)).dev (reading o prm x y) = true := by
      simp only [inputsReady, n, inputOf, i, List.range, List.range.loop, List.all_cons, List.all_nil, h0, h1]
      rfl
    have t : linenTurn (holding (reading o prm x y)).dev (reading o prm x y) = true := by cases o <;> rfl
    simp only [canRun, r, Bool.or_true, Bool.and_true]
    exact t
  · simp only [inputTagFail, Packet.descs, n, List.range, List.range.loop, List.map_cons, List.map_nil, List.any_cons,
      List.any_nil, h0, h1]
    rfl
  · simp [reading, cmdOf]
  · simp only [input, inp, n, inputOf, h0, i]
    rfl
  · simp only [input, inp, n, inputOf, h1, i]
    rfl

/-- PARAM of a command is what its packet holds. -/
theorem witness_param : (List.range 256).all (fun p => (cmdOf .echo [] (pktOf 0 p 0 [] 0)).prm == p) = true := by decide +kernel

theorem test_echo : leads (exec (.echo 7) (holding (cmdOf .echo [] (inPkt 0xF004 0 [0xAB])))) (fun t =>
    t.dev.cmds.any (fun c => c.outcome == some { status := .ok, outs := [(1, [0xAB])], result := [] })) = true := by decide +kernel

/-! Resets, power, tamper. -/

theorem witness_startup : (!State.reset.dev.link.started && State.reset.dev.link.mainPower
    && !(State.reset.dev.link.supplyReset && decide (State.reset.dev.clk < State.reset.dev.link.startAt + 1000000))) = true ∧
    (!up.dev.link.started) = false := by decide
theorem witness_battery : (with_ (fun d => { d with link := { d.link with onBattery := true } })).dev.link.onBattery = true ∧
    (with_ (fun d => { d with link := { d.link with onBattery := true } })).dev.link.batDead = false ∧
    batterySource 8 = true ∧ batterySource 9 = false ∧ Otp.shipped.fuses.getLsbD 8 = false ∧ levelOf Dev.reset 8 ≠ 0 ∧
    levelOf (with_ (fun d => { d with prot := { d.prot with levels := List.replicate 32 0 } })).dev 8 = 0 := by decide
theorem witness_lost : let d := (upWith (fun d => { d with link := { d.link with linkLost := true } })).dev
    d.powered = true ∧ d.link.linkLost = true := by decide
theorem witness_own_test : let d := { up.dev with prot := { up.dev.prot with selfTest := some ⟨7, [5, 6], 0, 0, 50000⟩ } }
    d.powered = true ∧ d.prot.selfTest = some ⟨7, [5, 6], 0, 0, 50000⟩ ∧ [5, 6].head? = some (5 : Fin 32).val ∧
    ({ d with prot := { d.prot with selfTest := some ⟨7, [5], 0, 0, 0⟩ } } : Dev).prot.selfTest = some ⟨7, [(5 : Fin 32).val], 0, 0, 0⟩ := by
  decide
theorem witness_incident : let d := { up.dev with board := { up.dev.board with incident := true } }
    d.powered = true ∧ d.board.busLow = false ∧ d.board.incident = true ∧
    ({ d with board := { d.board with busLow := true } } : Dev).board.busLow = true := by decide
theorem witness_links : up.dev.powered = true ∧ up.dev.link.linkLost = false ∧ up.dev.prot.selfTest = none ∧
    up.dev.board.busLow = false ∧ up.dev.board.incident = false := by decide
theorem witness_fused : (with_ (fun d => { d with otp := { d.otp with fuseCells := 2 } })).dev.otp.fuses.getLsbD (1 : Fin 32).val = true ∧
    levelOf Dev.reset 9 ≤ 1 ∧ (9 : Nat) ≠ 29 := by decide
theorem witness_caution : let d := { up.dev with prot := { up.dev.prot with caution := true, aboveSince := some 0 } }
    d.prot.aboveSince = some 0 ∧ d.prot.caution = true ∧ d.prot.fatal = false ∧ d.powered = true := by decide
theorem test_alarm_erases : leads (exec (.tamperAlarm 10) up) (fun t => t.dev.led.keyHeld == false && t.dev.prot.active.getLsbD 10
    && t.dev.prot.st == .erased) = true := by decide +kernel
theorem test_therm_trip : leads (exec (.thermTrip 480) up) (fun t => t.dev.prot.thermTripLow && t.dev.prot.firstInfo.getLsbD 31
    && t.dev.prot.corrCount == 1) = true := by decide +kernel
theorem test_supply : leads (exec (.supplyWarning 3) up) (fun t => t.dev.prot.caution && t.dev.prot.belowWarn == 8) = true := by
  decide +kernel

/-! Registers, queues and rings. -/

theorem witness_session (keys : Bytes) (h : keys ≠ []) : let d := modSpdm .mctp (fun _ => ⟨0x13, some keys, true⟩) up.dev
    d.powered = true ∧ d.link.linkLost = false ∧ (d.spdm .mctp).version ≠ 0 ∧ (d.spdm .mctp).opened = true ∧ keys ≠ [] ∧
    (up.dev.spdm .mctp).opened = false := ⟨rfl, rfl, show (0x13 : Nat) ≠ 0 by decide, rfl, h, rfl⟩
theorem witness_ide : let d := (upWith (fun d => { d with link := { d.link with ideRequired := true } })).dev
    d.powered = true ∧ d.link.linkLost = false ∧ d.link.ideRequired = true ∧ d.reachable = false ∧ up.dev.link.ideRequired = false := by
  decide
theorem witness_reachable : up.dev.reachable = true := by decide
theorem witness_registers : (1 : Nat) % 4 ≠ 0 ∧ barSize .pf0 = 0x4000000 ∧ barSize .pf1 = 0x1000000 := by decide
theorem witness_sideband : (1 : Nat) ≤ 7 ∧ ([1] : Bytes) ≠ [] ∧ up.dev.lc ≠ 21 ∧
    (with_ (fun d => { d with otp := { d.otp with state := ⟨0x3FFFF, 0x3FFFF, 0x3FFFF⟩ } })).dev.lc = 18 ∧
    (with_ (fun d => { d with otp := { d.otp with state := ⟨0x7FFFF, 0x7FFFF, 0x7FFFF⟩ } })).dev.lc = 19 := by decide +kernel
theorem witness_open : (openRing 4).dev.open_ 0 = true ∧ ((openRing 4).dev.sq 0 0).st = .running := by decide
theorem witness_restart : let d := (openRing 4).dev.modSq 0 0 (fun x => { x with st := .qerr })
    d.open_ 0 = true ∧ (0x80000003 : BitVec 32).getLsbD 31 = true ∧ (d.sq 0 0).st = .qerr ∧
    bits (0x80000003 : BitVec 32).toNat 15 0 < (d.sq 0 0).depth := by decide
theorem test_doorbell_takes : leads (exec (.sqDoorbell 0 0 3) (openRing 4)) (fun t => (t.dev.sq 0 0).prod == some 3
    && !(t.dev.sq 0 0).dbDrop) = true := by decide +kernel
theorem test_doorbell_drops : leads (exec (.sqDoorbell 0 0 4) (openRing 4)) (fun t => (t.dev.sq 0 0).dbDrop) = true := by
  decide +kernel
theorem witness_enable : (openRing 4).dev.open_ 0 = true ∧ ((openRing 4).dev.sq 0 1).st = .disabled ∧
    ((openRing 4).dev.cq 0 0).st = .disabled ∧ slotsHeld (openRing 4).dev 0 0 = 0 := by decide
theorem witness_enable_bad : let d := (openRing 4).dev
    sqFault (d.slice 0) 0 1 (sqCfgWrite 5 (d.sq 0 1)) ≠ 0 := by decide +kernel
theorem witness_draining : let d := (openRing 4).dev.modSq 0 0 (fun x => { x with st := .draining })
    (d.sq 0 0).st = .draining ∧ slotsHeld d 0 0 = 0 := by decide
theorem witness_timers : let d := (openRing 4).dev.modCq 0 0 (fun x => { x with firstAt := some 0 })
    (d.cq 0 0).firstAt = some 0 ∧ ((d.modSq 0 0 (fun x => { x with notNewAt := some 0 })).sq 0 0).notNewAt = some 0 := by decide
theorem witness_framing : up.dev.link.qerrHalt = false := by decide
theorem test_framing_fault : ((framingFault 0 0 2 false (openRing 4).dev).sq 0 0).st = .qerr := by decide +kernel
theorem witness_frame : bit (gctl (zeros 64)) 7 ≠ phaseAt 4 (0 % 8) ∧
    bit (gctl (leBytes 1 0x80 ++ zeros 63)) 7 = phaseAt 4 (0 % 8) ∧ bit (gctl (leBytes 1 0xC0 ++ zeros 63)) 6 = true ∧
    bits (gctl (leBytes 1 0xD0 ++ zeros 63)) 5 4 ≠ 0 := by decide +kernel
/-- The four outcomes of framing at the first position of a ring of four granules. -/
theorem witness_frames : frame 4 0 (.data (zeros 64)) [] = .notNew ∧
    frame 4 0 (.data (leBytes 1 0xC1 ++ zeros 63)) [.data (zeros 64)] = .contNotNew ∧
    frame 4 0 (.failed true) [] = .fault 6 true ∧
    frame 4 0 (.data (leBytes 1 0xC0 ++ zeros 63)) [] = .entry (leBytes 1 0xC0 ++ zeros 63) [] := by decide +kernel
theorem witness_push : (openRing 4).dev.link.halt = false ∧ ((openRing 4).dev.slice 0).pushFree.getLsbD (15 : Fin 16).val = true ∧
    (zeros 64).length + 192 ≤ 256 := by decide
theorem test_push_posts : leads (exec (.pushSlotPost 0 3 0 (zeros 64)) (openRing 4)) (fun t =>
    !(t.dev.slice 0).pushFree.getLsbD 3) = true := by decide +kernel

/-- A device whose queue 0 may fetch. -/
def fetching : State :=
  { openRing 4 with
    dev := ((openRing 4).dev.modSlice 0 (fun x => { x with cfg := slice0Cfg })).modSq 0 0 (fun x => { x with prod := some 1 }) }

theorem witness_fetch : mayFetch fetching.dev 0 0 = true ∧ (fetching.dev.sq 0 0).notNewAt = none ∧
    (fetching.dev.sq 0 0).contAt = none := by decide +kernel
theorem witness_reread : let d := fetching.dev.modSq 0 0 (fun x => { x with notNewAt := some 0 })
    mayFetch d 0 0 = true ∧ (d.sq 0 0).notNewAt ≠ none ∧ doorbellDue (d.sq 0 0) = true ∧ (d.sq 0 0).rereadAt ≤ d.clk ∧
    (d.sq 0 0).contAt = none := by decide +kernel
theorem witness_conts : let d := fetching.dev.modSq 0 0 (fun x => { x with contAt := some 0 })
    mayFetch d 0 0 = true ∧ (d.sq 0 0).contAt ≠ none := by decide +kernel
theorem witness_push_turn :
    let d := (fetching.dev.modSq 0 0 (fun x => { x with prod := none })).modSlice 0 (fun x => { x with pushFree := 0xFFFE })
    pushReady d 0 0 = true ∧ pushReady up.dev 0 0 = false := by decide +kernel
theorem witness_held : let c := { cmdOf .echo [] (pktOf 0 0 0 [] 0) with stage := .held }
    findCmd (upWith (fun d => { d with cmds := [c] })).dev 7 = some c ∧ c.stage = .held ∧ c.pkt.nbv = false := by decide +kernel
theorem witness_held_waits : let p := { pktOf 0 0 0 [] 0 with flags := 1, notBefore := 1 }
    p.nbv = true ∧ up.dev.devTime < p.notBefore ∧ actionAhead up.dev = false ∧ (0 : Nat) ≤ up.dev.devTime ∧
    actionAhead (modAction 3 (fun _ => { actionFree with live := true, serial := 1, tick := 0 }) up.dev) = false ∧
    actionAhead { (modAction 3 (fun _ => { actionFree with live := true, serial := 1, tick := 0 }) up.dev) with
      board := { (modAction 3 (fun _ => { actionFree with live := true, serial := 1, tick := 0 }) up.dev).board with
        lock := .master } } = true := by decide +kernel

/-! Slices. -/

/-- `up` in life-cycle state CUSTOMER_INIT, with slice 1 in the state given. -/
def slice1 (st : SliceSt) : State :=
  upWith (fun d => { (d.modSlice 1 (fun x => { x with st := st })) with otp := { d.otp with state := ⟨0x3FFFF, 0x3FFFF, 0x3FFFF⟩ } })

/-- A configuration block in range. -/
def goodBlock : Bytes :=
  leBytes 4 16 ++ leBytes 4 64 ++ leBytes 2 100 ++ leBytes 2 100 ++ leBytes 2 100 ++ leBytes 2 100 ++ leBytes 2 1023 ++ [1, 1, 0]
    ++ zeros 11

theorem witness_window : (0x1000000 : Nat) < 255 * 65536 + 65535 + 2 ∧ 255 * 65536 + 65535 + 1 ≤ 0x1000000 ∧
    bar2Open Dev.reset 0 = false := by decide +kernel
theorem test_page_handed_over : leads (exec (.xwOwnerWrite 0 15 1) (openRing 4)) (fun t => ((t.dev.slice 0).page 15).owner) = true := by
  decide +kernel
theorem test_mailbox : leads (exec (.t2mPost 0) (openRing 4)) (fun t => (t.dev.slice 0).t2mFull
    && t.dev.link.msixPend.getLsbD 0) = true := by decide +kernel
theorem test_int_clear : leads (exec (.intPendingClear 0 0xF) (openRing 4)) (fun t => (t.dev.slice 0).intPend == 0) = true := by
  decide +kernel
theorem witness_create : (∃ mask cfg, clampCfg (slice1 .free).dev 1 goodBlock = .inr (mask, cfg)) ∧
    createRefused (slice1 .free).dev 1 = false ∧ ((slice1 .free).dev.slice 1).st = .free ∧
    ((slice1 .active).dev.slice 1).st ≠ .free ∧ ((slice1 .paused).dev.slice 1).st = .paused ∧
    ∀ cfg, windowOwed (createSlice 1 cfg (slice1 .free).dev).2 1 = false := by
  refine ⟨⟨_, _, rfl⟩, by decide +kernel, by decide +kernel, by decide +kernel, by decide +kernel, fun _ => rfl⟩
theorem test_clamp_nothing : (match clampCfg (slice1 .free).dev 1 goodBlock with
    | .inr (m, c) => m == 0 && c.cap == 64 && c.shCipher == 1023
    | _ => false) = true := by decide +kernel
theorem test_clamp_cap : (match clampCfg (slice1 .free).dev 1 (leBytes 4 16 ++ leBytes 4 63 ++ goodBlock.drop 8) with
    | .inr (m, c) => m == 2 && c.cap == 64
    | _ => false) = true := by decide +kernel
theorem witness_pasid : allZero (seg (leBytes 4 3 ++ leBytes 4 0xFFFFF) 1 3) = true ∧
    field (leBytes 4 3 ++ leBytes 4 0xFFFFF) 4 4 < 2 ^ 20 ∧ field (leBytes 4 3 ++ leBytes 4 0xFFFFF) 0 1 ≤ 3 ∧
    noPasids (slice1 .active).dev 1 = false ∧ allZero (([3, 0, 0, 0] : Bytes).drop 1) = true := by decide +kernel
theorem witness_closing : let d := (slice1 .active).dev.modSlice 1 (fun x => { x with pasids := [⟨true, 5, true⟩, ⟨false, 0, false⟩,
      ⟨false, 0, false⟩, ⟨false, 0, false⟩] })
    (d.pslot 1 0).closing = true ∧ (d.pslot 1 3).closing = false ∧
    d.cmds.any (fun e => e.slice == 1 && e.inFlight && namesSlot e 0) = false := by decide +kernel

/-! Faults, tamper commands, diagnostics. -/

theorem witness_fault : up.dev.powered = true ∧ up.dev.link.halt = false ∧ (419 : Nat) ≠ 407 ∧
    up.dev.prot.pendingFc.getLsbD 407 = false ∧ tfind up.dev.prot.log 0 = none ∧ faultClass 402 = 1 ∧
    up.dev.prot.firstInfo.getLsbD 31 = false ∧ up.dev.link.errNLow = (up.dev.prot.fatal || up.dev.prot.pendingFc != 0) := by
  decide +kernel
theorem test_contained : leads (exec (.faultDetect 401 0x1234 1 none) up) (fun t => t.dev.prot.pendingFc.getLsbD 401
    && t.dev.link.errNLow && t.dev.prot.firstAddr == 0x1234) = true := by decide +kernel
theorem test_fatal_halts : leads (exec (.faultDetect 412 0 0 none) up) (fun t => t.dev.link.halt && t.dev.prot.fatalSource == 412) = true := by
  decide +kernel
theorem test_pending_clear : leads (exec (.fcPendingClear 12 0x20000 true) (upWith (raiseFault 401 0 0 none))) (fun t =>
    !t.dev.prot.pendingFc.getLsbD 401) = true := by decide +kernel
theorem witness_resume : let d := upWith (fun d => { d with prot := { d.prot with st := .hold } })
    d.dev.prot.active = 0 ∧ d.dev.prot.latched = false ∧ d.dev.prot.st = .hold := by decide
theorem test_fuse : (fuseDone 7 8 (upWith (fun d => { d with prot := { d.prot with fuseDue := some (7, 8), active := 12 } })).dev).otp.fuses = 8 ∧
    (fuseDone 7 8 (upWith (fun d => { d with prot := { d.prot with fuseDue := some (7, 8), active := 12 } })).dev).prot.active = 4 ∧
    { Otp.shipped with fuseTorn := some 6 }.fuses = 0 ∧ (fuseWord 6 { Otp.shipped with fuseTorn := some 6 }).fuses = 6 ∧
    (fuseWord 2 { Otp.shipped with fuseTorn := some 6 }).fuses = 0 := by decide +kernel
theorem witness_fuse : (slice1 .free).dev.lc = 18 ∧ (0x80000000 : BitVec 32) &&& ~~~fusable = 0 ∧ field (leBytes 8 0x80000000) 4 4 = 0 := by
  decide +kernel
theorem witness_self_test : (BitVec.ofNat 32 1 : BitVec 32) &&& (up.dev.otp.fuses ||| 0x60000000) = 0 ∧ up.dev.hold = false ∧
    up.dev.prot.caution = false ∧ (List.range 32).filter (fun k => (1#32).getLsbD k) ≠ [] ∧
    (0x20000000 : BitVec 32) &&& (up.dev.otp.fuses ||| 0x60000000) ≠ 0 := by decide +kernel
theorem witness_entropy : up.dev.prot.entropy.all (·.failed) = false ∧
    (List.replicate 4 (⟨true, 0, 0⟩ : Entropy)).all (·.failed) = true := by decide
theorem witness_inject : allZero (([0xA3, 1] : Bytes).drop 2) = true ∧ field ([0xA3, 1] : Bytes) 0 2 < 420 ∧
    420 ≤ field ([0xA4, 1] : Bytes) 0 2 ∧ allZero (([0, 0, 1] : Bytes).drop 2) = false := by decide +kernel

/-! The scheduler and the stages after it. -/

/-- A command running on an engine, at its end. -/
def ended : Cmd := { cmdOf .hash [.hash] (pktOf 0x401 1 0 [] 0) with outcome := some { status := .ok, outs := [], result := [] } }

theorem witness_round : up.dev.alive = true ∧ up.dev.link.started = true ∧
    (upWith (fun d => { d with clk := 1000 })).dev.sched.lastRound + 1000 ≤ (upWith (fun d => { d with clk := 1000 })).dev.clk := by decide
theorem test_round : leads (exec .schedulingRound (upWith (fun d => { d with clk := 1000 }))) (fun t => t.dev.sched.rounds == 1
    && t.dev.sched.lastRound == 1000) = true := by decide +kernel
theorem witness_start : mayStart up.dev = true ∧ mayStart Dev.reset = false := by decide +kernel
theorem witness_end : findCmd (upWith (fun d => { d with cmds := [ended] })).dev 7 = some ended ∧ ended.stage = .running ∧
    ended.endAt ≤ up.dev.clk ∧ (ended.overlap && isSecret up.dev ended) = false ∧
    (let c := { ended with overlap := true, pkt := pktOf 0x301 0 0 [] 0, op := .mlkemKeygen }
     (c.overlap && isSecret up.dev c) = true ∧ c.retried = false) := by decide +kernel
theorem test_job_end : leads (exec (.engineJobEnd 7) (upWith (fun d => { d with cmds := [ended] }))) (fun t =>
    t.dev.cmds.all (fun c => c.stage == .results && c.units.isEmpty)) = true := by decide +kernel
theorem witness_results : let c := { ended with stage := .results }
    findCmd (upWith (fun d => { d with cmds := [c] })).dev 7 = some c ∧ up.dev.dmaHeld = false ∧
    taken c (upWith (fun d => { d with cmds := [c] })).dev = none ∧ c.foreign = none := by decide +kernel

/-- A slice with a finished record and a ring that takes it. -/
def finished : State :=
  upWith (fun d => { ((d.modSlice 0 (fun x => { x with st := .active })).modCq 0 0 (fun x => { x with st := .running, depth := 4 })) with
    cmds := [{ ended with stage := .done }] })

theorem witness_release : mayRelease finished.dev 0 0 = true ∧ releasable finished.dev 0 0 ≠ [] ∧
    (finished.dev.slice 0).decom = none ∧ mayRelease up.dev 0 0 = false := by decide +kernel
theorem test_release : leads (exec (.completionRelease 0 0 none) finished) (fun t => t.dev.cmds.isEmpty && (t.dev.cq 0 0).head == 1) = true := by
  decide +kernel
theorem witness_service : uclassOf 255 = none ∧ (uclassOf 0).isSome = true ∧
    field ([0, 1, 0, 0, 0, 0, 0, 0] : Bytes) 4 4 = 0 := by decide +kernel
theorem witness_units : let d := (setUnitSt .lattice 0 .draining up.dev)
    (d.unit .lattice 0).st = .draining ∧ unitUsed d .lattice 0 = 0 ∧ (d.unit .lattice 0).testFor = none ∧
    ((setUnitSt .lattice 0 .testing up.dev).unit .lattice 0).st = .testing ∧
    ((setUnitSt .lattice 0 .testing up.dev).unit .lattice 0).testEnd ≤ up.dev.clk := by decide +kernel
theorem witness_stream : let x : Stream := ⟨9, 0, .hash, 0, [], [], 0, none, 0, [], [], 0⟩
    (((up.dev.modSlice 0 (fun y => { y with streams := [x] })).slice 0).streams.find? (fun y => y.sid == 9)) = some x := by
  decide +kernel
theorem witness_class_empty : let c := { cmdOf .hash [.hash] (pktOf 0x401 1 0 [] 0) with stage := .ready }
    let d := upWith (fun d => { d with cmds := [c], clk := 1000000, sched := { d.sched with emptySince := [(uclassNo (ucOf .hash), 0)] } })
    findCmd d.dev 7 = some c ∧ c.stage = .ready ∧ EngClass.hash ∈ c.classes ∧
    inServiceCount d.dev (ucOf .hash) = 0 ∧
    tfind d.dev.sched.emptySince (uclassNo (ucOf .hash)) = some 0 := by decide +kernel

/-! The board. -/

/-- A bound device at position 1 whose ports are UP, with the board changed. -/
def ring (f : Board → Board) : State :=
  upWith (fun d => { d with
    link := { d.link with boardId := 1 }
    board := f { d.board with key := some (zeros 32), ports := [{ Port.reset with link := .up }, { Port.reset with link := .up }] } })

/-- A flit from position 0 to position 1. -/
def flit (typ : Nat) : FlitHdr := { typ := typ, src := 0, dst := 1, hops := 1, used := 0, linkSeq := 1, tagOk := true }

/-- A flit of every type the statements name arrives. -/
theorem witness_arrives : ∀ typ : Fin 11, Arrives (ring id).dev 0 (flit typ) typ := by
  intro typ; refine ⟨rfl, rfl, rfl, rfl, rfl, rfl, ?_, rfl⟩; decide +revert
theorem witness_flits : (ring id).dev.powered = true ∧ (ring id).dev.link.started = true ∧ ((ring id).dev.port 1).link = .up ∧
    (2 : Nat) ≠ ((ring id).dev.port 0).rxSeq + 1 ∧ 1 ≤ (flit 1).typ ∧ (flit 10).typ ≤ 10 ∧ 10 < (flit 11).typ ∧ (flit 0).typ < 1 ∧
    (3 : Nat) ≠ (ring id).dev.pos ∧ (3 : Nat) ≠ 0xFF := by decide
theorem test_bad_tag : leads (exec (.creditAdvertFlit 0 { flit 6 with tagOk := false } [] [] []) (ring id)) (fun t =>
    (t.dev.port 0).link == .training && (t.dev.port 0).flitErr == 1) = true := by decide +kernel
theorem witness_time : (ring id).dev.bound = true ∧ (ring id).dev.board.lock = .unlocked ∧
    (ring (fun b => { b with lock := .follower, followed := true, lost := 2 })).dev.board.lost = 2 ∧
    (ring (fun b => { b with lock := .master })).dev.board.lock = .master ∧
    (ring (fun b => { b with lostAt := some 0 })).dev.board.lostAt = some 0 := by decide
theorem test_time_locks : leads (exec (.timeFlit 0 (flit 1) 1000000 5) (ring id)) (fun t => t.dev.devTime == 1000005
    && t.dev.board.lock == .follower) = true := by decide +kernel
theorem test_edge_missed : leads (exec .tsyncEdgeMissing (upWith (fun _ =>
    { (ring (fun b => { b with lock := .follower, followed := true, lost := 2 })).dev with clk := 3000000 }))) (fun t => t.dev.board.lock == .unlocked && t.dev.board.lost == 3) = true := by
  decide +kernel
theorem witness_spill_clamp : allZero (seg (zeros 16) 12 4) = true ∧ field ([31, 1] ++ zeros 14) 0 1 ≤ 31 ∧
    1 ≤ field ([31, 1] ++ zeros 14) 1 1 ∧ (∀ k : Fin 5, field (([31, 1] : Bytes) ++ zeros 14) (2 + 2 * k.val) 2 ≤ 1023) ∧
    allZero (seg (zeros 15 ++ [1]) 12 4) = false := by decide +kernel
theorem witness_spilled : let c := { ended with stage := .spilled }
    let d := { (ring (fun b => { b with spillOut := [⟨7, 0, 5⟩] })).dev with cmds := [c] }
    findCmd (Heard d 0 (flit 5)) 7 = some c ∧ c.stage = .spilled ∧
    (Heard d 0 (flit 5)).board.spillOut.any (fun o => o.cmd == 7 && o.port == 0) = true ∧ statusOf 0 = some .ok ∧
    opOfCode 0xFFFF = none ∧ opOfCode 0x0501 ≠ none := by decide +kernel
theorem witness_action : let a : ActionEntry := { actionFree with live := true, serial := 1, tick := 0 }
    let d := (modAction 3 (fun _ => a) (ring (fun b => { b with lock := .master })).dev)
    actionDue d (d.action 3) = true ∧ actionDue d (d.action 4) = false ∧ d.alive = true ∧
    d.board.actions.any (fun e => actionDue d e.2 && keyLt (fireKey e.1 e.2) (fireKey 3 (d.action 3))) = false := by decide +kernel
theorem witness_action_slot : actionSlot up.dev = some 0 ∧
    (up.dev.board.actions.filter (fun e => e.2.live && decide (e.1 < 224))).length < 224 ∧ field (zeros 32) 3 1 = 0 ∧
    allZero (seg (zeros 32) 24 8) = true ∧ actionBad up.dev (cmdOf .schedAdd [] (pktOf 0 0 0 [] 0)) (255 :: zeros 31) = true := by
  decide +kernel
theorem witness_cancel : let a : ActionEntry := { actionFree with live := true, serial := 1, tick := 1 }
    let d := (modAction 223 (fun _ => a) up.dev)
    (d.action 223).live = true ∧ (d.action 223).serial = 1 ∧ actionDue d (d.action 223) = false ∧ (d.action 223).boardNo = none ∧
    field ([223, 1, 0, 0, 0, 0, 0, 0] : Bytes) 0 1 = 223 ∧ field ([223, 1, 0, 0, 0, 0, 0, 0] : Bytes) 1 3 = 1 ∧
    224 ≤ field ([224, 1, 0, 0, 0, 0, 0, 0] : Bytes) 0 1 := by decide +kernel
theorem witness_bind : up.dev.board.bind = none ∧ up.dev.bound = false ∧ allZero (seg (zeros 8 ++ [2, 0] ++ zeros 300) 10 6) = true ∧
    allZero (seg (zeros 8 ++ [2, 0, 1] ++ zeros 300) 10 6) = false ∧ field (zeros 8 ++ [2, 0] ++ zeros 300) 8 1 = 2 := by decide +kernel
theorem witness_ports : up.dev.link.domainsOff.contains 27 = false ∧ (0 : Nat) ≠ (ring id).dev.pos := by decide +kernel
theorem test_port_trained : leads (exec (.portTrained 1 true (zeros 32)) (ring id)) (fun t => (t.dev.port 1).link == .up
    && (t.dev.port 1).lanes == 4) = true := by decide +kernel
theorem witness_mirror : (ring (fun b => { b with member := .inSync })).dev.board.member = .inSync ∧
    (ring (fun b => { b with member := .resync })).dev.board.member = .resync := by decide +kernel
theorem witness_free_mid : freeMid (ring id).dev = some 512 := by decide +kernel
theorem witness_no_prepare : (Heard (ring (fun b => { b with member := .inSync })).dev 0 (flit 3)).prepare 5 = none := by decide +kernel
theorem witness_prepare : let p : Prepare := ⟨⟨true, false, 0, [], 5, []⟩, none, 0, none, [0], true, 0, false⟩
    let d := (ring (fun b => { b with prepares := [p], lock := .master })).dev
    d.prepare 5 = some p ∧ d.alive = true ∧ d.board.lock = .master ∧ p.committed = false ∧ p.nak = true := by decide +kernel
theorem witness_serving : let p : Prepare := ⟨⟨true, false, 0, [], 5, []⟩, some 7, 1, none, [0], false, 0, false⟩
    let d := (ring (fun b => { b with prepares := [p], lock := .master })).dev
    d.prepare 5 = some p ∧ p.nak = false ∧
    (List.range 8).all (fun q => !d.board.serving.getLsbD q || p.acks.contains q) = true ∧
    (placeCommit 5 1 100000 d).isSome = true := by decide +kernel
theorem test_tamper_flit : leads (exec (.tamperFlit 0 (flit 2) 0 1) (ring id)) (fun t => t.dev.board.incident) = true := by
  decide +kernel

/-! Custody, the ledger. -/

theorem witness_transition : up.dev.link.tokenUntil ≤ up.dev.clk ∧ lcAllowed up.dev up.dev.lc 0 = false ∧
    lcAllowed up.dev up.dev.lc 18 = true ∧ allZero (seg (zeros 48) 1 7) = true ∧ up.dev.otp.slots.length < 31 := by decide +kernel
theorem test_move : (lcMove 7 18 (zeros 256) up.dev).link.lcRun = some ⟨7, 17, 18, zeros 256, 4⟩ ∧
    leads (exec .otpWriteComplete (upWith (lcMove 7 18 (zeros 256)))) (fun t => t.dev.otp.mode == 0
      && t.dev.link.lcRun == some ⟨7, 17, 18, zeros 256, 5⟩ && t.dev.linen.ipend.getLsbD 19) = true := by
  decide +kernel
theorem witness_lc_run (step dest : Nat) : let d := { up.dev with link := { up.dev.link with lcRun := some ⟨7, 17, dest, [], step⟩ } }
    d.alive = true ∧ d.link.lcRun = some ⟨7, 17, dest, [], step⟩ := ⟨rfl, rfl⟩
theorem test_last_step : leads (exec .otpWriteComplete (upWith (fun d => { d with
    link := { d.link with lcRun := some ⟨7, 17, 18, [], 6⟩ } }))) (fun t => t.dev.lc == 18 && t.dev.link.lcClosed) = true := by
  decide +kernel
theorem witness_debug : isTest up.dev.lc = false ∧ up.dev.link.debugNonce = none := by decide +kernel
theorem witness_custodian : let b : Bytes := [15, 2, 0, 0, 0, 0, 0, 0] ++ zeros 32
    allZero (seg b 2 6) = true ∧ field b 0 1 ≤ 15 ∧ 1 ≤ field b 1 1 ∧ field b 1 1 ≤ 2 ∧
    (up.dev.custody 0).custodians.any (·.cid == field b 0 1) = false := by decide +kernel
theorem witness_quorum : (ownQuorum up.mem up.dev (cmdOf .custodianRemove [] (pktOf 0 0 0 [] 0)) 3 none).bad = none ∧
    (ownQuorum up.mem up.dev (cmdOf .auditReset [] (pktOf 0 0 0 [] 0)) 4 none).bad = some .quorumMissing := by decide +kernel
theorem witness_component : allZero (seg ([8, 0, 0, 0, 0, 1, 2, 3] : Bytes) 1 4) = true ∧ compType 3 = true ∧
    2 ≤ field ([8, 0, 0, 0, 0, 1, 2, 3] : Bytes) 0 1 ∧ field ([8, 0, 0, 0, 0, 1, 2, 3] : Bytes) 0 1 ≤ 8 ∧
    (up.dev.custody 0).comp = none ∧ (up.dev.custody 0).staged = none := by decide +kernel
theorem witness_audit : let b := leBytes 8 64 ++ leBytes 4 16777216 ++ zeros 4 ++ leBytes 8 8 ++ leBytes 8 64 ++ leBytes 4 65536 ++ zeros 12
    allZero (seg b 13 3) = true ∧ allZero (seg b 0x24 12) = true ∧ field b 0 8 % 64 = 0 ∧ field b 8 4 ≤ 16777216 ∧
    64 ≤ field b 8 4 ∧ field b 0x10 8 % 8 = 0 ∧ field b 0x18 8 % 64 = 0 ∧ field b 0x20 4 ≤ 65536 ∧
    ((up.dev.custody 0).audit).inRing = 0 := by decide +kernel
theorem witness_owed : let d := up.dev.modCust 0 (fun x => { x with audit := { x.audit with owed := [(0, 0, zeros 64, zeros 32)], configured := true } })
    ((d.custody 0).audit).owed = [(0, 0, zeros 64, zeros 32)] ∧ ((d.custody 0).audit).configured = true ∧ d.dmaHeld = false := by
  decide +kernel

/-- A request for an AES-256 key. -/
def kar : Bytes := [3, 0, 0, 0] ++ leBytes 4 3 ++ zeros 24

theorem witness_kar : karCheck up.dev kar false = none ∧ (reqOf kar).typ = 3 ∧ isAsym 3 = false ∧ isAsym 0x48 = true ∧
    karCheck up.dev (zeros 12 ++ [1] ++ zeros 19) false ≠ none := by decide +kernel

/-- A device whose ledger holds `aKey` at index 0, and a command that names it. -/
def keyed (o : Op) : State × Cmd :=
  let d := setEnt 0 aKey up.dev
  let c := { cmdOf o [] (pktOf 0 0 0 [] 0) with keys := [⟨0, 0, handleOf 0 1, aKey⟩], pkt := { pktOf 0 0 0 [] 0 with keys := [handleOf 0 1, 0, 0] } }
  ({ up with dev := { d with cmds := [c] } }, c)

theorem witness_key : let s := (keyed .keyDestroy).1
    let c := (keyed .keyDestroy).2
    findCmd s.dev 7 = some c ∧ canRun s.mem s.dev c = true ∧ c.keys.head? = some ⟨0, 0, handleOf 0 1, aKey⟩ ∧ (s.dev.ent 0).st = .active ∧
    (s.dev.ent 0).gen = hGen (c.pkt.keys.getD 0 0) ∧ (s.dev.ent 0).has fMirrored = false ∧ (s.dev.ent 0).has fStateful = false ∧
    (s.dev.ent 0).shadow = none ∧ c.key 0 = some aKey := by decide +kernel
theorem test_key_destroy : leads (exec (.keyDestroy 7) (keyed .keyDestroy).1) (fun t => (t.dev.ent 0).st != .active) = true := by
  decide +kernel
theorem witness_restrict : anyBit 1 (2 ^ 32 - 1 - aKey.usage) = false ∧ anyBit 4 (2 ^ 32 - 1 - aKey.usage) = true ∧
    field (leBytes 4 1 ++ zeros 20) 16 8 = 0 := by decide +kernel
theorem witness_room : let d := up.dev.modSlice 0 (fun x => { x with cfg := slice0Cfg })
    roomFor d 0 0 = true ∧ roomFor up.dev 0 0 = false := by decide +kernel

/-! Further premises of the statements. Where a premise is a check of a standard's function (`Config.stdOk`) it has no concrete
witness, because that function has no body. -/

theorem witness_window_owed (cfg : SliceCfg) :
    let d := (upWith (fun d => { d with dma := { d.dma with zeroing := [none] } })).dev
    windowOwed (createSlice 1 cfg d).2 1 = true := rfl
theorem witness_names_slot : let c := cmdOf .hash [.hash] (pktOf 0x401 1 1 (leBytes 8 0x1000 ++ leBytes 4 0 ++ leBytes 4 8) 0)
    (List.range 4).map (namesSlot c) = [false, false, true, false] := by decide +kernel
/-- A HASH of one inline byte that waits for a lane. -/
def chosen : Cmd :=
  { cmdOf .hash [.hash] (pktOf 0x401 1 2 (leBytes 8 0 ++ leBytes 4 1 ++ leBytes 4 2 ++ leBytes 8 0 ++ leBytes 4 32 ++ leBytes 4 1
      ++ [5]) 1) with
    stage := .ready }

/-- A device that holds it, in a slice with shares. -/
def dispatching (f : Dev → Dev) : State :=
  upWith (fun d => f { (d.modSlice 0 (fun x => { x with st := .active, cfg := slice0Cfg })) with cmds := [chosen] })

theorem witness_dispatch : let s := dispatching (setUnitSt .hash 0 .inService)
    let go (s : State) : Option Cmd :=
      (dispatchFirst (offers s.mem (noteReady .hash (dropGathers s.dev)) .hash) (noteReady .hash (dropGathers s.dev))).1
    mayStart s.dev = true ∧ go s = some chosen ∧ go up = none := by decide +kernel
theorem witness_spillable : let s := dispatching (fun d => { d with clk := 2000, link := (ring id).dev.link, board := (ring (fun b => { b with
      serving := 0xFF, outClasses := 31, wait := 1, adverts := [(0, ⟨[1, 1, 1, 1, 1], [1, 1, 1, 1, 1], [(0, d.mkId 0)]⟩)] })).dev.board })
    spillable s.mem s.dev 0 chosen = true ∧ mayStart s.dev = true ∧ drawsFor chosen.op (partsOf s.dev chosen) = false ∧
    findCmd s.dev 7 = some chosen ∧ spillable up.mem up.dev 0 chosen = false := by decide +kernel

theorem witness_taken : let d := setEnt 3 { blankEntry 1 with st := .pending, cascaded := true } up.dev
    taken { cmdOf .keyGenerate [] (pktOf 0x201 0 0 [] 0) with entry := some 3 } d = some .keyParentRevoked ∧
    taken { cmdOf .keyGenerate [] (pktOf 0x201 0 0 [] 0) with entry := some 4 } d = none := by decide +kernel
theorem witness_failed_write : ((fun (w : Option Nat) => w.filter (fun i => decide (i < 2))) (some 1) = some 1) ∧
    (some 2 : Option Nat).filter (fun i => decide (i < 2)) = none := by decide
theorem witness_clears : let d := (raiseFault 407 0 0 none (entropyFail 2 up.dev))
    (((BitVec.setWidth 448 (0xFFFFFFFF#32)) <<< (32 * 12)) &&& d.prot.pendingFc).getLsbD 407 = true ∧
    d.prot.entropy.any (·.failed) = true := by decide +kernel
theorem witness_tamper (st : TamperSt) : let d := { up.dev with prot := { up.dev.prot with st := st, latched := true } }
    d.prot.active = 0 ∧ d.prot.latched = true ∧ d.prot.st = st ∧
    ({ d with prot := { d.prot with active := 1, latched := false } } : Dev).prot.active ≠ 0 :=
  ⟨rfl, rfl, rfl, show (1 : BitVec 32) ≠ 0 by decide⟩
theorem witness_mid : let d := (ring (fun b => { b with member := .inSync, midTable := [(5, 0)] })).dev
    d.bound = true ∧ d.board.midTable.find? (fun x => x.2 == 0) = some (5, 0) ∧ d.prepare 5 = none ∧ d.board.member = .inSync := by
  decide +kernel
theorem witness_decommission : let c := { cmdOf .sliceDecommission [] (pktOf 0 0 0 [] 0) with stage := .waiting }
    let d (k : Bool) : Dev := { up.dev.modSlice 0 (fun x => { x with decom := some (7, k) }) with cmds := [c] }
    findCmd (d true) 7 = some c ∧ (∀ e ∈ (d true).cmds, e.slice = c.slice → 7 ≤ e.id) ∧ ((d true).slice 0).decom = some (7, true) ∧
    ((d false).slice 0).decom = some (7, false) ∧ (((d true).custody 0).audit).configured = false ∧
    (cmdOf .sliceDecommission [] (pktOf 0 0 0 [] 0)).stage ≠ .waiting := by
  decide +kernel
theorem witness_floor_due : let d := { up.dev with micro := { up.dev.micro with floorDue := some (7, 3) } }
    d.alive = true ∧ d.link.lcRun = none ∧ d.micro.floorDue = some (7, 3) ∧ up.dev.micro.floorDue = none := by decide
theorem witness_entry_held : ({ cmdOf .keyGenerate [] (pktOf 0x201 0 0 [] 0) with entry := some 3 } : Cmd).entry = some 3 ∧
    unitsUsed (setEnt 3 aKey up.dev) 0 - ((setEnt 3 aKey up.dev).ent 3).units + 1 ≤ unitsAllowed (dispatching id).dev 0 ∧
    unitsAllowed up.dev 0 < unitsUsed (setEnt 3 aKey up.dev) 0 - ((setEnt 3 aKey up.dev).ent 3).units + 1 := by decide +kernel
theorem witness_nmi : let d := modLinen (fun l => { l with nmiPend := true, rep := some (5, false, 4) }) up.dev
    nextVec d.linen = some 64 ∧ d.linen.rep = some (5, false, 4) ∧ d.linen.halted = false ∧ d.powered = true := by decide +kernel
theorem witness_region_left : let d := modLinen (fun l => { l with sr := 0x8000, pc := 0xDFFF, hook := some (7, 0) }) up.dev
    d.linen.policyMode = true ∧ d.linen.pc.toNat < 0xE000 ∧ d.linen.hook.isSome = true ∧ d.linen.waiting = false ∧ d.linen.rep = none := by
  decide +kernel

/-- The manifest of two devices that gives a digest at position 1. -/
def manifestOf (x : Bytes) : Bytes := zeros 8 ++ [2, 0] ++ zeros 38 ++ (x ++ zeros 192)
theorem witness_bound (x : Bytes) (h : x.length = 32) : manifestDig (manifestOf x) 1 = x ∧
    allZero (seg (manifestOf x) 10 6) = true ∧ field (manifestOf x) 8 1 = 2 ∧ field (manifestOf x) 9 1 = 0 := by
  have l : ((zeros 8 ++ [2, 0] ++ zeros 38 : Bytes)).length = 48 := by decide
  refine ⟨?_, by simp [manifestOf, seg, zeros, allZero], ?_, ?_⟩
  · rw [manifestDig, manifestOf, seg, List.drop_append, l, List.drop_of_length_le (Nat.le_of_eq l), List.nil_append]
    simp [h]
  · rfl
  · rfl
theorem witness_digest_len (d : Dev) : (idDigest d).length = 32 := by
  simp only [idDigest, sha3_256, std, fit, zeros, List.length_append, List.length_take, List.length_replicate]
  omega

/-! Engines: what does not rest on a standard's function. -/

theorem test_cut : cut 4 ([1, 2, 3, 4, 5] : Bytes) = [[1, 2, 3, 4], [5]] := by decide +kernel
theorem test_ctr_undoes : ctrMode (fun _ => [1, 2]) (fun _ => []) 0 (cut 2 (ctrMode (fun _ => [1, 2]) (fun _ => []) 0 (cut 2 [5, 6, 7, 8]))) =
    [5, 6, 7, 8] := by decide +kernel
theorem witness_block_len : (∀ b : Bytes, ((fun _ => zeros 2) b : Bytes).length = 2) ∧
    ∀ x ∈ ([[1, 2], [3, 4]] : List Bytes), x.length = 2 := by
  constructor
  · intro b; rfl
  · decide
theorem witness_segment : (pktOf 0x701 1 0 [] 0).segf = 0 ∧ ({ pktOf 0x701 1 0 [] 0 with flags := 0x30 }).segf = 3 ∧
    ({ pktOf 0x701 1 0 [] 0 with flags := 0x10 }).segf = 1 := by decide +kernel
theorem witness_drbg : (up.dev.prot.drbg.getD 0 ⟨[], [], 0⟩).count < 2 ^ 20 ∧ entropyOk up.dev = true ∧
    entropyOk (upWith (fun d => { d with prot := { d.prot with entropy := List.replicate 4 ⟨true, 0, 0⟩ } })).dev = false := by
  decide +kernel

/-! Sequencers and module jobs. -/

/-- A module job running on a Damask core, or on eight Serge slices, its engine memory wiped, and its context. -/
def job (k : EngClass) : State × Cmd :=
  let c := { cmdOf .moduleOp [k] (pktOf 0x3C0 5 0 [] 0) with units := [⟨ucOf k, 0, 8, 100⟩] }
  (upWith (fun d => { d with cmds := [c], micro := { d.micro with jobs := [(7, { jobZero with started := true })], ctxs := [(0, ctxStart 7 0x100)] } }), c)

theorem witness_acts : Acts (job .lattice).1.dev 7 (job .lattice).2 .lattice := ⟨rfl, rfl, by decide, by decide, by decide⟩
theorem witness_acts_serge : Acts (job .classical).1.dev 7 (job .classical).2 .classical := ⟨rfl, rfl, by decide, by decide, by decide⟩
theorem witness_operand : operandOk (job .classical).2 0 4 = true ∧ operandOk (job .classical).2 1792 256 = true ∧
    operandOk (job .classical).2 1793 256 = false ∧ operandOk (job .classical).2 0 257 = false ∧
    operandOk (job .classical).2 0 3 = false := by decide +kernel
theorem witness_executes (form : Fin 8) : Executes (job .lattice).1.dev 0 (ctxStart 7 0x100) (job .lattice).2
    (BitVec.ofNat 160 (form.val * 2 ^ 141)) form := by
  refine ⟨rfl, rfl, ?_, rfl, rfl, .inl rfl, by decide, by decide, ?_⟩ <;> decide +kernel +revert
theorem test_word_goes_on : leads (exec (.microword 0 0 0) (job .lattice).1) (fun t =>
    (tfind t.dev.micro.ctxs 0).any (fun x => x.next == 0x101)) = true := by decide +kernel
theorem test_return_empty : leads (exec (.microReturn 0 0 (BitVec.ofNat 160 (4 * 2 ^ 141))) (job .lattice).1) (fun t =>
    t.dev.prot.pendingFc.getLsbD 224) = true := by decide +kernel
theorem test_set_modulus : leads (exec (.setModulus 7 0 4) (job .classical).1) (fun t => (t.dev.job 7).modWords == 4) = true := by
  decide +kernel
theorem test_job_fault : leads (exec (.sergeZero 7 0 3) (job .classical).1) (fun t => t.dev.prot.pendingFc.getLsbD 224) = true := by
  decide +kernel
theorem test_montgomery : montgomery 13 1 5 7 * 2 ^ 64 % 13 = 5 * 7 % 13 := by decide +kernel
theorem witness_slots : slotsFor .q3329 256 = 1 ∧ slotsFor .q8380417 256 = 1 ∧ slotsFor .q12289 512 = 1 := by decide +kernel
theorem witness_image : patchOk (zeros 64) = false ∧ up.dev.micro.vendorDue = none ∧ (Dev.reset.atRound = true ∧ up.dev.alive = true) := by
  decide +kernel
theorem witness_bank_due : let d := (upWith (fun d => { d with micro := { d.micro with vendorDue := some 7 } })).dev
    d.atRound = true ∧ d.alive = true ∧ d.micro.vendorDue = some 7 := by decide +kernel
theorem witness_module : let e := leBytes 2 0x3C0 ++ leBytes 2 0xC800 ++ zeros 60
    let c := { (job .lattice).2 with outcome := none }
    let d := { (job .lattice).1.dev with micro := { (job .lattice).1.dev.micro with jobs := [(7, jobZero)], ext := [(0, { noImage with modules := [e] })] } }
    findCmd d 7 = some c ∧ ctxKey d 7 = some 0 ∧ moduleOf d c = some e ∧ c.op = .moduleOp ∧ (d.job 7).started = false := by
  decide +kernel

/-! The DMA engine, memories, domains. -/

/-- A fill of 16 bytes of host memory at 0x1001, the last descriptor of its list. -/
def aFill : Bytes := leBytes 8 0x0102030405060708 ++ leBytes 8 0x1001 ++ leBytes 4 16 ++ leBytes 2 0x2000 ++ leBytes 2 0 ++ leBytes 8 0

/-- A compare of 4 bytes of host memory. -/
def aCompare : Bytes := leBytes 8 0x1000 ++ leBytes 8 0x2000 ++ leBytes 4 4 ++ leBytes 2 0x4000 ++ leBytes 2 0 ++ leBytes 8 0

theorem witness_go : (up.dev.chan 56).st = .idle ∧ up.dev.prot.pendingFc.getLsbD (272 + 56) = false ∧ up.dev.dmaHeld = false ∧
    aFill.length = 32 ∧ descError aFill = false ∧ descError (zeros 32) = true := by decide +kernel
theorem witness_fill : let d := modChan 63 (fun h => { h with st := .running, desc := aFill }) up.dev
    chanRuns d 63 = true ∧ (d.chan 63).desc ≠ [] ∧ dOp aFill = 1 ∧ dDstSpace aFill = 0 ∧ 0 < dCount aFill := by decide +kernel
theorem witness_compare : let d := modChan 56 (fun h => { h with st := .running, desc := aCompare, staged := zeros 4, stagedOther := zeros 4 }) up.dev
    chanRuns d 56 = true ∧ dOp aCompare = 2 ∧ dSrcSpace aCompare = 0 ∧ (d.chan 56).staged.length = dCount aCompare ∧
    (d.chan 56).stagedOther.length = dCount aCompare := by decide +kernel
theorem test_fill_bytes : fillBytes 0x0102030405060708 0x1001 3 = [7, 6, 5] := by decide +kernel
theorem test_first_diff : firstDiff [1, 2, 3] [1, 2, 4] = some 2 := by decide +kernel
theorem test_scratch_views : (scrPut (scrPut .zero 0x0 0x0F) 0x10000 0xF0).scr = [(0, 0xFF)] ∧
    (scrPut (scrPut .zero 0x0 0x0F) 0x20000 0x03).scr = [(0, 0x0C)] := by decide +kernel
theorem witness_cmd_read : let c := cmdOf .hash [.hash] (pktOf 0x401 1 1 (leBytes 8 0x1000 ++ leBytes 4 4 ++ zeros 4) 0)
    let d := { up.dev with cmds := [c] }
    findCmd d 7 = some c ∧ c.unfinished = true ∧ c.outcome = none ∧ c.dmaErr = none ∧ (0 : Nat) < c.pkt.ndesc ∧
    (c.pkt.desc 0).isOut = false ∧ (c.pkt.desc 0).len ≠ 0 ∧ (c.pkt.desc 0).space = 0 ∧ tfind c.inputs 0 = none := by decide +kernel
theorem witness_banks : let d := modBank 47 (fun k => { k with wiping := true }) up.dev
    (d.bank 47).wiping = true ∧ (d.bank 47).wipeEnd ≤ d.clk ∧ Inv { up with dev := d } ∧ bits (0x800 : BitVec 32).toNat 15 8 ≤ 8 ∧
    8 < bits (0x900 : BitVec 32).toNat 15 8 := by refine ⟨?_, ?_, rfl, ?_, ?_⟩ <;> decide +kernel
theorem test_bank_wiped : leads (exec (.scrOwnHandover 32 0x0100) up) (fun t => (t.dev.bank 32).owner == 1
    && !(t.dev.bank 32).wiping) = true := by decide +kernel
theorem witness_zeroing : let d := { up.dev with dma := { up.dev.dma with zeroing := [some 3, none] } }
    d.powered = true ∧ d.dma.zeroing.contains (some 3) = true ∧ d.dma.zeroing.contains none = true := by decide +kernel
theorem witness_domain : domainClass 1 = some .lattice ∧ domainClass 0 = none ∧ domainOut up.dev 1 = true ∧
    up.dev.link.domainsOff.contains 1 = false ∧ (up.dev.port 0).link = .down := by decide +kernel

/-! Linen. -/

theorem witness_executing : Executing State.reset := ⟨rfl, rfl, by decide⟩
theorem witness_exception : let d := modLinen (fun l => { l with ksp := 3, ipend := 1 <<< 16, sr := 0x3000 }) up.dev
    3 ≤ d.linen.ksp.toNat ∧ nextVec d.linen = some 16 ∧ d.linen.halted = false ∧ d.linen.rep = none ∧
    nextVec up.dev.linen ≠ some 26 := by decide +kernel
theorem test_exception : leads (exec (.exceptionEntry 20) (upWith (modLinen (fun l => { l with
    ksp := 0x5000, ipend := 1 <<< 20, sr := 0x3001, pc := 0x9000, vbr := 0x8000 })))) (fun t =>
      t.dev.linen.ksp == 0x4FFD && t.dev.linen.sr == 0x2001 && memGet t.mem.dram 0x4FFD == 0x9000
      && memGet t.mem.dram 0x4FFE == 0x3001 && t.dev.linen.ipend == 0) = true := by decide +kernel
theorem witness_timers_linen : let d := modLinen (fun l => { l with timer0 := 1, timer1 := 1 }) up.dev
    d.linen.timer0 = 1 ∧ d.linen.timer1 = 1 ∧ d.linen.policyMode = false ∧ linenRuns d = true := by decide +kernel
theorem witness_watchdog : let d := { up.dev with clk := 16000000 }
    d.linen.wdogHalf = false ∧ d.linen.wdogAt + 16000000 ≤ d.clk ∧ up.dev.clk < up.dev.linen.wdogAt + 8000000 := by decide +kernel
theorem witness_hook : let d := { (modLinen (fun l => { l with hook := some (7, 0) }) up.dev) with clk := 20000 }
    d.linen.hook = some (7, 0) ∧ 0 + 20000 ≤ d.clk := by decide +kernel
theorem witness_digest : (0x1001 : BitVec 16).getLsbD 0 = true ∧ up.dev.linen.sdu.owner = 15 ∧
    bits (0x1001 : BitVec 16).toNat 15 12 = 1 ∧ bits (0x9001 : BitVec 16).toNat 15 12 = 9 ∧ up.dev.linen.sdu.outLen.toNat ≤ 64 := by
  decide +kernel

/-- The digest unit of the kernel's task. -/
def sdu (f : Sdu → Sdu) : State := upWith (modLinen (fun l => { l with sdu := f { l.sdu with owner := 0, cur := ⟨1, [], 0, 32, 0⟩ } }))

theorem witness_digest_open : let u := (sdu (fun u => { u with opened := true })).dev.linen.sdu
    u.owner = 0 % 8 ∧ u.opened = true ∧ u.full = false ∧ u.last = none ∧
    (sdu (fun u => { u with opened := true, buffered := 64 })).dev.linen.sdu.full = true ∧
    (sdu (fun u => { u with valid := true, result := zeros 32, readPos := 30 })).dev.linen.sdu.readPos < 32 ∧
    (sdu (fun u => { u with finished := true })).dev.linen.sdu.busy = true ∧ u.busy = false := by decide +kernel
theorem test_din_last : leads (exec (.din 0x6261) (sdu (fun u => { u with opened := true }))) (fun t =>
    t.dev.linen.sdu.msg == [0x61, 0x62]) = true := by decide +kernel
theorem test_dout : leads (exec (.dout 2) (sdu (fun u => { u with valid := true, result := [0x34, 0x12] }))) (fun t =>
    svReg t.dev 2 == 0x1234 && t.dev.linen.sdu.readPos == 2) = true := by decide +kernel
theorem witness_restore : (sdu id).dev.linen.sdu.ctxIn.length + 1 < 192 ∧ (sdu id).dev.linen.sdu.busy = false := by decide +kernel

/-! The SV16: the edges that the manual names. -/

/-- V0 and V1 before an instruction, and what is in V0 and the flags after it. -/
def sv (i : Instr) (x y : Word16) : Option (Word16 × Word16) :=
  match exec i (upWith (fun d => svSet 1 y (svSet 0 x d))) with
  | .next t => some (svReg t.dev 0, t.dev.linen.sr)
  | _ => none

theorem test_neg_min : sv (.svNeg 0) 0x8000 0 = some (0x8000, 0x000E) := by decide +kernel
theorem test_add_carry : sv (.svAdd 0 (.reg 1)) 0xFFFF 1 = some (0, 0x0005) := by decide +kernel
theorem test_add_overflow : sv (.svAdd 0 (.reg 1)) 0x7FFF 1 = some (0x8000, 0x000A) := by decide +kernel
theorem test_sub_borrow : sv (.svSub 0 (.imm 2)) 1 0 = some (0xFFFF, 0x0006) := by decide +kernel
theorem test_cmp_writes_nothing : sv (.svCmp 0 (.reg 1)) 5 5 = some (5, 0x0001) := by decide +kernel
theorem test_asl_overflow : sv (.svAsl 0 (.imm 1)) 0x4000 0 = some (0x8000, 0x000A) := by decide +kernel
theorem test_lsl_16 : sv (.svLsl 0 (.imm 16)) 0xFFFF 0 = some (0, 0x0001) := by decide +kernel
theorem test_asr_31 : sv (.svAsr 0 (.imm 31)) 0x8000 0 = some (0xFFFF, 0x0006) := by decide +kernel
theorem test_rol_16 : sv (.svRol 0 (.imm 16)) 0x8001 0 = some (0x8001, 0x0002) := by decide +kernel
theorem test_ror_1 : sv (.svRor 0 (.imm 1)) 1 0 = some (0x8000, 0x0006) := by decide +kernel
theorem test_sdiv_min : sv (.svSdiv 0 1) 0x8000 0xFFFF = some (0x8000, 0x000A) := by decide +kernel
theorem test_udiv_zero : sv (.svUdiv 0 1) 5 0 = some (0xFFFF, 0x001A) := by decide +kernel
theorem test_sdiv_truncates : sv (.svSdiv 0 1) 0xFFF9 2 = some (0xFFFD, 0x0002) := by decide +kernel
theorem test_bcc_taken : leads (exec (.svBcc 0 0xFE) (upWith (modLinen (fun l => { l with pc := 0x100 })))) (fun t =>
    t.dev.linen.pc == 0xFF) = true := by decide +kernel
theorem test_bcc_not : leads (exec (.svBcc 1 0x10) (upWith (modLinen (fun l => { l with pc := 0x100 })))) (fun t =>
    t.dev.linen.pc == 0x101) = true := by decide +kernel
theorem test_push_pop : leads (exec (.svPush 0) (upWith (fun d => svSet 8 0x100 (svSet 0 0xBEEF d)))) (fun t =>
    leads (exec (.svPop 3) t) (fun u => svReg u.dev 3 == 0xBEEF && svReg u.dev 8 == 0x100)) = true := by decide +kernel
theorem test_smac : leads (exec (.svSmac true 0 1) (upWith (fun d => svSet 1 0xFFFF (svSet 0 3 (svAcc true 3 d))))) (fun t =>
    t.dev.linen.ac1 == 0 && t.dev.linen.sr == 0x0001) = true := by decide +kernel
theorem test_repn : leads (exec (.svRepn 2) up) (fun t => leads (exec .svNop t) (fun u => u.dev.linen.pc == 1
    && u.dev.linen.rep == some (0, true, 2))) = true := by decide +kernel
theorem test_sys : leads (exec (.svSys 5) (upWith (modLinen (fun l => { l with ksp := 0x100, pc := 0x40 })))) (fun t =>
    memGet t.mem.dram 0xFD == 0x41 && t.dev.linen.ksp == 0xFD) = true := by decide +kernel
theorem witness_prefix : let d := modLinen (fun l => { l with rep := some (0, true, 2) }) up.dev
    linenRuns d = true ∧ d.linen.rep = some (0, true, 2) ∧ d.linen.policyMode = false := by decide +kernel
theorem witness_operands : eaOk (.ind 8) = true ∧ eaOk (.ind 7) = false ∧ portOk (.ind 7) = false ∧ targetOk (.ind 7) = false ∧
    dataWritable up.dev 0x5FFF = true ∧ dataWritable up.dev 0xA000 = false ∧ portOpen up.dev 0xB = true ∧ portOpen up.dev 0xC = false ∧
    dataRead up.dev up.mem 0xC000 = none := by decide +kernel
theorem witness_policy : let d := modLinen (fun l => { l with sr := 0x8000, pc := 0xE000 }) up.dev
    d.linen.policyMode = true ∧ Executing { up with dev := d } ∧ dataWritable d 0x5FFF = false ∧ dataWritable d 0x7FFF = true := by
  refine ⟨by decide +kernel, ⟨by decide +kernel, rfl, fun _ => by decide +kernel⟩, by decide +kernel, by decide +kernel⟩

end Sys2Proof.Tests
end

section
/-!
SUPPORT. The arithmetic and the shifts of the SV16 (R445, R447 [16]): what an instruction that goes on leaves, what the
flag functions give case by case, and the two statements assembled from them.
-/
namespace Sys2Proof.Sv16

open Machine

/-! Reading the registers and SR after a write (R443). -/

/-- Register code 8 writes the stack pointer in force. -/
theorem sp_setReg_eight (l : Linen) (v : Word16) : (l.setReg 8 v).sp = v := by
  cases hp : l.policyMode with
  | false =>
    have hset : l.setReg 8 v = { l with ksp := v } := if_neg (Bool.eq_false_iff.mp hp)
    rw [hset]
    exact if_neg (Bool.eq_false_iff.mp hp)
  | true =>
    have hset : l.setReg 8 v = { l with psp := v } := if_pos hp
    rw [hset]
    exact if_pos hp

/-- A register read after it was written. -/
@[simp] theorem reg_setReg_same (l : Linen) (r : Nat) (v : Word16) : (l.setReg r v).reg r = v := by
  by_cases hr : r < 8
  · simp only [Linen.setReg, Linen.reg, hr, if_true, tget_tset_same]
  · by_cases h8 : r = 8
    · subst h8
      exact sp_setReg_eight l v
    · simp only [Linen.setReg, Linen.reg, hr, h8, if_false, tget_tset_same]

/-- A write leaves every other register. -/
theorem reg_setReg_other (l : Linen) {r k : Nat} (v : Word16) (h : k ≠ r) : (l.setReg r v).reg k = l.reg k := by
  by_cases hr : r < 8
  · simp only [Linen.setReg, Linen.reg, hr, if_true, tget_tset_other _ _ _ _ _ h]
    rfl
  · by_cases h8 : r = 8
    · subst h8
      cases hp : l.policyMode <;> simp [Linen.setReg, Linen.reg, hp, h]
    · have apart : ¬ k < 8 → k ≠ 8 → tget 0 (tset l.x (r - 8) v) (k - 8) = tget 0 l.x (k - 8) :=
        fun _ _ => tget_tset_other _ _ _ _ _ (by omega)
      simp only [Linen.setReg, Linen.reg, hr, h8, if_false]
      split
      case isTrue => rfl
      case isFalse hk =>
        split
        case isTrue => rfl
        case isFalse hk8 => exact apart hk hk8

/-- No register write changes the repetition in force. -/
@[simp] theorem setReg_rep (l : Linen) (r : Nat) (v : Word16) : (l.setReg r v).rep = l.rep := by
  unfold Linen.setReg
  repeat' split
  all_goals rfl

/-- The flags read back from SR are the flags put into it. -/
theorem flagsOf_withFlags (w : Word16) (f : Flags) : flagsOf (withFlags w f) = f := by
  obtain ⟨z, n, c, v⟩ := f
  have nibble : ∀ z n c v : Bool, let b := BitVec.ofNat 16 (b2n z + 2 * b2n n + 4 * b2n c + 8 * b2n v)
      b.getLsbD 0 = z ∧ b.getLsbD 1 = n ∧ b.getLsbD 2 = c ∧ b.getLsbD 3 = v := by decide
  obtain ⟨h0, h1, h2, h3⟩ := nibble z n c v
  simp only [flagsOf, withFlags, BitVec.getLsbD_or, BitVec.getLsbD_and, h0, h1, h2, h3]
  simp

theorem b2n_le_one (b : Bool) : b2n b ≤ 1 := by cases b <;> decide

/-- SR keeps every bit that is not a flag. -/
theorem getLsbD_withFlags (w : Word16) (f : Flags) {k : Nat} (h : 4 ≤ k) : (withFlags w f).getLsbD k = w.getLsbD k := by
  have small : b2n f.z + 2 * b2n f.n + 4 * b2n f.c + 8 * b2n f.v < 2 ^ k :=
    calc b2n f.z + 2 * b2n f.n + 4 * b2n f.c + 8 * b2n f.v
        < 2 ^ 4 := by have := b2n_le_one f.z; have := b2n_le_one f.n; have := b2n_le_one f.c; have := b2n_le_one f.v; omega
      _ ≤ 2 ^ k := Nat.pow_le_pow_right (by decide) h
  have mask : (0xFFF0 : Word16) = ~~~(BitVec.ofNat 16 15) := rfl
  have low : Nat.testBit 15 k = false :=
    Nat.testBit_lt_two_pow (Nat.lt_of_lt_of_le (by decide : 15 < 2 ^ 4) (Nat.pow_le_pow_right (by decide) h))
  by_cases hk : k < 16
  · rw [withFlags, mask, BitVec.getLsbD_or, BitVec.getLsbD_and, BitVec.getLsbD_not, BitVec.getLsbD_ofNat,
      BitVec.getLsbD_ofNat, Nat.testBit_lt_two_pow small, low]
    simp [hk]
  · rw [BitVec.getLsbD_of_ge _ _ (by omega), BitVec.getLsbD_of_ge _ _ (by omega)]

/-! What an instruction that Linen executes leaves (R444, R448). -/

/-- An instruction that is done without a jump, and leaves the repetition as it was, goes on to the next one. -/
theorem goesOn_of_svStep {i : Instr} {s : State} {words : Nat} {rk : Repeat} {f : Dev → Memory → SvEnd} {d : Dev}
    {m : Memory} (hex : Executing s) (hi : exec i s = svStep words false rk f s) (hf : f s.dev s.mem = goOn d m)
    (hrep : d.linen.rep = s.dev.linen.rep) : GoesOn i s words d m := by
  obtain ⟨hrun, hnone, hpol⟩ := hex
  have fetched : (s.dev.linen.policyMode && decide (s.dev.linen.pc.toNat < 0xE000)) = false := by
    cases hp : s.dev.linen.policyMode with
    | false => rfl
    | true => exact decide_eq_false (Nat.not_lt.mpr (hpol hp))
  have next : advance words none d.linen = { d.linen with pc := d.linen.pc + BitVec.ofNat 16 words } := by
    simp only [advance, hrep, hnone]
  rw [GoesOn, hi]
  simp only [svStep, onBoth_eq, hrun, hnone, fetched, hf, goOn, modLinen, next]
  rfl

section
variable {i : Instr} {s : State} {rd : Fin 16} {b : SvSrc} {r : Word16} {c v : Bool}

/-- A two-operand instruction writes its result and the flags of it. -/
theorem goesOn_svArith (f : Word16 → Word16 → Flags → Word16 × Flags) (hex : Executing s) (hi : exec i s = svArith true f rd b s)
    (hr : f (svReg s.dev rd) (srcVal s.dev b) (flagsOf s.dev.linen.sr) = flag16 r c v) :
    GoesOn i s (srcWords b) (withResult s.dev rd r c v) s.mem :=
  goesOn_of_svStep hex hi (by simp only [hr]; rfl) (setReg_rep _ _ _)

/-- A comparison writes the flags of its result alone. -/
theorem goesOn_svCompare (f : Word16 → Word16 → Flags → Word16 × Flags) (hex : Executing s)
    (hi : exec i s = svArith false f rd b s)
    (hr : f (svReg s.dev rd) (srcVal s.dev b) (flagsOf s.dev.linen.sr) = flag16 r c v) :
    GoesOn i s (srcWords b) (withFlagsOf s.dev r c v) s.mem :=
  goesOn_of_svStep hex hi (by simp only [hr]; rfl) rfl

/-- A one-operand instruction. -/
theorem goesOn_svUnary (f : Word16 → Flags → Word16 × Flags) (hex : Executing s) (hi : exec i s = svUnary f rd s)
    (hr : f (svReg s.dev rd) (flagsOf s.dev.linen.sr) = flag16 r c v) : GoesOn i s 1 (withResult s.dev rd r c v) s.mem :=
  goesOn_of_svStep hex hi (by simp only [hr]; rfl) (setReg_rep _ _ _)

/-- A shift or a rotate by the low 5 bits of its count operand. -/
theorem goesOn_svShift (f : Word16 → Nat → Word16 × Flags) (hex : Executing s) (hi : exec i s = svShift f rd b s)
    (hr : f (svReg s.dev rd) ((srcVal s.dev b).toNat % 32) = flag16 r c v) :
    GoesOn i s (srcWords b) (withResult s.dev rd r c v) s.mem :=
  goesOn_of_svStep hex hi (by simp only [hr]; rfl) (setReg_rep _ _ _)

/-- A multiplication writes its accumulator and the flags of the 32 bits. -/
theorem goesOn_svMul (f : Word32 → Word16 → Word16 → Flags → Word32 × Flags) {ac : Bool} {ra rb : Fin 16} {p : Word32}
    (hex : Executing s) (hi : exec i s = svMul f ac ra rb s)
    (hr : f (s.dev.linen.acc ac) (svReg s.dev ra) (svReg s.dev rb) (flagsOf s.dev.linen.sr)
      = (p, { z := p == 0, n := p.msb, c := c, v := v })) : GoesOn i s 1 (withAcc s.dev ac p c v) s.mem :=
  goesOn_of_svStep hex hi (by simp only [hr]; rfl) (by cases ac <;> rfl)

end

/-! Results and flags of the arithmetic instructions (R445). -/

section
variable (x y : Word16)

theorem addFlags_eq (c : Bool) : addFlags x y c = flag16 (x + y + BitVec.ofNat 16 (b2n c))
    (decide (65536 ≤ x.toNat + y.toNat + b2n c))
    (decide ((x + y + BitVec.ofNat 16 (b2n c)).toInt ≠ x.toInt + y.toInt + b2n c)) := by
  have sum : BitVec.ofNat 16 (x.toNat + y.toNat + b2n c) = x + y + BitVec.ofNat 16 (b2n c) := by simp [BitVec.ofNat_add]
  simp only [addFlags, sum]

theorem addFlags_false : addFlags x y false = flag16 (x + y) (decide (65536 ≤ x.toNat + y.toNat))
    (decide ((x + y).toInt ≠ x.toInt + y.toInt)) := by
  simpa [b2n] using addFlags_eq x y false

theorem subFlags_false : subFlags x y false = flag16 (x - y) (decide (x.toNat < y.toNat))
    (decide ((x - y).toInt ≠ x.toInt - y.toInt)) := by
  simp [subFlags, b2n]

theorem bne_eq_decide_ne : (x != y) = decide (x ≠ y) := by
  rw [bne, decide_not, ← Bool.beq_eq_decide_eq]

theorem negFlags_eq : negFlags x = flag16 (-x) (decide (x ≠ 0)) (decide (x = 0x8000)) := by
  rw [negFlags, bne_eq_decide_ne, Bool.beq_eq_decide_eq, ← BitVec.zero_sub]
  rfl

/-- A step up overflows from the greatest word alone. -/
theorem toInt_add_one_ne_iff : (x + 1).toInt ≠ x.toInt + 1 ↔ x = 0x7FFF := by
  simp only [BitVec.toInt_eq_toNat_cond]
  bv_omega

/-- A step down overflows from the least word alone. -/
theorem toInt_sub_one_ne_iff : (x - 1).toInt ≠ x.toInt - 1 ↔ x = 0x8000 := by
  simp only [BitVec.toInt_eq_toNat_cond]
  bv_omega

theorem stepFlags_one (c : Bool) : stepFlags x 1 c = flag16 (x + 1) c (decide (x = 0x7FFF)) := by
  have sum : BitVec.ofInt 16 (x.toInt + 1) = x + 1 := by simp [BitVec.ofInt_add]
  simp only [stepFlags, sum, toInt_add_one_ne_iff]

theorem stepFlags_neg_one (c : Bool) : stepFlags x (-1) c = flag16 (x - 1) c (decide (x = 0x8000)) := by
  have sum : BitVec.ofInt 16 (x.toInt + -1) = x - 1 := by
    rw [BitVec.ofInt_add, BitVec.ofInt_toInt, BitVec.sub_eq_add_neg]
    rfl
  have overflow : (x - 1).toInt ≠ x.toInt + -1 ↔ x = 0x8000 := toInt_sub_one_ne_iff x
  simp only [stepFlags, sum, overflow]

theorem ofInt_product_unsigned : BitVec.ofInt 32 (product false x y) = BitVec.ofNat 32 (x.toNat * y.toNat) := by
  rw [← BitVec.ofInt_natCast, Int.natCast_mul]
  rfl

theorem mulFlags_unsigned : mulFlags false x y = (BitVec.ofNat 32 (x.toNat * y.toNat),
    { z := BitVec.ofNat 32 (x.toNat * y.toNat) == 0, n := (BitVec.ofNat 32 (x.toNat * y.toNat)).msb, c := false, v := false }) := by
  simp only [mulFlags, ofInt_product_unsigned]

end

/-- Settles O57: every instruction goes on with the result and the flags that its flag function gives. -/
theorem flagsFollowResults : Obligations.FlagsFollowResults := by
  unfold Obligations.FlagsFollowResults
  intro s rd ra rb b ac hex
  refine ⟨?add, ?adc, ?sub, ?sbc, ?cmp, ?and, ?or, ?xor, ?tst, ?not, ?swapb, ?sxb, ?neg, ?inc, ?dec, ?smul, ?umul, ?smac,
    ?umac, by decide, fun e r => ⟨reg_setReg_same _ _ _, fun k hk => reg_setReg_other _ _ hk⟩,
    fun w f => ⟨flagsOf_withFlags w f, fun k hk => getLsbD_withFlags w f hk⟩⟩
  case add => exact goesOn_svArith (fun x y _ => addFlags x y false) hex rfl (addFlags_false _ _)
  case adc => exact goesOn_svArith (fun x y f => addFlags x y f.c) hex rfl (addFlags_eq _ _ _)
  case sub => exact goesOn_svArith (fun x y _ => subFlags x y false) hex rfl (subFlags_false _ _)
  case sbc => exact goesOn_svArith (fun x y f => subFlags x y f.c) hex rfl rfl
  case cmp => exact goesOn_svCompare (fun x y _ => subFlags x y false) hex rfl (subFlags_false _ _)
  case and => exact goesOn_svArith (fun x y _ => logicFlags (x &&& y)) hex rfl rfl
  case or => exact goesOn_svArith (fun x y _ => logicFlags (x ||| y)) hex rfl rfl
  case xor => exact goesOn_svArith (fun x y _ => logicFlags (x ^^^ y)) hex rfl rfl
  case tst => exact goesOn_svCompare (fun x y _ => logicFlags (x &&& y)) hex rfl rfl
  case not => exact goesOn_svUnary (fun x _ => logicFlags (~~~x)) hex rfl rfl
  case swapb =>
    exact goesOn_svUnary (fun x _ => logicFlags (x.rotateLeft 8)) hex rfl (congrArg logicFlags BitVec.rotateLeft_def)
  case sxb => exact goesOn_svUnary (fun x _ => logicFlags ((x.setWidth 8).signExtend 16)) hex rfl rfl
  case neg => exact goesOn_svUnary (fun x _ => negFlags x) hex rfl (negFlags_eq _)
  case inc => exact goesOn_svUnary (fun x f => stepFlags x 1 f.c) hex rfl (stepFlags_one _ _)
  case dec => exact goesOn_svUnary (fun x f => stepFlags x (-1) f.c) hex rfl (stepFlags_neg_one _ _)
  case smul => exact goesOn_svMul (fun _ x y _ => mulFlags true x y) hex rfl rfl
  case umul => exact goesOn_svMul (fun _ x y _ => mulFlags false x y) hex rfl (mulFlags_unsigned _ _)
  case smac => exact goesOn_svMul smacFlags hex rfl rfl
  case umac => exact goesOn_svMul umacFlags hex rfl rfl

/-! Shifts and rotates by their count (R447). -/

section
variable {x : Word16} {n : Nat}

theorem lslFlags_zero (h : n = 0) : lslFlags x n = flag16 x false false := if_pos h

theorem lslFlags_of_lt (h1 : 1 ≤ n) (h15 : n ≤ 15) : lslFlags x n = flag16 (x <<< n) (x.getLsbD (16 - n)) false :=
  (if_neg (by omega)).trans (if_pos (by omega))

theorem lslFlags_of_ge (h : 16 ≤ n) : lslFlags x n = flag16 0 false false := (if_neg (by omega)).trans (if_neg (by omega))

theorem lsrFlags_zero (h : n = 0) : lsrFlags x n = flag16 x false false := if_pos h

theorem lsrFlags_of_lt (h1 : 1 ≤ n) (h15 : n ≤ 15) : lsrFlags x n = flag16 (x >>> n) (x.getLsbD (n - 1)) false :=
  (if_neg (by omega)).trans (if_pos (by omega))

theorem lsrFlags_of_ge (h : 16 ≤ n) : lsrFlags x n = flag16 0 false false := (if_neg (by omega)).trans (if_neg (by omega))

theorem asrFlags_zero (h : n = 0) : asrFlags x n = flag16 x false false := if_pos h

theorem asrFlags_of_lt (h1 : 1 ≤ n) (h15 : n ≤ 15) : asrFlags x n = flag16 (x.sshiftRight n) (x.getLsbD (n - 1)) false :=
  (if_neg (by omega)).trans (if_pos (by omega))

theorem asrFlags_of_ge (h : 16 ≤ n) : asrFlags x n = flag16 (if x.msb then 0xFFFF else 0) x.msb false :=
  (if_neg (by omega)).trans (if_neg (by omega))

theorem aslFlags_zero (h : n = 0) : aslFlags x n = flag16 x false false := if_pos h

theorem aslFlags_of_lt (h1 : 1 ≤ n) (h15 : n ≤ 15) : aslFlags x n = flag16 (x <<< n) (x.getLsbD (16 - n))
    (decide ((x <<< n).sshiftRight n ≠ x)) := by
  rw [← bne_eq_decide_ne]
  exact (if_neg (by omega)).trans (if_pos (by omega))

theorem aslFlags_of_ge (h : 16 ≤ n) : aslFlags x n = flag16 0 false (decide (x ≠ 0)) := by
  rw [← bne_eq_decide_ne]
  exact (if_neg (by omega)).trans (if_neg (by omega))

theorem rolFlags_zero (h : n % 16 = 0) : rolFlags x n = flag16 x false false := if_pos h

/-- The bit that a rotation to the left brings to bit 0 is the last one rotated round. -/
theorem getLsbD_zero_rotateLeft (h : n % 16 ≠ 0) : (x.rotateLeft (n % 16)).getLsbD 0 = x.getLsbD (16 - n % 16) := by
  rw [BitVec.getLsbD_rotateLeft, Nat.mod_mod, decide_eq_true (Nat.pos_of_ne_zero h)]
  rfl

theorem rolFlags_of_ne (h : n % 16 ≠ 0) : rolFlags x n = flag16 (x.rotateLeft (n % 16)) (x.getLsbD (16 - n % 16)) false := by
  rw [← getLsbD_zero_rotateLeft h]
  exact if_neg h

theorem rorFlags_zero (h : n % 16 = 0) : rorFlags x n = flag16 x false false := if_pos h

/-- The bit that a rotation to the right brings to bit 15 is the last one rotated round. -/
theorem msb_rotateRight_of_ne (h : n % 16 ≠ 0) : (x.rotateRight (n % 16)).msb = x.getLsbD (n % 16 - 1) := by
  have place : 15 - (16 - n % 16) = n % 16 - 1 := by omega
  rw [BitVec.msb_eq_getLsbD_last, BitVec.getLsbD_rotateRight, Nat.mod_mod, decide_eq_false (by omega)]
  simp [place]

theorem rorFlags_of_ne (h : n % 16 ≠ 0) : rorFlags x n = flag16 (x.rotateRight (n % 16)) (x.getLsbD (n % 16 - 1)) false := by
  rw [← msb_rotateRight_of_ne h]
  exact if_neg h

end

/-- Settles O58, by the ranges of the count. -/
theorem shiftCounts : Obligations.ShiftCounts := by
  unfold Obligations.ShiftCounts
  intro s rd cnt hex
  refine ⟨fun h => ⟨?lsl0, ?lsr0, ?asr0, ?asl0⟩, fun h1 h15 => ⟨?lsl, ?lsr, ?asr, ?asl⟩,
    fun h => ⟨?lsl16, ?lsr16, ?asr16, ?asl16⟩, fun h => ⟨?rol0, ?ror0⟩, fun h => ⟨?rol, ?ror⟩⟩
  case lsl0 => exact goesOn_svShift lslFlags hex rfl (lslFlags_zero h)
  case lsr0 => exact goesOn_svShift lsrFlags hex rfl (lsrFlags_zero h)
  case asr0 => exact goesOn_svShift asrFlags hex rfl (asrFlags_zero h)
  case asl0 => exact goesOn_svShift aslFlags hex rfl (aslFlags_zero h)
  case lsl => exact goesOn_svShift lslFlags hex rfl (lslFlags_of_lt h1 h15)
  case lsr => exact goesOn_svShift lsrFlags hex rfl (lsrFlags_of_lt h1 h15)
  case asr => exact goesOn_svShift asrFlags hex rfl (asrFlags_of_lt h1 h15)
  case asl => exact goesOn_svShift aslFlags hex rfl (aslFlags_of_lt h1 h15)
  case lsl16 => exact goesOn_svShift lslFlags hex rfl (lslFlags_of_ge h)
  case lsr16 => exact goesOn_svShift lsrFlags hex rfl (lsrFlags_of_ge h)
  case asr16 => exact goesOn_svShift asrFlags hex rfl (asrFlags_of_ge h)
  case asl16 => exact goesOn_svShift aslFlags hex rfl (aslFlags_of_ge h)
  case rol0 => exact goesOn_svShift rolFlags hex rfl (rolFlags_zero h)
  case ror0 => exact goesOn_svShift rorFlags hex rfl (rorFlags_zero h)
  case rol => exact goesOn_svShift rolFlags hex rfl (rolFlags_of_ne h)
  case ror => exact goesOn_svShift rorFlags hex rfl (rorFlags_of_ne h)

end Sys2Proof.Sv16
end

section
/-!
SUPPORT. What a step answers, whatever its command: it stops outside a BAR, or it goes on with the queue's rest and
memories in canonical form.
-/
namespace Sys2Proof.Machine

/-- What a row may answer of a state: the stop of an access outside its BAR, or a next state with the queue as it was
and the canonical form of the memories kept. -/
inductive Answers (s : State) : Out → Prop
  | stops : Answers s (.fault .outsideBar)
  | goes (d : Dev) (m : Memory) (h : s.mem.wf = true → m.wf = true) : Answers s (.next { s with dev := d, mem := m })

/-- A row whose effect is on the device alone. -/
theorem answers_dev {s : State} {o : Out} {d : Dev} (h : o = .next { s with dev := d }) : Answers s o :=
  h ▸ .goes d s.mem id

theorem answers_onBoth {s : State} {f : Dev → Memory → Dev × Memory}
    (h : s.mem.wf = true → (f s.dev s.mem).2.wf = true) : Answers s (onBoth f s) := .goes _ _ h

/-- An instruction of Linen answers when what it does keeps the canonical form. -/
theorem answers_svStep {n : Nat} {k : Bool} {rk : Repeat} {f : Dev → Memory → SvEnd} {s : State}
    (h : s.mem.wf = true → (f s.dev s.mem).keeps) : Answers s (svStep n k rk f s) :=
  answers_onBoth fun hm => svStep_keeps (h hm) hm rfl

/-- A meaning that answers so from every state. -/
def Sound (f : State → Out) : Prop := ∀ s, Answers s (f s)

theorem sound_ite {c : Prop} [Decidable c] {a b : State → Out} (ha : Sound a) (hb : Sound b) :
    Sound (if c then a else b) := by
  split
  · exact ha
  · exact hb

theorem sound_onDev (f : Dev → Dev) : Sound (onDev f) := fun _ => answers_dev rfl

theorem sound_thenOut {a b : State → Out} (ha : Sound a) (hb : Sound b) : Sound (thenOut a b) := by
  intro s
  unfold thenOut
  generalize hx : a s = x
  have first := ha s
  rw [hx] at first
  cases first with
  | stops => exact .stops
  | goes d m h =>
    dsimp only
    generalize hy : b { s with dev := d, mem := m } = y
    have second := hb { s with dev := d, mem := m }
    rw [hy] at second
    cases second with
    | stops => exact .stops
    | goes d' m' h' => exact .goes d' m' (fun hs => h' (h hs))

theorem sound_queueWrite (k : Fin 256) (q : Fin 16) (o w v : Nat) : Sound (queueWrite k q o w v) := by
  unfold queueWrite
  repeat' apply sound_ite
  all_goals exact sound_onDev _

theorem sound_pageWrite (k : Fin 256) (o w v : Nat) : Sound (pageWrite k o w v) := by
  have acks (p q : Prop) [Decidable p] [Decidable q] :
      Sound (thenOut (if p then execT2mPost k else discard) (if q then execM2tAck k else discard)) :=
    sound_thenOut (sound_ite (sound_onDev _) (sound_onDev _)) (sound_ite (sound_onDev _) (sound_onDev _))
  unfold pageWrite
  exact sound_ite (sound_onDev _) <| sound_ite (sound_onDev _) <| sound_ite (sound_onDev _) <| sound_ite (acks _ _) <|
    sound_ite (sound_onDev _) <| sound_ite (sound_onDev _) <| sound_ite (sound_queueWrite _ _ _ _ _) <|
    sound_ite (sound_onDev _) <| sound_ite (sound_ite (sound_onDev _) (sound_onDev _)) (sound_onDev _)

theorem sound_pf0Write (o w v : Nat) : Sound (pf0Write o w v) := by
  have posts (k : Fin 256) (p q : Prop) [Decidable p] [Decidable q] :
      Sound (thenOut (if p then execT2mAck k else discard) (if q then execM2tPost k else discard)) :=
    sound_thenOut (sound_ite (sound_onDev _) (sound_onDev _)) (sound_ite (sound_onDev _) (sound_onDev _))
  have pending (k : Fin 14) : Sound (fcPendingWrite k v) := fun _ => answers_dev rfl
  unfold pf0Write
  exact sound_ite (sound_onDev _) <| sound_ite (sound_onDev _) <| sound_ite (sound_onDev _) <| sound_ite (sound_onDev _) <|
    sound_ite (sound_onDev _) <| sound_ite (pending _) <| sound_ite (sound_onDev _) <| sound_ite (sound_onDev _) <|
    sound_ite (sound_onDev _) <| sound_ite (sound_onDev _) <| sound_ite (sound_onDev _) <| sound_ite (sound_onDev _) <|
    sound_ite (sound_onDev _) <|
    sound_ite (sound_ite (sound_onDev _) (sound_ite (posts _ _ _) (sound_onDev _))) (sound_onDev _)

theorem sound_registerWrite (bar : Bar) (off width value : Nat) : Sound (execRegisterWrite bar off width value) := by
  intro s
  unfold execRegisterWrite
  split
  case isTrue => exact .stops
  case isFalse =>
    split
    case isTrue => exact sound_onDev _ s
    case isFalse =>
      cases bar with
      | bar2 => exact answers_onBoth (bar2Write_wf _ _ _ _)
      | pf0 =>
        dsimp only
        split
        · exact sound_onDev _ s
        · exact sound_pf0Write _ _ _ s
      | pf1 =>
        dsimp only
        split
        · exact sound_onDev _ s
        · exact sound_pageWrite _ _ _ _ s

theorem sound_tlpOutsideIde (kind : TlpKind) : Sound (execTlpOutsideIde kind) := by
  intro s
  unfold execTlpOutsideIde
  split
  case isTrue => exact sound_onDev _ s
  case isFalse =>
    cases kind with
    | config fn a => exact answers_dev rfl
    | doe req => exact sound_onDev _ s
    | write bar off width value =>
      dsimp only
      split
      · exact sound_onDev _ s
      · exact sound_registerWrite _ _ _ _ s
    | read bar off width =>
      dsimp only
      split
      · exact sound_onDev _ s
      · exact answers_dev rfl
    | other => exact sound_onDev _ s

theorem sound_xwBar2Access (sl : Fin 256) (off width : Nat) (wr : Option Nat) : Sound (execXwBar2Access sl off width wr) := by
  intro s
  unfold execXwBar2Access
  dsimp only
  split
  case isTrue => exact .stops
  case isFalse =>
    cases wr with
    | none => exact answers_dev rfl
    | some v => exact answers_onBoth (bar2Write_wf _ _ _ _)

/-! The rows that write a memory. -/

/-- The two halves of a row's effect, when a test decides between two of them. -/
theorem wf_ite {c : Prop} [Decidable c] {x y : Dev × Memory} (hx : x.2.wf = true) (hy : y.2.wf = true) :
    (if c then x else y).2.wf = true := by
  split
  · exact hx
  · exact hy

theorem mem_wf_ite {c : Prop} [Decidable c] {m n : Memory} (hm : m.wf = true) (hn : n.wf = true) :
    (if c then m else n).wf = true := by
  split
  · exact hm
  · exact hn

theorem sound_tamperAlarm (k : Fin 32) : Sound (execTamperAlarm k) := fun _ =>
  answers_onBoth fun h => wf_ite h (alarmMem_wf _ _ h)

theorem sound_tamperBusLow : Sound execTamperBusLow := fun _ =>
  answers_onBoth fun h => wf_ite h (wf_ite h (alarmMem_wf _ _ h))

theorem sound_monitorTestEnd (k : Fin 32) (pass persists : Bool) : Sound (execMonitorTestEnd k pass persists) := by
  refine fun s => answers_onBoth fun h => ?_
  cases s.dev.prot.selfTest with
  | none => exact h
  | some t => exact wf_ite h (wf_ite (alarmMem_wf _ _ h) h)

theorem sound_faultInject (id : Nat) : Sound (execFaultInject id) := by
  refine fun s => answers_onBoth fun h => ?_
  cases findCmd s.dev id with
  | none => exact h
  | some c => exact mem_wf_ite (alarmMem_wf _ _ h) h

theorem sound_tamperFlit (port : Fin 2) (h : FlitHdr) (pos : Fin 8) (level : Nat) :
    Sound (execTamperFlit port h pos level) := fun _ =>
  answers_onBoth fun hm => mem_wf_ite (alarmMem_wf _ _ hm) hm

theorem sound_startup (straps : BitVec 3) (units : List (Nat × Nat)) (sources : List Nat) :
    Sound (execStartup straps units sources) := fun _ => answers_onBoth fun h => wf_ite h Memory.zero_wf

theorem sound_tapInstruction (ti : TapInstr) : Sound (execTapInstruction ti) := by
  refine fun s => answers_onBoth fun h => ?_
  cases ti with
  | idcode => exact wf_ite h h
  | bypass => exact h
  | samplePreload => exact h
  | extest => exact wf_ite (Memory.wf_setScr h rfl) h
  | debug => exact wf_ite h h
  | dcode => exact wf_ite h h

theorem sound_holdExpiry (id : Nat) : Sound (execHoldExpiry id) := by
  refine fun s => answers_onBoth fun h => ?_
  cases findCmd s.dev id with
  | none => exact h
  | some c => exact wf_ite (hookNext_wf _ _ h) h

theorem sound_pushEntryAdmit (sl : Fin 256) (n : Fin 16) (aux : List (Nat × Bytes)) :
    Sound (execPushEntryAdmit sl n aux) := fun _ => answers_onBoth fun h => wf_ite (hookNext_wf _ _ h) h

theorem sound_entryFetch (sl : Fin 256) (q : Fin 16) (rd : EntryRead) (aux : List (Nat × Bytes)) (ciOk : Bool) :
    Sound (execEntryFetch sl q rd aux ciOk) := fun _ =>
  answers_onBoth fun h => wf_ite (takeEntry_wf _ _ _ _ _ _ _ _ h) h

theorem sound_continuationReread (sl : Fin 256) (q : Fin 16) (conts : List RingRead) (aux : List (Nat × Bytes))
    (ciOk : Bool) : Sound (execContinuationReread sl q conts aux ciOk) := fun _ =>
  answers_onBoth fun h => wf_ite (takeEntry_wf _ _ _ _ _ _ _ _ h) h

theorem sound_granule0Reread (sl : Fin 256) (q : Fin 16) (rd : EntryRead) (aux : List (Nat × Bytes)) (ciOk : Bool) :
    Sound (execGranule0Reread sl q rd aux ciOk) := fun _ =>
  answers_onBoth fun h => wf_ite (takeEntry_wf _ _ _ _ _ _ _ _ h) h

theorem sound_dmaDescComplete (c : Fin 64) (wr : WriteResult) (k : Nat) (next : Option DmaRead) :
    Sound (execDmaDescComplete c wr k next) := by
  refine fun s => answers_onBoth fun h => wf_ite h (wf_ite ?_ (wf_ite ?_ ?_))
  · cases next <;> exact h
  · exact wf_ite h (chanFinish_wf _ _ _ _ _ _ _ h)
  · exact wf_ite h (wf_ite h (wf_ite h (wf_ite (wf_ite h h) (chanFinish_wf _ _ _ _ _ _ _ h))))

theorem sound_dmaReadCompletion (t : DmaTarget) (r : DmaRead) : Sound (execDmaReadCompletion t r) := by
  refine fun s => answers_onBoth fun h => ?_
  cases t with
  | cmd id i => exact wf_ite h h
  | chan c other =>
    refine wf_ite h ?_
    cases r with
    | data x => exact chanStage_wf _ _ _ _ h
    | _ => exact h

theorem sound_scrWipeDone (b : Fin 64) : Sound (execScrWipeDone b) := fun _ =>
  answers_onBoth fun h => wf_ite (Memory.wf_setScr h (memClear_wf _ _ _ (Memory.wf_scr h))) h

theorem sound_hbmZeroiseDone (sl : Option (Fin 256)) : Sound (execHbmZeroiseDone sl) := by
  refine fun s => answers_onBoth fun h => wf_ite h ?_
  cases sl with
  | none => exact Memory.wf_setHbm h rfl
  | some k => exact Memory.wf_setHbm h (memClear_wf _ _ _ (Memory.wf_hbm h))

theorem sound_exceptionEntry (v : Fin 65) : Sound (execExceptionEntry v) := fun _ =>
  answers_onBoth fun h => wf_ite h <| wf_ite (interruptEntry_wf _ _ _ h) <| wf_ite h <| wf_ite h <| syncEntry_wf _ _ _ _ h

theorem sound_policyLoad (id : Nat) : Sound (execPolicyLoad id) := by
  refine fun s => answers_onBoth fun h => ?_
  cases findCmd s.dev id with
  | none => exact h
  | some c =>
    refine wf_ite h (wf_ite h ?_)
    exact Memory.wf_mk (Memory.wf_hbm h) (Memory.wf_scr h) (memClear_wf _ _ _ (Memory.wf_dram h))
      (putWords_wf _ _ _ (Memory.wf_iram h))

theorem sound_hookTimeout (id : Nat) : Sound (execHookTimeout id) := by
  refine fun s => answers_onBoth fun h => ?_
  rcases s.dev.linen.hook with _ | ⟨i, t⟩
  · exact h
  · exact wf_ite h (hookFault_wf _ _ _ h)

theorem sound_resultsWritten (id : Nat) (w : WriteResult) : Sound (execResultsWritten id w) := by
  refine fun s => answers_onBoth fun h => ?_
  cases findCmd s.dev id with
  | none => exact h
  | some c =>
    refine wf_ite h ?_
    cases taken c s.dev with
    | some st => exact h
    | none =>
      refine wf_ite h (wf_ite (writeOuts_wf _ _ _ h) ?_)
      dsimp only
      split
      · exact writeOuts_wf _ _ _ h
      · exact writeOuts_wf _ _ _ h

/-! Linen's instructions that write data RAM or instruction RAM, or may end in a trap. -/

theorem keeps_ite {c : Prop} [Decidable c] {x y : SvEnd} (hx : x.keeps) (hy : y.keeps) : (if c then x else y).keeps := by
  split
  · exact hx
  · exact hy

theorem sound_svRet : Sound execSvRet := by
  refine fun s => answers_svStep fun h => ?_
  rcases popSp s.dev s.mem with _ | ⟨v, d⟩
  · trivial
  · exact h

theorem sound_svReti : Sound execSvReti := by
  refine fun s => answers_svStep fun h => ?_
  rcases popSp s.dev s.mem with _ | ⟨pc, d⟩
  · trivial
  dsimp only
  rcases popSp d s.mem with _ | ⟨sr, d⟩
  · trivial
  dsimp only
  rcases popSp d s.mem with _ | ⟨repc, d⟩
  · trivial
  · exact h

theorem sound_svLd (rd : Fin 16) (ea : SvEa) : Sound (execSvLd rd ea) := by
  refine fun s => answers_svStep fun h => keeps_ite trivial ?_
  rcases dataRead s.dev s.mem (eaAddr s.dev ea).toNat with _ | ⟨v, d⟩
  · trivial
  · exact h

theorem sound_svSt (ea : SvEa) (rs : Fin 16) : Sound (execSvSt ea rs) := by
  refine fun s => answers_svStep fun h => keeps_ite trivial ?_
  cases e : dataWrite s.dev s.mem (eaAddr s.dev ea).toNat (svReg s.dev rs) with
  | none => trivial
  | some m => exact dataWrite_wf h e

theorem sound_svPush (rs : Fin 16) : Sound (execSvPush rs) := by
  refine fun s => answers_svStep fun h => ?_
  cases e : pushSp (svReg s.dev rs) s.dev s.mem with
  | none => trivial
  | some r => exact pushSp_wf h e

theorem sound_svPop (rd : Fin 16) : Sound (execSvPop rd) := by
  refine fun s => answers_svStep fun h => ?_
  rcases popSp s.dev s.mem with _ | ⟨v, d⟩
  · trivial
  · exact h

theorem sound_svIn (rd : Fin 16) (port : SvPort) : Sound (execSvIn rd port) := by
  refine fun s => answers_svStep fun h => keeps_ite trivial ?_
  cases portRead (portNo s.dev port) s.dev with
  | done v d => exact h
  | stall => trivial
  | fault => trivial

theorem sound_svOut (port : SvPort) (rs : Fin 16) : Sound (execSvOut port rs) := by
  refine fun s => answers_svStep fun h => keeps_ite trivial ?_
  cases portWrite (portNo s.dev port) (svReg s.dev rs) s.dev with
  | done v d => exact h
  | stall => trivial
  | fault => trivial

theorem sound_svLdp (rd xs : Fin 16) : Sound (execSvLdp rd xs) := fun _ => answers_svStep fun h => keeps_ite trivial h

theorem sound_svStp (xd rs : Fin 16) : Sound (execSvStp xd rs) := fun _ =>
  answers_svStep fun h => keeps_ite trivial <| keeps_ite trivial <| Memory.wf_setIram h (memPut_wf _ _ _ (Memory.wf_iram h))

theorem sound_svOutm (xd xs : Fin 16) : Sound (execSvOutm xd xs) := by
  refine fun s => answers_svStep fun h => keeps_ite trivial ?_
  rcases dataRead s.dev s.mem (svReg s.dev xs).toNat with _ | ⟨v, d⟩
  · trivial
  dsimp only
  cases portWrite ((svReg s.dev xd).toNat % 4096) v d with
  | done w e => exact h
  | stall => trivial
  | fault => trivial

theorem sound_svInm (xd xs : Fin 16) : Sound (execSvInm xd xs) := by
  refine fun s => answers_svStep fun h => keeps_ite trivial ?_
  cases portRead ((svReg s.dev xs).toNat % 4096) s.dev with
  | stall => trivial
  | fault => trivial
  | done v d =>
    dsimp only
    cases e : dataWrite d s.mem (svReg d xd).toNat v with
    | none => trivial
    | some m => exact dataWrite_wf h e

theorem sound_svDiv (signed : Bool) (vd rs : Fin 16) : Sound (svDiv signed vd rs) := fun _ =>
  answers_svStep fun h => keeps_ite trivial h

theorem sound_svJmp (t : SvTarget) : Sound (execSvJmp t) := fun _ => answers_svStep fun h => keeps_ite h trivial

theorem sound_svCall (t : SvTarget) : Sound (execSvCall t) := by
  refine fun s => answers_svStep fun h => keeps_ite trivial ?_
  cases e : pushSp (s.dev.linen.pc + BitVec.ofNat 16 (targetWords t)) s.dev s.mem with
  | none => trivial
  | some r => exact pushSp_wf h e

theorem sound_svArith (w : Bool) (f : Word16 → Word16 → Flags → Word16 × Flags) (rd : Fin 16) (b : SvSrc) :
    Sound (svArith w f rd b) := fun _ => answers_svStep fun h => keeps_ite h h

theorem sound_svUnary (f : Word16 → Flags → Word16 × Flags) (rd : Fin 16) : Sound (svUnary f rd) := fun _ =>
  answers_svStep fun h => h

theorem sound_svShift (f : Word16 → Nat → Word16 × Flags) (rd : Fin 16) (c : SvSrc) : Sound (svShift f rd c) := fun _ =>
  answers_svStep fun h => h

theorem sound_svMul (f : Word32 → Word16 → Word16 → Flags → Word32 × Flags) (ac : Bool) (ra rb : Fin 16) :
    Sound (svMul f ac ra rb) := fun _ => answers_svStep fun h => h

theorem sound_svSys (t : Fin 16) : Sound (execSvSys t) := fun _ => answers_svStep fun _ => trivial

/-- Every command stops outside its BAR, or goes on with the queue as it was and the canonical form kept. -/
theorem exec_answers (i : Instr) : Sound (exec i) := by
  intro s
  cases i with
  | registerWrite bar off width value => exact sound_registerWrite bar off width value s
  | xwBar2Access sl off width wr => exact sound_xwBar2Access sl off width wr s
  | tlpOutsideIde kind => exact sound_tlpOutsideIde kind s
  | startup straps units sources => exact sound_startup straps units sources s
  | tapInstruction ti => exact sound_tapInstruction ti s
  | tamperAlarm k => exact sound_tamperAlarm k s
  | tamperBusLow => exact sound_tamperBusLow s
  | tamperFlit port h pos level => exact sound_tamperFlit port h pos level s
  | monitorTestEnd k pass persists => exact sound_monitorTestEnd k pass persists s
  | faultInject id => exact sound_faultInject id s
  | holdExpiry id => exact sound_holdExpiry id s
  | dmaDescComplete c wr k next => exact sound_dmaDescComplete c wr k next s
  | dmaReadCompletion t r => exact sound_dmaReadCompletion t r s
  | scrWipeDone b => exact sound_scrWipeDone b s
  | hbmZeroiseDone sl => exact sound_hbmZeroiseDone sl s
  | exceptionEntry v => exact sound_exceptionEntry v s
  | policyLoad id => exact sound_policyLoad id s
  | hookTimeout id => exact sound_hookTimeout id s
  | resultsWritten id w => exact sound_resultsWritten id w s
  | pushEntryAdmit sl n aux => exact sound_pushEntryAdmit sl n aux s
  | entryFetch sl q rd aux ciOk => exact sound_entryFetch sl q rd aux ciOk s
  | continuationReread sl q conts aux ciOk => exact sound_continuationReread sl q conts aux ciOk s
  | granule0Reread sl q rd aux ciOk => exact sound_granule0Reread sl q rd aux ciOk s
  | svRet => exact sound_svRet s
  | svReti => exact sound_svReti s
  | svLd rd ea => exact sound_svLd rd ea s
  | svSt ea rs => exact sound_svSt ea rs s
  | svPush rs => exact sound_svPush rs s
  | svPop rd => exact sound_svPop rd s
  | svIn rd port => exact sound_svIn rd port s
  | svOut port rs => exact sound_svOut port rs s
  | svLdp rd xs => exact sound_svLdp rd xs s
  | svStp xd rs => exact sound_svStp xd rs s
  | svOutm xd xs => exact sound_svOutm xd xs s
  | svInm xd xs => exact sound_svInm xd xs s
  | svSdiv vd rs => exact sound_svDiv true vd rs s
  | svUdiv vd rs => exact sound_svDiv false vd rs s
  | svJmp t => exact sound_svJmp t s
  | svCall t => exact sound_svCall t s
  | svSys t => exact sound_svSys t s
  | svAdd rd b => exact sound_svArith true (fun x y _ => addFlags x y false) rd b s
  | svAdc rd b => exact sound_svArith true (fun x y f => addFlags x y f.c) rd b s
  | svSub rd b => exact sound_svArith true (fun x y _ => subFlags x y false) rd b s
  | svSbc rd b => exact sound_svArith true (fun x y f => subFlags x y f.c) rd b s
  | svCmp rd b => exact sound_svArith false (fun x y _ => subFlags x y false) rd b s
  | svAnd rd b => exact sound_svArith true (fun x y _ => logicFlags (x &&& y)) rd b s
  | svOr rd b => exact sound_svArith true (fun x y _ => logicFlags (x ||| y)) rd b s
  | svXor rd b => exact sound_svArith true (fun x y _ => logicFlags (x ^^^ y)) rd b s
  | svTst rd b => exact sound_svArith false (fun x y _ => logicFlags (x &&& y)) rd b s
  | svNeg rd => exact sound_svUnary (fun x _ => negFlags x) rd s
  | svNot rd => exact sound_svUnary (fun x _ => logicFlags (~~~x)) rd s
  | svInc rd => exact sound_svUnary (fun x f => stepFlags x 1 f.c) rd s
  | svDec rd => exact sound_svUnary (fun x f => stepFlags x (-1) f.c) rd s
  | svSwapb rd => exact sound_svUnary (fun x _ => logicFlags (x.rotateLeft 8)) rd s
  | svSxb rd => exact sound_svUnary (fun x _ => logicFlags ((x.setWidth 8).signExtend 16)) rd s
  | svLsl rd c => exact sound_svShift lslFlags rd c s
  | svLsr rd c => exact sound_svShift lsrFlags rd c s
  | svAsr rd c => exact sound_svShift asrFlags rd c s
  | svAsl rd c => exact sound_svShift aslFlags rd c s
  | svRol rd c => exact sound_svShift rolFlags rd c s
  | svRor rd c => exact sound_svShift rorFlags rd c s
  | svSmul ac ra rb => exact sound_svMul (fun _ x y _ => mulFlags true x y) ac ra rb s
  | svUmul ac ra rb => exact sound_svMul (fun _ x y _ => mulFlags false x y) ac ra rb s
  | svSmac ac ra rb => exact sound_svMul smacFlags ac ra rb s
  | svUmac ac ra rb => exact sound_svMul umacFlags ac ra rb s
  | svNop | svWait | svEi | svDi | svRepi | svRepn | svClrdz | svMfsr | svMtsr | svMov | svLdi | svMovl | svMovh | svMvtl
  | svMvth | svClra | svBcc =>
    unfold exec
    refine answers_svStep ?_
    exact id
  | _ => exact answers_dev rfl

/-- A step answers so of the state without its front command. -/
theorem step_answers (s : State) : Answers { s with pending := s.pending.tail } (step s) := by
  obtain ⟨pending, d, m⟩ := s
  cases pending with
  | nil => exact answers_dev rfl
  | cons i rest => exact exec_answers i _

/-- Settles O1. -/
theorem stepRunsFront : Obligations.StepRunsFront := by
  unfold Obligations.StepRunsFront
  exact fun _ _ _ => rfl

/-- Settles O2. -/
theorem resetInv : Obligations.ResetInv := by
  unfold Obligations.ResetInv
  exact Memory.zero_wf

/-- Settles O3, by what a step answers of every command. -/
theorem invKept : Obligations.InvKept := by
  unfold Obligations.InvKept Inv
  intro s t hs ht
  have answer := step_answers s
  rw [ht] at answer
  cases answer with
  | goes d m h => exact h hs

/-- Settles O4, by what a step answers of every command. -/
theorem queueFirstInFirstOut : Obligations.QueueFirstInFirstOut := by
  unfold Obligations.QueueFirstInFirstOut
  intro s t ht
  have answer := step_answers s
  rw [ht] at answer
  cases answer with
  | goes d m h => rfl

/-- The reset state with a write outside an IDE stream, one byte beyond PF0's BAR0, waiting. -/
def writePastBar : State := { State.reset with pending := [.tlpOutsideIde (.write .pf0 (barSize .pf0) 1 0)] }

/-- While IDE is not required, such a write acts as a REGISTER_WRITE does, and stops the block. -/
theorem step_writePastBar : step writePastBar = .fault .outsideBar := rfl

/-- Refutes O5: TLP_OUTSIDE_IDE carries out a write of a BAR too, and stops the block when it reaches beyond it. -/
theorem not_onlyStopIsOutsideBar : ¬ Obligations.OnlyStopIsOutsideBar := by
  unfold Obligations.OnlyStopIsOutsideBar
  intro h
  obtain ⟨-, hwrite | hwindow⟩ := ((h writePastBar).2 .outsideBar).mp step_writePastBar
  · obtain ⟨bar, off, width, value, rest, hfront, -⟩ := hwrite
    exact Instr.noConfusion (List.cons.inj hfront).1
  · obtain ⟨sl, off, width, wr, rest, hfront, -⟩ := hwindow
    exact Instr.noConfusion (List.cons.inj hfront).1

end Sys2Proof.Machine
end

section
/-!
SUPPORT. Data space of Linen (R440, R441 [16]), the counter mode (R291 [10]), the clamp of a configuration (R69 [02]), the
framing of an entry (R114 [03]), and their statements.
-/
namespace Sys2Proof.Machine

/-! Data space. -/

theorem dataWrite_of_not_writable {d : Dev} {m : Memory} {a : Nat} {v : Word16} (h : dataWritable d a = false) :
    dataWrite d m a v = none := by simp [dataWrite, h]

theorem dataWrite_of_writable {d : Dev} {m : Memory} {a : Nat} {v : Word16} (h : dataWritable d a = true) :
    dataWrite d m a v = some { m with dram := memPut m.dram a v } := by simp [dataWrite, h]

/-- A word that may be written reads from data RAM. -/
theorem dataRead_of_writable {d : Dev} {m : Memory} {a : Nat} (h : dataWritable d a = true) :
    dataRead d m a = some (memGet m.dram a, d) := by
  by_cases low : a < 0x6000
  · have kernel : d.linen.policyMode = false := by simpa only [dataWritable, if_pos low, Bool.not_eq_true'] using h
    simp only [dataRead, if_pos low, kernel, Bool.false_eq_true, if_false]
  · by_cases region : a < 0x8000
    · simp only [dataRead, if_neg low, if_pos region]
    · simp only [dataWritable, if_neg low, if_neg region, Bool.and_eq_true, Bool.not_eq_true', beq_iff_eq, decide_eq_true_eq] at h
      obtain ⟨⟨kernel, bank⟩, vault⟩ := h
      have within : (decide (0xC000 ≤ a) || d.linen.policyMode) = false := by
        rw [kernel, Bool.or_false]
        exact decide_eq_false (by omega)
      simp only [dataRead, if_neg low, if_neg region, within, bank, if_pos vault, Bool.false_eq_true, if_false, if_true]

/-- A read of data space depends on the memories through the word it names alone. -/
theorem dataRead_congr {d : Dev} {m n : Memory} {a : Nat} (h : memGet n.dram a = memGet m.dram a) :
    dataRead d n a = dataRead d m a := by simp only [dataRead, h]

theorem dataRead_outside_region {d : Dev} {m : Memory} {a : Nat} (hp : d.linen.policyMode = true)
    (ha : a < 0x6000 ∨ 0x8000 ≤ a) : dataRead d m a = none := by
  rcases ha with low | high
  · simp [dataRead, low, hp]
  · simp [dataRead, hp, show ¬ a < 0x6000 by omega, show ¬ a < 0x8000 by omega]

theorem dataWritable_outside_region {d : Dev} {a : Nat} (hp : d.linen.policyMode = true)
    (ha : a < 0x6000 ∨ 0x8000 ≤ a) : dataWritable d a = false := by
  rcases ha with low | high
  · simp [dataWritable, low, hp]
  · simp [dataWritable, hp, show ¬ a < 0x6000 by omega, show ¬ a < 0x8000 by omega]

/-- Settles O60. -/
theorem dataReadsWhatWasWritten : Obligations.DataReadsWhatWasWritten := by
  unfold Obligations.DataReadsWhatWasWritten
  intro d m a v hm
  have hdram := Memory.wf_dram hm
  refine ⟨dataWrite_of_not_writable, fun hw => ?_, fun hp ha =>
    ⟨dataRead_outside_region hp ha, dataWrite_of_not_writable (dataWritable_outside_region hp ha)⟩⟩
  refine ⟨_, dataWrite_of_writable hw, rfl, rfl, rfl, ?_, fun k hk => dataRead_congr (memGet_memPut_other _ _ _ _ hdram hk)⟩
  rw [dataRead_of_writable hw]
  exact congrArg (fun w => some (w, d)) (memGet_memPut_same _ _ _ hdram)

/-! The counter mode. -/

/-- The same key stream laid over bytes twice gives them back. -/
theorem xorB_xorB (x k : Bytes) (h : x.length = k.length) : xorB (xorB x k) k = x := by
  induction x generalizing k with
  | nil => rfl
  | cons b x ih =>
    cases k with
    | nil => exact absurd h (by simp)
    | cons c k =>
      have tail := ih k (by simpa using h)
      simp only [xorB, List.zipWith_cons_cons] at tail ⊢
      rw [tail, BitVec.xor_assoc, BitVec.xor_self, BitVec.xor_zero]

/-- The counter pass of blocks, numbered from `i`, as a list. -/
def ctrPass (f : Bytes → Bytes) (ctr : Nat → Bytes) (i : Nat) (xs : List Bytes) : List Bytes :=
  List.zipWith (fun x j => xorB x (f (ctr (i + j)))) xs (List.range xs.length)

theorem ctrPass_cons (f : Bytes → Bytes) (ctr : Nat → Bytes) (i : Nat) (x : Bytes) (xs : List Bytes) :
    ctrPass f ctr i (x :: xs) = xorB x (f (ctr i)) :: ctrPass f ctr (i + 1) xs := by
  simp only [ctrPass, List.length_cons, List.range_succ_eq_map, List.zipWith_cons_cons, List.zipWith_map_right]
  congr 1
  congr 1
  funext y j
  rw [Nat.add_right_comm, Nat.add_assoc]

theorem ctrMode_eq_flatten (f : Bytes → Bytes) (ctr : Nat → Bytes) (i : Nat) (xs : List Bytes) :
    ctrMode f ctr i xs = (ctrPass f ctr i xs).flatten := by
  induction xs generalizing i with
  | nil => rfl
  | cons x xs ih => rw [ctrPass_cons, List.flatten_cons, ctrMode, ih]

theorem ctrPass_ctrPass (f : Bytes → Bytes) (ctr : Nat → Bytes) (n i : Nat) (xs : List Bytes) (hf : ∀ b, (f b).length = n)
    (hxs : ∀ x ∈ xs, x.length = n) : ctrPass f ctr i (ctrPass f ctr i xs) = xs := by
  induction xs generalizing i with
  | nil => rfl
  | cons x xs ih =>
    obtain ⟨hx, hrest⟩ := List.forall_mem_cons.mp hxs
    rw [ctrPass_cons, ctrPass_cons, ih (i + 1) hrest, xorB_xorB x _ (hx.trans (hf _).symm)]

/-- Settles O51. -/
theorem counterModeUndoesItself : Obligations.CounterModeUndoesItself := by
  unfold Obligations.CounterModeUndoesItself
  intro f ctr n i xs hf hxs _
  refine ⟨ctrMode_eq_flatten f ctr i xs, (ctrMode_eq_flatten f ctr i _).trans ?_⟩
  exact congrArg List.flatten (ctrPass_ctrPass f ctr n i xs hf hxs)

/-! The clamp of a configuration. -/

theorem le_clampTo {lo hi v : Nat} (h : lo ≤ hi) : lo ≤ clampTo lo hi v := by
  grind [clampTo]

theorem clampTo_le {lo hi v : Nat} (h : lo ≤ hi) : clampTo lo hi v ≤ hi := by
  grind [clampTo]

theorem b2n_bne_eq_zero (x y : Nat) : b2n (x != y) = 0 ↔ x = y := by
  by_cases h : x = y <;> simp [b2n, h]

/-- Settles O24: every field of an accepted block is clamped, and CLAMP_MASK has a bit for each that differs. -/
theorem clampedConfiguration : Obligations.ClampedConfiguration := by
  unfold Obligations.ClampedConfiguration
  intro d k b mask cfg h
  unfold clampCfg at h
  split at h
  · cases h
  split at h
  · cases h
  simp only [Sum.inr.injEq, Prod.mk.injEq] at h
  obtain ⟨rfl, rfl⟩ := h
  refine ⟨le_clampTo (by decide), clampTo_le (by decide), Nat.min_le_left _ _, Nat.min_le_left _ _, Nat.min_le_left _ _,
    Nat.min_le_left _ _, Nat.min_le_left _ _, le_clampTo (by decide), clampTo_le (by decide), ?_⟩
  simp only [Nat.add_eq_zero_iff, Nat.mul_eq_zero, b2n_bne_eq_zero, and_assoc, Nat.reduceEqDiff, false_or]

/-! The framing of an entry. -/

/-- Continuations that are framed right are as many as were read. -/
theorem frameConts_length {n p i : Nat} {conts : List RingRead} {l : List Bytes} (h : frameConts n p i conts = .inr l) :
    l.length = conts.length := by
  induction conts generalizing p i l with
  | nil => cases h; rfl
  | cons r rest ih =>
    cases r with
    | failed t => cases h
    | data b =>
      simp only [frameConts] at h
      split at h; · cases h
      split at h; · cases h
      split at h; · cases h
      split at h
      · cases h
      · next l' htail =>
        cases h
        simp [ih htail]

/-- Continuations that are framed wrong are no entry. -/
theorem frameConts_ne_entry (n p i : Nat) (conts : List RingRead) (g : Bytes) (l : List Bytes) :
    frameConts n p i conts ≠ .inl (.entry g l) := by
  induction conts generalizing p i with
  | nil => exact nofun
  | cons r rest ih =>
    cases r with
    | failed t => exact nofun
    | data b =>
      simp only [frameConts]
      split; · exact nofun
      split; · exact nofun
      split; · exact nofun
      split
      · next f htail =>
        rintro ⟨⟩
        exact ih _ _ htail
      · exact nofun

theorem isNew_eq (n p : Nat) (b : Bytes) : isNew n p b = true ↔ bit (gctl b) 7 = phaseAt n (p % (2 * n)) := by
  simp [isNew]

/-- Settles O18, check by check. -/
theorem framedEntryIsTaken : Obligations.FramedEntryIsTaken := by
  unfold Obligations.FramedEntryIsTaken
  intro n p b conts
  refine ⟨fun t => rfl, fun hphase => ?_, fun hphase => ⟨fun hfirst => ?_, fun hfirst hres => ?_, fun hfirst hres =>
    ⟨fun hn => ?_, fun hn hk => ?_, fun g l hentry => ?_⟩⟩⟩
  · simp [frame, mt (isNew_eq n p b).mp hphase]
  all_goals have new := (isNew_eq n p b).mpr hphase
  · simp [frame, new, hfirst]
  · simp [frame, new, hfirst, hres]
  · simp [frame, new, hfirst, hres, hn]
  · have room : ¬ n < 0 + 1 := by omega
    simp [frame, new, hfirst, hres, hk, room, frameConts]
  · simp only [frame, new, hfirst, hres, Bool.not_true, Bool.false_eq_true, if_false, bne_self_eq_false] at hentry
    split at hentry; · cases hentry
    split at hentry; · cases hentry
    next hmany =>
      split at hentry
      · next f hf =>
        subst hentry
        exact absurd hf (frameConts_ne_entry _ _ _ _ _ _)
      · next l' htail =>
        cases hentry
        rw [frameConts_length htail, List.length_take]
        omega

end Sys2Proof.Machine
end

section
/-!
SUPPORT. The event log and the fault collector (R410 to R413 [14]): what a logged event leaves, what raising a fault of each
class does; the scheduler's round and its offers (R30 to R33 [01]).
-/
namespace Sys2Proof.Machine

/-! An event that is logged changes the log and its registers, and Linen's pending vectors where it laps a record. -/

/-- A lapped record is counted as a CORRECTED fault. -/
theorem raiseOverflow_corrCount (d : Dev) :
    (raiseOverflow d).prot.corrCount = min (2 ^ 32 - 1) (d.prot.corrCount + 1) := by
  cases held : d.prot.firstInfo.getLsbD 31
  · simp only [raiseOverflow, linenPend, held, Bool.false_eq_true, if_false]
  · simp only [raiseOverflow, linenPend, held, if_true]

section
variable (typ level source : Nat) (detail : Bytes) (d : Dev)

/-- The log with one more record, which has not been read. -/
def withRecord : Dev := { d with prot := { d.prot with
  log := tset d.prot.log (d.prot.esn % 512) { esn := d.prot.esn, typ := typ, level := level, source := source,
                                              time := d.devTime, detail := fit 16 detail, read := false }
  esn := (d.prot.esn + 1) % 2 ^ 32 } }

/-- The record is entered, and fault source 418 raised if it laps one that was not read. -/
theorem logEvent_eq : ∃ lapped : Bool, logEvent typ level source detail d =
    if lapped then raiseOverflow (withRecord typ level source detail d) else withRecord typ level source detail d := ⟨_, rfl⟩

/-- A property of the device that neither the protection registers nor Linen hold is as before. -/
theorem logEvent_keeps {α : Type} (f : Dev → α) (h : ∀ (e : Dev) p l, f { e with prot := p, linen := l } = f e) :
    f (logEvent typ level source detail d) = f d := by
  obtain ⟨lapped, hlog⟩ := logEvent_eq typ level source detail d
  rw [hlog]
  cases lapped with
  | true => exact h d _ _
  | false => exact h d _ d.linen

@[simp] theorem logEvent_clk : (logEvent typ level source detail d).clk = d.clk := logEvent_keeps _ _ _ _ _ _ fun _ _ _ => rfl
@[simp] theorem logEvent_devTime : (logEvent typ level source detail d).devTime = d.devTime := logEvent_keeps _ _ _ _ _ _ fun _ _ _ => rfl
@[simp] theorem logEvent_free : (logEvent typ level source detail d).free = d.free := logEvent_keeps _ _ _ _ _ _ fun _ _ _ => rfl
@[simp] theorem logEvent_link : (logEvent typ level source detail d).link = d.link := logEvent_keeps _ _ _ _ _ _ fun _ _ _ => rfl
@[simp] theorem logEvent_otp : (logEvent typ level source detail d).otp = d.otp := logEvent_keeps _ _ _ _ _ _ fun _ _ _ => rfl
@[simp] theorem logEvent_slices : (logEvent typ level source detail d).slices = d.slices := logEvent_keeps _ _ _ _ _ _ fun _ _ _ => rfl
@[simp] theorem logEvent_cmds : (logEvent typ level source detail d).cmds = d.cmds := logEvent_keeps _ _ _ _ _ _ fun _ _ _ => rfl
@[simp] theorem logEvent_sched : (logEvent typ level source detail d).sched = d.sched := logEvent_keeps _ _ _ _ _ _ fun _ _ _ => rfl
@[simp] theorem logEvent_led : (logEvent typ level source detail d).led = d.led := logEvent_keeps _ _ _ _ _ _ fun _ _ _ => rfl
@[simp] theorem logEvent_cust : (logEvent typ level source detail d).cust = d.cust := logEvent_keeps _ _ _ _ _ _ fun _ _ _ => rfl
@[simp] theorem logEvent_board : (logEvent typ level source detail d).board = d.board := logEvent_keeps _ _ _ _ _ _ fun _ _ _ => rfl
@[simp] theorem logEvent_dma : (logEvent typ level source detail d).dma = d.dma := logEvent_keeps _ _ _ _ _ _ fun _ _ _ => rfl
@[simp] theorem logEvent_micro : (logEvent typ level source detail d).micro = d.micro := logEvent_keeps _ _ _ _ _ _ fun _ _ _ => rfl
@[simp] theorem logEvent_held : (logEvent typ level source detail d).held = d.held := logEvent_keeps _ _ _ _ _ _ fun _ _ _ => rfl
@[simp] theorem logEvent_out : (logEvent typ level source detail d).out = d.out := logEvent_keeps _ _ _ _ _ _ fun _ _ _ => rfl

/-- Of the protection registers an event changes the log and, where it laps a record, the first-fault registers and
CORRECTED_COUNT. -/
theorem logEvent_prot_keeps {α : Type} (f : Protect → α)
    (h : ∀ (p : Protect) l e o c i a t, f { p with
      log := l, esn := e, overwritten := o, corrCount := c, firstInfo := i, firstAddr := a, firstTime := t } = f p) :
    f (logEvent typ level source detail d).prot = f d.prot := by
  obtain ⟨lapped, hlog⟩ := logEvent_eq typ level source detail d
  rw [hlog]
  cases lapped with
  | false => exact h d.prot _ _ d.prot.overwritten d.prot.corrCount d.prot.firstInfo d.prot.firstAddr d.prot.firstTime
  | true =>
    simp only [if_true, raiseOverflow, linenPend]
    split
    · exact h d.prot _ _ _ _ d.prot.firstInfo d.prot.firstAddr d.prot.firstTime
    · exact h d.prot _ _ _ _ _ _ _

@[simp] theorem logEvent_st : (logEvent typ level source detail d).prot.st = d.prot.st :=
    logEvent_prot_keeps _ _ _ _ _ Protect.st fun _ _ _ _ _ _ _ _ => rfl
@[simp] theorem logEvent_lastSource : (logEvent typ level source detail d).prot.lastSource = d.prot.lastSource :=
    logEvent_prot_keeps _ _ _ _ _ Protect.lastSource fun _ _ _ _ _ _ _ _ => rfl
@[simp] theorem logEvent_active : (logEvent typ level source detail d).prot.active = d.prot.active :=
    logEvent_prot_keeps _ _ _ _ _ Protect.active fun _ _ _ _ _ _ _ _ => rfl
@[simp] theorem logEvent_seen : (logEvent typ level source detail d).prot.seen = d.prot.seen :=
    logEvent_prot_keeps _ _ _ _ _ Protect.seen fun _ _ _ _ _ _ _ _ => rfl
@[simp] theorem logEvent_levels : (logEvent typ level source detail d).prot.levels = d.prot.levels :=
    logEvent_prot_keeps _ _ _ _ _ Protect.levels fun _ _ _ _ _ _ _ _ => rfl
@[simp] theorem logEvent_latched : (logEvent typ level source detail d).prot.latched = d.prot.latched :=
    logEvent_prot_keeps _ _ _ _ _ Protect.latched fun _ _ _ _ _ _ _ _ => rfl
@[simp] theorem logEvent_fatal : (logEvent typ level source detail d).prot.fatal = d.prot.fatal :=
    logEvent_prot_keeps _ _ _ _ _ Protect.fatal fun _ _ _ _ _ _ _ _ => rfl
@[simp] theorem logEvent_pendingFc : (logEvent typ level source detail d).prot.pendingFc = d.prot.pendingFc :=
    logEvent_prot_keeps _ _ _ _ _ Protect.pendingFc fun _ _ _ _ _ _ _ _ => rfl
@[simp] theorem logEvent_escal : (logEvent typ level source detail d).prot.escal = d.prot.escal :=
    logEvent_prot_keeps _ _ _ _ _ Protect.escal fun _ _ _ _ _ _ _ _ => rfl

/-- A first fault that is captured stays. -/
theorem logEvent_first (h : d.prot.firstInfo.getLsbD 31 = true) :
    (logEvent typ level source detail d).prot.firstInfo = d.prot.firstInfo ∧
    (logEvent typ level source detail d).prot.firstAddr = d.prot.firstAddr ∧
    (logEvent typ level source detail d).prot.firstTime = d.prot.firstTime := by
  obtain ⟨lapped, hlog⟩ := logEvent_eq typ level source detail d
  rw [hlog]
  cases lapped with
  | false => exact ⟨rfl, rfl, rfl⟩
  | true => simp [raiseOverflow, withRecord, linenPend, h]

/-- CORRECTED_COUNT does not fall below what it was. -/
theorem le_logEvent_corrCount (h : d.prot.corrCount ≤ 2 ^ 32 - 1) :
    d.prot.corrCount ≤ (logEvent typ level source detail d).prot.corrCount := by
  obtain ⟨lapped, hlog⟩ := logEvent_eq typ level source detail d
  rw [hlog]
  cases lapped with
  | false => exact Nat.le_refl _
  | true =>
    have counted := raiseOverflow_corrCount (withRecord typ level source detail d)
    simp only [if_true, counted]
    exact Nat.le_min.mpr ⟨h, Nat.le_succ _⟩

end

/-! Raising a fault. -/

/-- The first-fault registers with a fault, where they hold none. -/
def captureFirst (info : BitVec 32) (addr : Nat) (d : Dev) : Dev :=
  if d.prot.firstInfo.getLsbD 31 then d
  else { d with prot := { d.prot with firstInfo := info, firstAddr := BitVec.ofNat 64 addr, firstTime := d.devTime } }

/-- What every fault does before its class decides: it is captured, logged, and announced to Linen. -/
def noteFault (master : Option Nat) (src addr access : Nat) (d : Dev) : Dev :=
  let info := firstInfoOf src (faultClass src) access master
  linenPend 24 (logEvent 3 (faultClass src) src (leBytes 4 info.toNat ++ leBytes 8 addr) (captureFirst info addr d))

/-- A CORRECTED fault is counted. -/
theorem raiseFaultBy_corrected {src : Nat} (h : faultClass src = 1) (timer : Bool) (master : Option Nat)
    (addr access : Nat) (cmd : Option Nat) (d : Dev) : raiseFaultBy timer master src addr access cmd d =
      (let e := noteFault master src addr access d
       { e with prot := { e.prot with corrCount := min (2 ^ 32 - 1) (e.prot.corrCount + 1) } }) := by
  simp only [raiseFaultBy, noteFault, captureFirst, h, if_true]

/-- The other classes end by driving ERR_N. -/
theorem raiseFaultBy_drives {src : Nat} (h : faultClass src ≠ 1) (timer : Bool) (master : Option Nat)
    (addr access : Nat) (cmd : Option Nat) (d : Dev) : ∃ e, raiseFaultBy timer master src addr access cmd d = driveErrN e := by
  simp only [raiseFaultBy, if_neg h]
  split
  · exact ⟨_, rfl⟩
  · exact ⟨_, rfl⟩

section
variable (info : BitVec 32) (addr : Nat) (d : Dev)

@[simp] theorem captureFirst_link : (captureFirst info addr d).link = d.link := by unfold captureFirst; split <;> rfl
@[simp] theorem captureFirst_cmds : (captureFirst info addr d).cmds = d.cmds := by unfold captureFirst; split <;> rfl
@[simp] theorem captureFirst_slices : (captureFirst info addr d).slices = d.slices := by unfold captureFirst; split <;> rfl
@[simp] theorem captureFirst_fatal : (captureFirst info addr d).prot.fatal = d.prot.fatal := by unfold captureFirst; split <;> rfl
@[simp] theorem captureFirst_pendingFc : (captureFirst info addr d).prot.pendingFc = d.prot.pendingFc := by
  unfold captureFirst; split <;> rfl
@[simp] theorem captureFirst_corrCount : (captureFirst info addr d).prot.corrCount = d.prot.corrCount := by
  unfold captureFirst; split <;> rfl

end

section
variable (master : Option Nat) (src addr access : Nat) (d : Dev)

@[simp] theorem noteFault_link : (noteFault master src addr access d).link = d.link := by simp [noteFault]
@[simp] theorem noteFault_cmds : (noteFault master src addr access d).cmds = d.cmds := by simp [noteFault]
@[simp] theorem noteFault_slices : (noteFault master src addr access d).slices = d.slices := by simp [noteFault]
@[simp] theorem noteFault_fatal : (noteFault master src addr access d).prot.fatal = d.prot.fatal := by simp [noteFault]
@[simp] theorem noteFault_pendingFc : (noteFault master src addr access d).prot.pendingFc = d.prot.pendingFc := by
  simp [noteFault]

end

/-- Once driven, ERR_N is low exactly while a fault holds it low. -/
theorem driveErrN_follows (d : Dev) :
    (driveErrN d).link.errNLow = ((driveErrN d).prot.fatal || (driveErrN d).prot.pendingFc != 0) := by
  unfold driveErrN
  dsimp only
  split
  · rfl
  · next same => simpa using Eq.symm (by simpa using same)

/-- Settles O26: a CORRECTED fault changes neither side, and every other one drives ERR_N last. -/
theorem errNFollowsFaults : Obligations.ErrNFollowsFaults := by
  unfold Obligations.ErrNFollowsFaults
  intro d src addr access cmd before e
  by_cases corrected : faultClass src = 1
  · have he : e = _ := raiseFaultBy_corrected corrected true _ addr access cmd d
    simp [he, before]
  · obtain ⟨x, hx⟩ := raiseFaultBy_drives corrected true ((cmd.bind (findCmd d)).map (masterId d)) addr access cmd d
    have he : e = driveErrN x := hx
    rw [he]
    exact driveErrN_follows x

/-! What the scheduler offers. -/

/-- Nothing but credits keeps a command that may be dispatched. -/
theorem mayDispatch_says {m : Memory} {d : Dev} {c : Cmd} (h : mayDispatch m d c = true) :
    c.stage = .ready ∧ fenced d c = false ∧ segmentAhead d c = false ∧ ringStalled d c = false ∧
      ∀ j ∈ c.classes, shareOf d c.account (classNo j) ≠ 0 := by
  simp only [mayDispatch, Bool.and_eq_true, beq_iff_eq, Bool.not_eq_true', List.all_eq_true, bne_iff_ne] at h
  obtain ⟨⟨⟨⟨⟨⟨⟨⟨⟨hready, -⟩, hfence⟩, hsegment⟩, hring⟩, -⟩, hshare⟩, -⟩, -⟩, -⟩ := h
  exact ⟨hready, hfence, hsegment, hring, hshare⟩

/-- Every command offered may be dispatched: those run again after CAUTION, and the candidates of every account. -/
theorem mayDispatch_of_mem_offers {m : Memory} {d : Dev} {k : EngClass} {c : Cmd} (h : c ∈ offers m d k) :
    mayDispatch m d c = true := by
  simp only [offers, List.mem_append, List.mem_flatMap, List.mem_filter, candidates, Bool.and_eq_true] at h
  obtain ⟨-, -, hmay⟩ | ⟨-, -, -, -, -, hmay⟩ := h
  · exact hmay
  · exact hmay

/-- The command that is dispatched is one of those offered. -/
theorem mem_of_dispatchFirst {l : List Cmd} {d e : Dev} {c : Cmd} (h : dispatchFirst l d = (some c, e)) : c ∈ l := by
  induction l generalizing d with
  | nil => cases h
  | cons x xs ih =>
    simp only [dispatchFirst] at h
    split at h
    · cases h
      exact List.mem_cons_self
    · exact List.mem_cons_of_mem _ (ih h)

/-- Settles O31. -/
theorem offeredMayBeDispatched : Obligations.OfferedMayBeDispatched := by
  unfold Obligations.OfferedMayBeDispatched
  exact fun m d k => ⟨fun c hc => mayDispatch_says (mayDispatch_of_mem_offers hc), fun _ _ _ => mem_of_dispatchFirst⟩

end Sys2Proof.Machine
end

section
/-!
SUPPORT. Ledger entries after a write (R140 to R143 [05]), and how a key is made.
-/
namespace Sys2Proof.Machine

/-! Reading an entry after a write. -/

@[simp] theorem ent_setEnt_same (i : Nat) (e : Entry) (d : Dev) : (setEnt i e d).ent i = e := tget_tset_same _ _ _ _

theorem ent_setEnt_other {i k : Nat} (e : Entry) (d : Dev) (h : k ≠ i) : (setEnt i e d).ent k = d.ent k :=
  tget_tset_other _ _ _ _ _ h

/-- An entry is read from the ledger's entries and its boot number alone. -/
theorem ent_congr {d e : Dev} (hentries : e.led.entries = d.led.entries) (hboot : e.led.boot = d.led.boot) (k : Nat) :
    e.ent k = d.ent k := by simp only [Dev.ent, hentries, hboot]

theorem raisePf0_keeps {α : Type} (f : Dev → α) (h : ∀ (e : Dev) l o, f { e with link := l, out := o } = f e) (v : Nat)
    (d : Dev) : f (raisePf0 v d) = f d := by
  unfold raisePf0
  dsimp only
  split
  · exact h d _ d.out
  · exact h d d.link _

@[simp] theorem raisePf0_clk (v : Nat) (d : Dev) : (raisePf0 v d).clk = d.clk := raisePf0_keeps _ (fun _ _ _ => rfl) v d
@[simp] theorem raisePf0_devTime (v : Nat) (d : Dev) : (raisePf0 v d).devTime = d.devTime := raisePf0_keeps _ (fun _ _ _ => rfl) v d
@[simp] theorem raisePf0_free (v : Nat) (d : Dev) : (raisePf0 v d).free = d.free := raisePf0_keeps _ (fun _ _ _ => rfl) v d
@[simp] theorem raisePf0_otp (v : Nat) (d : Dev) : (raisePf0 v d).otp = d.otp := raisePf0_keeps _ (fun _ _ _ => rfl) v d
@[simp] theorem raisePf0_slices (v : Nat) (d : Dev) : (raisePf0 v d).slices = d.slices := raisePf0_keeps _ (fun _ _ _ => rfl) v d
@[simp] theorem raisePf0_cmds (v : Nat) (d : Dev) : (raisePf0 v d).cmds = d.cmds := raisePf0_keeps _ (fun _ _ _ => rfl) v d
@[simp] theorem raisePf0_nextId (v : Nat) (d : Dev) : (raisePf0 v d).nextId = d.nextId := raisePf0_keeps _ (fun _ _ _ => rfl) v d
@[simp] theorem raisePf0_sched (v : Nat) (d : Dev) : (raisePf0 v d).sched = d.sched := raisePf0_keeps _ (fun _ _ _ => rfl) v d
@[simp] theorem raisePf0_led (v : Nat) (d : Dev) : (raisePf0 v d).led = d.led := raisePf0_keeps _ (fun _ _ _ => rfl) v d
@[simp] theorem raisePf0_cust (v : Nat) (d : Dev) : (raisePf0 v d).cust = d.cust := raisePf0_keeps _ (fun _ _ _ => rfl) v d
@[simp] theorem raisePf0_prot (v : Nat) (d : Dev) : (raisePf0 v d).prot = d.prot := raisePf0_keeps _ (fun _ _ _ => rfl) v d
@[simp] theorem raisePf0_board (v : Nat) (d : Dev) : (raisePf0 v d).board = d.board := raisePf0_keeps _ (fun _ _ _ => rfl) v d
@[simp] theorem raisePf0_dma (v : Nat) (d : Dev) : (raisePf0 v d).dma = d.dma := raisePf0_keeps _ (fun _ _ _ => rfl) v d
@[simp] theorem raisePf0_micro (v : Nat) (d : Dev) : (raisePf0 v d).micro = d.micro := raisePf0_keeps _ (fun _ _ _ => rfl) v d
@[simp] theorem raisePf0_linen (v : Nat) (d : Dev) : (raisePf0 v d).linen = d.linen := raisePf0_keeps _ (fun _ _ _ => rfl) v d
@[simp] theorem raisePf0_held (v : Nat) (d : Dev) : (raisePf0 v d).held = d.held := raisePf0_keeps _ (fun _ _ _ => rfl) v d

/-- An entry taken off the free list, and the quota's event, change no entry. -/
theorem ent_noteQuota_takeFree (s i k : Nat) (d : Dev) : (noteQuota s (takeFree i d)).ent k = d.ent k := by
  have taken : (takeFree i d).ent k = d.ent k := by unfold takeFree; split <;> rfl
  unfold noteQuota
  split
  · exact (ent_congr (by simp) (by simp) k).trans taken
  · exact taken

/-! Making a key. -/

/-- The entry a request makes is no child, so no cascade has marked it. -/
theorem entryOf_unmarked (d : Dev) (r : Req) (mat pub : Bytes) (po : Bool) :
    { entryOf r mat pub po with cascaded := parentMarked d (entryOf r mat pub po) } = entryOf r mat pub po := by
  have unmarked : parentMarked d (entryOf r mat pub po) = false := rfl
  rw [unmarked]
  rfl

/-- A new entry is at the index that has been free longest, PENDING, at that index's generation. -/
theorem allocEnt_eq {d : Dev} {s i : Nat} (hquota : ledgerUsed d s < (d.slice s).cfg.quota) (hfree : nextFree d = some i)
    (e : Entry) : allocEnt s e d =
      some (i, noteQuota s (takeFree i (setEnt i { e with st := .pending, gen := (d.ent i).gen, owner := s } d))) := by
  simp only [allocEnt, if_neg (Nat.not_le.mpr hquota), hfree]

section
variable {d : Dev} {id : Nat} {c : Cmd} (r : Req) (mat pub : Bytes) (po ok : Bool) (b7 : Nat) (outs : List (Nat × Bytes))

/-- What a command that makes a key does with the entry it is given. -/
theorem makeKey_of_pendingEntry (hc : findCmd d id = some c) {i : Nat} {n : Dev}
    (hp : pendingEntry c (entryOf r mat pub po) d = some (i, n)) (hgen : (n.ent i).gen = (d.ent i).gen) :
    makeKey id (entryOf r mat pub po) ok b7 outs d =
      outcomeIs (if ok then answer .ok outs (leBytes 4 (handleOf i (d.ent i).gen) ++ fit 3 (entryOf r mat pub po).kcv ++ leBytes 1 b7)
        else answer .keyCheckFail [] []) id (setCmd { c with entry := some i } n) := by
  simp only [makeKey, hc, hp, hgen]
  rfl

theorem makeKey_of_no_room (hc : findCmd d id = some c) (hp : pendingEntry c (entryOf r mat pub po) d = none) :
    makeKey id (entryOf r mat pub po) ok b7 outs d = failWith .resourceQuota id d := by
  simp only [makeKey, hc, hp]

end

/-- Settles O45, by what a command's PENDING entry is in each of its two cases. -/
theorem keysAreMade : Obligations.KeysAreMade := by
  unfold Obligations.KeysAreMade
  intro d id c r mat pub po ok b7 outs hc e res holds
  have placed (i : Nat) (n : Dev) (hsame : n.ent i = { e with st := .pending, gen := (d.ent i).gen, owner := c.slice })
      (hother : ∀ k, k ≠ i → n.ent k = d.ent k) : holds i n := by
    dsimp only [holds]
    rw [hsame]
    exact ⟨rfl, rfl, rfl, rfl, rfl, rfl, rfl, rfl, rfl, rfl, hother⟩
  refine ⟨fun hnone hroom => ?noRoom, fun hnone hroom => ?new, fun i hheld => ⟨fun hbig => ?noUnits, fun hfits => ?held⟩⟩
  case noRoom =>
    refine makeKey_of_no_room r mat pub po ok b7 outs hc ?_
    simp only [pendingEntry, entryOf_unmarked, hnone]
    exact if_neg (by simpa using hroom)
  case new =>
    have room := hroom
    simp only [roomFor, Bool.and_eq_true, decide_eq_true_eq, Option.isSome_iff_exists] at room
    obtain ⟨⟨hquota, i, hfree⟩, -⟩ := room
    refine ⟨i, _, hfree, allocEnt_eq hquota hfree e, placed i _ ?_ ?_, makeKey_of_pendingEntry r mat pub po ok b7 outs hc ?_ ?_⟩
    · rw [ent_noteQuota_takeFree, ent_setEnt_same]
    · exact fun k hk => by rw [ent_noteQuota_takeFree, ent_setEnt_other _ _ hk]
    · simp only [pendingEntry, entryOf_unmarked, hnone]
      exact (if_pos hroom).trans (allocEnt_eq hquota hfree e)
    · rw [ent_noteQuota_takeFree, ent_setEnt_same]
  case noUnits =>
    refine makeKey_of_no_room r mat pub po ok b7 outs hc ?_
    simp only [pendingEntry, hheld]
    exact if_neg (Nat.not_le.mpr hbig)
  case held =>
    rintro n rfl
    refine ⟨placed i _ (ent_setEnt_same _ _ _) fun k hk => ent_setEnt_other _ _ hk,
      makeKey_of_pendingEntry r mat pub po ok b7 outs hc ?_ ?_⟩
    · simp only [pendingEntry, hheld]
      exact if_pos hfits
    · rw [ent_setEnt_same]

/-! A scheduling round. -/

/-- What is fixed of a class at the round's start. -/
theorem tget_fixRound (d : Dev) (k : EngClass) : tget (0, 0) (fixRound d).sched.round (classNo k) = roundOf d k := by
  cases k <;> rfl

/-- A refill writes the deficits of its account. -/
theorem deficitOf_refill_same (d0 : Dev) (a : Nat) (d : Dev) (k : EngClass) : deficitOf (refill d0 a d) a k = refilled d0 a k := by
  simp only [deficitOf, refill, slice_modSlice_same]
  cases k <;> rfl

theorem deficitOf_refill_other (d0 : Dev) {a b : Nat} (d : Dev) (k : EngClass) (h : b ≠ a) :
    deficitOf (refill d0 a d) b k = deficitOf d b k := by
  simp only [deficitOf, refill, slice_modSlice_other _ _ _ _ h]

/-- After the accounts of a list are refilled, each of them has its refilled deficit. -/
theorem deficitOf_forEach_refill (d0 : Dev) (k : EngClass) {a : Nat} (l : List Nat) (d : Dev)
    (h : a ∈ l ∨ deficitOf d a k = refilled d0 a k) : deficitOf (forEach l (refill d0) d) a k = refilled d0 a k := by
  induction l generalizing d with
  | nil => exact h.resolve_left List.not_mem_nil
  | cons b l ih =>
    refine ih (refill d0 b d) ?_
    by_cases hab : a = b
    · subst hab
      exact .inr (deficitOf_refill_same d0 a d k)
    · refine h.imp (fun hmem => (List.mem_cons.mp hmem).resolve_left hab) fun hd => ?_
      rw [deficitOf_refill_other d0 d k hab, hd]

/-- Refills change slices alone. -/
theorem forEach_refill_keeps {α : Type} (f : Dev → α) (h : ∀ (e : Dev) x, f { e with slices := x } = f e) (d0 : Dev)
    (l : List Nat) (d : Dev) : f (forEach l (refill d0) d) = f d := by
  induction l generalizing d with
  | nil => rfl
  | cons a l ih => exact (ih _).trans (h d _)

/-- The note that a class has ready work changes the scheduler's times and the domains that wake. -/
theorem noteReady_keeps {α : Type} (f : Dev → α)
    (h : ∀ (e : Dev) t l, f { e with sched := { e.sched with lastReady := t }, link := l } = f e) (k : EngClass) (d : Dev) :
    f (noteReady k d) = f d := by
  unfold noteReady
  split
  · rfl
  · exact h d _ _

/-- So do the notes of all classes. -/
theorem noteReadys_keep {α : Type} (f : Dev → α)
    (h : ∀ (e : Dev) t l, f { e with sched := { e.sched with lastReady := t }, link := l } = f e) (l : List EngClass)
    (d : Dev) : f (l.foldl (fun d k => noteReady k d) d) = f d := by
  induction l generalizing d with
  | nil => rfl
  | cons k l ih => exact (ih _).trans (noteReady_keeps f h k d)

/-- An account with ready work in a class is among those of the class. -/
theorem mem_readyAccounts {d : Dev} {a : Nat} {k : EngClass} (h : readyIn d a k ≠ []) : a ∈ readyAccounts d k := by
  obtain ⟨c, hc⟩ := List.exists_mem_of_ne_nil _ h
  simp only [readyIn, List.mem_filter, Bool.and_eq_true, beq_iff_eq] at hc
  obtain ⟨hmem, ⟨hstage, haccount⟩, hclass⟩ := hc
  simp only [readyAccounts, List.mem_eraseDups, List.mem_map, List.mem_filter, Bool.and_eq_true, beq_iff_eq]
  exact ⟨c, ⟨hmem, hstage, hclass⟩, haccount⟩

/-- Settles O30. -/
theorem roundRefillsDeficits : Obligations.RoundRefillsDeficits := by
  unfold Obligations.RoundRefillsDeficits
  intro s halive hstarted d accts e
  have kept {α : Type} (f : Dev → α)
      (hnote : ∀ (x : Dev) t l, f { x with sched := { x.sched with lastReady := t }, link := l } = f x)
      (hrefill : ∀ (x : Dev) y, f { x with slices := y } = f x) : f e = f d :=
    (noteReadys_keep f hnote allClasses _).trans (forEach_refill_keeps f hrefill d accts d)
  have stopped : (!s.dev.alive || !s.dev.link.started) = false := by simp [halive, hstarted]
  refine ⟨fun hearly => ?early, fun hdue => ?due, ?rounds, ?cmds, ?led, fun a k => ?worth, fun a k hacct => ?deficit⟩
  case early =>
    show execSchedulingRound s = _
    simp [execSchedulingRound, hearly]
  case due =>
    show execSchedulingRound s = _
    simp only [execSchedulingRound, onDev_eq, stopped, Bool.false_or, decide_eq_true_eq, if_neg (Nat.not_lt.mpr hdue)]
    rfl
  case rounds => exact kept (fun x => x.sched.rounds) (fun _ _ _ => rfl) fun _ _ => rfl
  case cmds => exact kept (fun x => x.cmds) (fun _ _ _ => rfl) fun _ _ => rfl
  case led => exact kept (fun x => x.led) (fun _ _ _ => rfl) fun _ _ => rfl
  case worth =>
    rw [worth, tget_fixRound]
    rfl
  case deficit =>
    have listed : a ∈ accts := by
      simp only [accts, List.mem_eraseDups, List.mem_append]
      rcases hacct with hlive | hready
      · simp [hlive]
      · have hk := mem_readyAccounts hready
        cases k <;> simp [hk]
    exact (noteReadys_keep (deficitOf · a k) (fun _ _ _ => rfl) allClasses _).trans
      (deficitOf_forEach_refill d k accts d (.inl listed))

end Sys2Proof.Machine
end

section
/-!
SUPPORT. The idle nanosecond, reset, resets and power loss, start-up and the battery domain (R52, R90 [02]; R176 [05]; R402,
R407 [14]; R451 [16]; R487 [18]).
-/
namespace Sys2Proof.Machine

/-! An idle nanosecond. -/

/-- A started device in which queue 0 of slice 1 owes its consumer-index word. -/
def owesIndexWord : State :=
  { State.reset with dev := { Dev.reset with
    link := { Link.reset with started := true }
    slices := [(1, { Slice.reset with sqs := [(0, { Sq.reset 0 with ciOwed := true, ciAddr := 64 })] })] } }

/-- The word that is due is written under the queue's PASID, whose translation enters the cache. -/
theorem ats_tick_owesIndexWord : (tick owesIndexWord).dev.dma.ats = [(0, 0)] := by decide +kernel

/-- Refutes O6: a consumer-index word that falls due in an idle nanosecond changes the translation cache of the DMA
engine. -/
theorem not_idleTick : ¬ Obligations.IdleTick := by
  unfold Obligations.IdleTick
  intro h
  obtain ⟨t, ht, -, -, -, -, -, -, -, -, -, hdma, -⟩ := h owesIndexWord rfl
  have ticked : tick owesIndexWord = t := Host.Outcome.next.inj ht
  have ats := congrArg Dma.ats hdma
  rw [← ticked, ats_tick_owesIndexWord] at ats
  exact absurd ats (by decide)

/-! Reset. -/

theorem lc_reset : State.reset.dev.lc = 17 := by decide +kernel

/-- Settles O7, field by field. -/
theorem resetValues : Obligations.ResetValues := by
  unfold Obligations.ResetValues
  exact ⟨rfl, rfl, rfl, lc_reset, rfl, fun k => ⟨rfl, rfl, rfl, rfl, rfl, rfl, rfl⟩, fun k q => ⟨rfl, rfl, rfl, rfl⟩,
    fun k q => ⟨rfl, rfl, rfl⟩, rfl, rfl, rfl, rfl, rfl, rfl, fun _ => rfl, rfl, rfl, rfl, fun _ => rfl, fun _ => rfl, rfl, rfl⟩

/-! Power loss. -/

/-- Pins that are let go change what has been put out alone. -/
theorem releasePins_keeps {α : Type} (f : Dev → α) (h : ∀ (e : Dev) o, f { e with out := o } = f e) (d : Dev) :
    f (releasePins d) = f d := by
  have put (c : Prop) [Decidable c] (x : Emit) (e : Dev) : f (if c then emit x e else e) = f e := by
    split
    · exact h e _
    · rfl
  unfold releasePins
  dsimp only
  rw [put, put, put, put]

/-- A transition that loses its power changes OTP and the draws alone. -/
theorem tearOtp_keeps {α : Type} (f : Dev → α) (h : ∀ (e : Dev) n o, f { e with free := n, otp := o } = f e) (d : Dev) :
    f (tearOtp d) = f d := by
  unfold tearOtp
  split
  · rfl
  · dsimp only [drawNat, draw]
    repeat' split
    all_goals exact h d _ _

theorem tearFloor_keeps {α : Type} (f : Dev → α) (h : ∀ (e : Dev) n o, f { e with free := n, otp := o } = f e) (d : Dev) :
    f (tearFloor d) = f d := by
  unfold tearFloor
  split
  · rfl
  · exact h d _ _

theorem tearFuse_keeps {α : Type} (f : Dev → α) (h : ∀ (e : Dev) n o, f { e with free := n, otp := o } = f e) (d : Dev) :
    f (tearFuse d) = f d := by
  unfold tearFuse
  split
  · rfl
  · exact h d _ _

/-- What power loss keeps is read from the device with its pins let go and its OTP writes torn. -/
theorem torn_keeps {α : Type} (f : Dev → α) (d : Dev)
    (h : ∀ (e : Dev) n o, f { e with free := n, otp := o } = f e := by exact fun _ _ _ => rfl)
    (hout : ∀ (e : Dev) o, f { e with out := o } = f e := by exact fun _ _ => rfl) :
    f (tearFuse (tearFloor (tearOtp (releasePins d)))) = f d := by
  rw [tearFuse_keeps f h, tearFloor_keeps f h, tearOtp_keeps f h, releasePins_keeps f hout]

/-- Without an OTP write under way nothing is torn. -/
theorem tear_idle {d : Dev} (hrun : d.link.lcRun = none) (hfloor : d.micro.floorDue = none) (hfuse : d.prot.fuseDue = none) :
    tearFuse (tearFloor (tearOtp d)) = d := by
  simp only [tearOtp, tearFloor, tearFuse, hrun, hfloor, hfuse]

@[simp] theorem powerLoss_clk (d : Dev) : (powerLoss (releasePins d)).clk = d.clk :=
  torn_keeps (·.clk) d

/-- Settles O8. -/
theorem powerLossResets : Obligations.PowerLossResets := by
  unfold Obligations.PowerLossResets
  refine ⟨fun s supply => ⟨rfl, rfl, ?_, rfl⟩, fun d => ?_⟩
  · show execSupplyReset supply s = _
    simp only [execSupplyReset, onDev_eq, powerLoss_clk]
  · refine ⟨powerLoss_clk d, fun hrun hfloor hfuse => ?_, torn_keeps (·.prot.latched) d, torn_keeps (·.prot.batLog) d,
      torn_keeps (·.prot.batCount) d, torn_keeps (·.prot.rtc) d, torn_keeps (·.prot.levels) d, torn_keeps (·.board.key) d,
      torn_keeps (·.board.manifestDigest) d, torn_keeps (·.board.header) d, torn_keeps (fun x => (mapCust vaultOnly x).cust) d,
      torn_keeps (·.led.boot) d, rfl, rfl, rfl, rfl, rfl, rfl, rfl, rfl, rfl, rfl, rfl, rfl, rfl, rfl, rfl, rfl, rfl, rfl, rfl,
      rfl, rfl, rfl, rfl, rfl, torn_keeps (·.link.porstLow) d, torn_keeps (·.link.perstLow) d,
      torn_keeps (·.link.supplyReset) d, torn_keeps (·.link.mainPower) d, torn_keeps (·.link.onBattery) d,
      torn_keeps (·.link.batDead) d, torn_keeps (·.link.boardId) d⟩
    have idle : tearFuse (tearFloor (tearOtp (releasePins d))) = releasePins d :=
      tear_idle ((releasePins_keeps (·.link.lcRun) (fun _ _ => rfl) d).trans hrun)
        ((releasePins_keeps (·.micro.floorDue) (fun _ _ => rfl) d).trans hfloor)
        ((releasePins_keeps (·.prot.fuseDue) (fun _ _ => rfl) d).trans hfuse)
    exact ⟨(congrArg Dev.otp idle).trans (releasePins_keeps (·.otp) (fun _ _ => rfl) d),
      (congrArg Dev.free idle).trans (releasePins_keeps (·.free) (fun _ _ => rfl) d)⟩

end Sys2Proof.Machine
end

section
/-!
SUPPORT. What shared operations leave: host writes (R51 [02]), audit records (R388 to R391 [13]), freed ledger entries (R143
[05]), the erased vault (R400 [14]). One lemma per operation: a property of the device that no change of the parts it
touches can change is as before.
-/
namespace Sys2Proof.Machine

section
variable {α : Type} (f : Dev → α) (d : Dev)

theorem noteAts_keeps (p : Option Nat) (a n : Nat) (h : ∀ (e : Dev) m, f { e with dma := m } = f e := by exact fun _ _ => rfl) :
    f (noteAts p a n d) = f d := by
  unfold noteAts
  split
  · rfl
  · split
    · rfl
    · exact h d _

theorem hostWrite_keeps (s slot a : Nat) (b : Bytes)
    (h : ∀ (e : Dev) m x o, f { e with dma := m, held := x, out := o } = f e := by exact fun _ _ _ _ => rfl) :
    f (hostWrite s slot a b d) = f d := by
  unfold hostWrite
  dsimp only
  split
  · exact h d d.dma _ d.out
  · exact (h _ (noteAts _ _ _ d).dma (noteAts _ _ _ d).held _).trans
      (noteAts_keeps f d _ _ _ fun e m => h e m e.held e.out)

theorem forEach_keeps {β : Type} (g : β → Dev → Dev) (hg : ∀ b e, f (g b e) = f e) (l : List β) : f (forEach l g d) = f d := by
  induction l generalizing d with
  | nil => rfl
  | cons b l ih => exact (ih (g b d)).trans (hg b d)

end

section
variable {α : Type} (f : Dev → α) (d : Dev) (s : Nat)
  (h : ∀ (e : Dev) c m x o, f { e with cust := c, dma := m, held := x, out := o } = f e)
include h

theorem auditPublish_keeps : f (auditPublish s d) = f d := by
  unfold auditPublish
  dsimp only
  split
  · exact (hostWrite_keeps f _ _ _ _ _ fun e m x o => h e e.cust m x o).trans (h d _ d.dma d.held d.out)
  · rfl

theorem auditPlace_keeps (r : Bytes) : f (auditPlace s r d) = f d :=
  hostWrite_keeps f _ _ _ _ _ fun e m x o => h e e.cust m x o

theorem auditMake_keeps (b : AuditBody) : f (auditMake s b d) = f d := by
  unfold auditMake
  dsimp only
  split
  · exact (auditPublish_keeps f _ s h).trans ((auditPlace_keeps f _ s h _).trans (h d _ d.dma d.held d.out))
  · exact h d _ d.dma d.held d.out

theorem auditOwn_keeps (b : AuditBody) : f (auditOwn s b d) = f d := by
  unfold auditOwn
  dsimp only
  split
  · rfl
  · split
    · exact auditMake_keeps f d s h b
    · exact h d _ d.dma d.held d.out

theorem auditStart_keeps (k : Bytes) : f (auditStart s k d) = f d :=
  (auditMake_keeps f _ s h _).trans (h d _ d.dma d.held d.out)

theorem auditEvent_keeps (typ level source esn : Nat) : f (auditEvent typ level source esn d) = f d :=
  auditOwn_keeps f d 0 h _

end

/-! Entries freed. -/

section
variable {α : Type} (f : Dev → α) (d : Dev) (h : ∀ (e : Dev) l b, f { e with led := l, board := b } = f e)
include h

theorem freeEnt_keeps (i : Nat) : f (freeEnt i d) = f d := by
  unfold freeEnt
  dsimp only
  split
  · rfl
  · exact h d _ _

theorem freeWhere_keeps (p : Entry → Bool) : f (freeWhere p d) = f d :=
  forEach_keeps f d freeEnt (fun i e => freeEnt_keeps f e h i) _

end

/-! The board's key and the vault erased. -/

/-- The board key is gone. -/
theorem dropBoard_key (d : Dev) : (dropBoard d).board.key = none := by
  unfold dropBoard
  dsimp only
  split
  · next hnone => simpa using hnone
  · simp

/-- Losing the board changes the board, and the link's event. -/
theorem dropBoard_keeps {α : Type} (f : Dev → α) (d : Dev)
    (h : ∀ (e : Dev) b l o, f { e with board := b, link := l, out := o } = f e := by exact fun _ _ _ _ => rfl) :
    f (dropBoard d) = f d := by
  unfold dropBoard
  dsimp only
  split
  · rfl
  · exact (raisePf0_keeps f (fun e l o => h e e.board l o) _ _).trans (h d _ d.link d.out)

theorem eraseVault_keeps {α : Type} (f : Dev → α) (d : Dev)
    (h : ∀ (e : Dev) c v b l o, f { e with cust := c, prot := { e.prot with levels := v }, board := b, link := l, out := o }
      = f e := by exact fun _ _ _ _ _ _ => rfl) : f (eraseVault d) = f d :=
  (dropBoard_keeps f _ fun e b l o => h e e.cust e.prot.levels b l o).trans (h d _ _ d.board d.link d.out)

theorem eraseVault_cust (d : Dev) :
    (eraseVault d).cust = (mapCust (fun c => { Custody.reset with audit := c.audit }) d).cust :=
  dropBoard_keeps (·.cust) _

theorem eraseVault_levels (d : Dev) : (eraseVault d).prot.levels = defaultLevels :=
  dropBoard_keeps (·.prot.levels) _

/-- Every custody that is left is one without keys. -/
theorem mem_eraseVault_cust {d : Dev} {x : Nat × Custody} (h : x ∈ (eraseVault d).cust) :
    ∃ c : Custody, x.2 = { Custody.reset with audit := c.audit } := by
  rw [eraseVault_cust] at h
  obtain ⟨e, -, rfl⟩ := List.mem_map.mp h
  exact ⟨e.2, rfl⟩

/-! Start-up and the battery domain. -/

/-- Slice 0 is ACTIVE with the configuration of R64 once start-up has ended. -/
theorem slice_startSlice0 (d : Dev) : (startSlice0 d).slice 0 = { Slice.reset with st := .active, cfg := slice0Cfg } := by
  have kept := auditStart_keeps (·.slice 0) (d.setSlice 0 { Slice.reset with st := .active, cfg := slice0Cfg }) 0
    (fun _ _ _ _ _ => rfl) ((d.setSlice 0 { Slice.reset with st := .active, cfg := slice0Cfg }).mkId 0)
  exact kept.trans (slice_setSlice_same _ _ _)

/-- The guard of STARTUP, the other way round. -/
theorem startUp_guard (l : Link) (late : Bool) :
    (l.started || !l.mainPower || (l.supplyReset && late)) = !(!l.started && l.mainPower && !(l.supplyReset && late)) := by
  cases l.started <;> simp

/-- STARTUP does nothing unless the device has not started, has main power and is out of a supply reset. -/
theorem execStartup_of_not {straps : BitVec 3} {units : List (Nat × Nat)} {sources : List Nat} {s : State}
    (h : (!s.dev.link.started && s.dev.link.mainPower &&
      !(s.dev.link.supplyReset && decide (s.dev.clk < s.dev.link.startAt + 1000000))) = false) :
    execStartup straps units sources s = .next s := by
  simp only [execStartup, onBoth_eq, startUp_guard, h, Bool.not_false, if_true]

/-- Settles O9. -/
theorem startUpAndBattery : Obligations.StartUpAndBattery := by
  unfold Obligations.StartUpAndBattery
  refine ⟨fun s straps units sources => ?_, fun s => ⟨?_, fun h => ?_, fun h => ?_⟩,
      fun s k => ⟨fun h => ?_, fun h1 h2 h3 h4 => ⟨fun hl => ?_, fun hl => ?_⟩⟩,
    fun d => ⟨eraseVault_levels d, dropBoard_key _, eraseVault_keeps (·.otp) d, eraseVault_keeps (·.led) d,
      eraseVault_keeps (·.slices) d, eraseVault_keeps (·.cmds) d, eraseVault_keeps (·.prot.batLog) d,
      eraseVault_keeps (·.prot.rtc) d, fun x hx => ?_⟩⟩
  · refine ⟨fun h => ?_, fun h => ?_, rfl, rfl, rfl, rfl, ?_, ?_⟩
    · exact execStartup_of_not h
    · show execStartup straps units sources s = _
      simp only [execStartup, onBoth_eq, startUp_guard, h, Bool.not_true, Bool.false_eq_true, if_false]
    · exact congrArg Slice.st (slice_startSlice0 _)
    · exact congrArg Slice.cfg (slice_startSlice0 _)
  · show execMainPowerReturn s = _
    rfl
  · show execBatteryDomainUnpowered s = _
    simp [execBatteryDomainUnpowered, h]
  · show execBatteryDomainUnpowered s = _
    simp [execBatteryDomainUnpowered, h]
  · show execBatteryAlarm k s = _
    rcases h with h | h | h | h <;> simp [execBatteryAlarm, h]
  · show execBatteryAlarm k s = _
    simp [-BitVec.getLsbD_eq_getElem, execBatteryAlarm, h1, h2, h3, h4, hl]
  · show execBatteryAlarm k s = _
    simp [-BitVec.getLsbD_eq_getElem, execBatteryAlarm, h1, h2, h3, h4, hl]
  · obtain ⟨c, hc⟩ := mem_eraseVault_cust hx
    rw [hc]
    exact ⟨rfl, rfl, rfl, rfl, rfl, rfl⟩

end Sys2Proof.Machine
end

section
/-!
SUPPORT. Link loss and function level resets (R52, R90 [02]), tamper alarms (R395 to R405 [14]), temperature and supplies
(R396, R402, R403 [14]).
-/
namespace Sys2Proof.Machine

/-! Link loss and function level resets. -/

theorem loseSlices_cmds (d : Dev) : (loseSlices d).cmds = [] :=
  freeWhere_keeps (·.cmds) _ (fun _ _ _ => rfl) _

/-- A queue of a slice after a function level reset is disabled. -/
theorem sq_flrSlice (x : Slice) (q : Nat) : ((flrSlice x).sq q).st = .disabled := by
  simp only [flrSlice, Slice.sq]
  induction x.sqs with
  | nil => rfl
  | cons e l ih =>
    rw [List.map_cons, tget]
    split
    · rfl
    · split
      · rfl
      · exact ih

/-- A ring of a slice after a function level reset is disabled. -/
theorem cq_flrSlice (x : Slice) (q : Nat) : ((flrSlice x).cq q).st = .disabled := by
  simp only [flrSlice, Slice.cq]
  induction x.cqs with
  | nil => rfl
  | cons e l ih =>
    rw [List.map_cons, tget]
    split
    · rfl
    · split
      · rfl
      · exact ih

/-- Settles O10. -/
theorem linkLossAndFunctionResets : Obligations.LinkLossAndFunctionResets := by
  unfold Obligations.LinkLossAndFunctionResets
  intro s hp
  refine ⟨fun h => ?_, fun h => ?_, rfl, loseSlices_cmds _, rfl, ?_, ?_, fun x => ⟨rfl, rfl, rfl, rfl, rfl, sq_flrSlice x, cq_flrSlice x⟩⟩
  · show execLinkLoss s = _
    simp [execLinkLoss, hp, h]
  · show execLinkLoss s = _
    simp [execLinkLoss, h]
  · show execFlrPf0 s = _
    simp [execFlrPf0, hp]
  · show execFlrPf1 s = _
    simp [execFlrPf1, hp]

/-! Alarms. -/

/-- What an alarm at T0 or T1 leaves after its bits are set. -/
def alarmView (d : Dev) : BitVec 32 × BitVec 32 × Nat × TamperSt × List Cmd × Ledger × Otp :=
  (d.prot.active, d.prot.seen, d.prot.lastSource, d.prot.st, d.cmds, d.led, d.otp)

/-- TAMPER_N is low for 10 µs (R397). -/
def pulseTamperN (d : Dev) : Dev :=
  { (emit (.tamperN true) d) with prot := { d.prot with tamperLowUntil := d.clk + 10000 } }

/-- A response at T0 or T1 begins no HOLD and erases nothing (R397 [14]). -/
theorem alarmView_respond {k level : Nat} (h : level ≤ 1) (d : Dev) : alarmView (respond k level d) = alarmView d := by
  have audited (l n : Nat) (e : Dev) : alarmView (auditEvent 1 l k n (linenPend 25 e)) = alarmView e :=
    auditEvent_keeps alarmView (linenPend 25 e) (fun _ _ _ _ _ => rfl) _ _ _ _
  obtain rfl | rfl : level = 0 ∨ level = 1 := by omega
  · exact audited 0 _ d
  · refine Eq.trans ?_ (audited 1 (d.prot.esn - 1) d)
    show alarmView (pulseTamperN (logEvent 2 1 k [] (raisePf0 320 (auditEvent 1 1 k (d.prot.esn - 1) (linenPend 25 d))))) = _
    simp [alarmView, pulseTamperN]

/-- An alarm of a source that is not fused sets its bits and is answered. -/
theorem alarm_of_unfused {k : Nat} {d : Dev} (h29 : k ≠ 29) (h30 : k ≠ 30) (hf : d.otp.fuses.getLsbD k = false) :
    alarm k d = respond k (levelOf d k) (logEvent 1 (levelOf d k) k [] { d with prot := { d.prot with
      active := d.prot.active ||| 1#32 <<< k, seen := d.prot.seen ||| 1#32 <<< k, lastSource := k } }) := by
  simp only [alarm, h29, h30, hf, decide_false, Bool.or_self, Bool.false_eq_true, if_false]

/-- Settles O11. -/
theorem tamperAlarmsMarkTheirSource : Obligations.TamperAlarmsMarkTheirSource := by
  unfold Obligations.TamperAlarmsMarkTheirSource
  refine ⟨fun s k hp => ⟨fun ho hf => ?_, fun h => ?_, fun hb hi => ?_, fun hb hi => ?_, fun hb => ?_, rfl⟩,
    fun d k h29 h30 hf hl => ?_⟩
  · show execTamperAlarm k s = _
    cases ht : s.dev.prot.selfTest with
    | none => simp [-BitVec.getLsbD_eq_getElem, execTamperAlarm, hp, ht, hf, alarmMem]
    | some t =>
      rw [ht] at ho
      simp only at ho
      simp [-BitVec.getLsbD_eq_getElem, execTamperAlarm, hp, ht, ho, hf, alarmMem]
  · show execTamperAlarm k s = _
    rcases h with h | h
    · cases ht : s.dev.prot.selfTest with
      | none =>
        rw [ht] at h
        exact absurd h Bool.false_ne_true
      | some t =>
        rw [ht] at h
        simp only at h
        simp [execTamperAlarm, ht, h]
    · simp [-BitVec.getLsbD_eq_getElem, execTamperAlarm, h]
  · show execTamperBusLow s = _
    simp only [execTamperBusLow, onBoth_eq, hp, hb, hi, Bool.not_true, Bool.or_false, Bool.false_eq_true, if_false]
    rfl
  · show execTamperBusLow s = _
    simp [execTamperBusLow, hp, hb, hi, sameIncident]
  · show execTamperBusLow s = _
    simp [execTamperBusLow, hb]
  · have h := (congrArg alarmView (alarm_of_unfused h29 h30 hf)).trans (alarmView_respond hl _)
    simp only [alarmView, Prod.mk.injEq, logEvent_active, logEvent_seen, logEvent_lastSource, logEvent_st, logEvent_cmds,
      logEvent_led, logEvent_otp] at h
    obtain ⟨hactive, hseen, hlast, hst, hcmds, hled, hotp⟩ := h
    refine ⟨?_, ?_, hlast, hst, hcmds, hled, hotp⟩
    · rw [hactive]
      simp
    · rw [hseen]
      simp

/-- Settles O12. -/
theorem temperatureAndSupplies : Obligations.TemperatureAndSupplies := by
  unfold Obligations.TemperatureAndSupplies
  intro s tj k hp
  refine ⟨?_, ?_, fun h => ?_, fun h => ?_, ?_, fun t ht hc => ?_, fun hc hf => ?_⟩
  · show execThermTrip tj s = _
    have powered (p : Protect) : Dev.powered { s.dev with prot := p } = true := hp
    simp only [execThermTrip, onDev_eq, powered, Bool.not_true, Bool.false_or]
  · rfl
  · show execSupplyWarning k s = _
    simp [execSupplyWarning, hp, h]
  · show execSupplyWarning k s = _
    simp [execSupplyWarning, hp, h]
  · rfl
  · show execCautionEnd s = _
    simp [execCautionEnd, ht, hc]
  · show execCautionTimeout s = _
    simp [execCautionTimeout, hc, hf]

end Sys2Proof.Machine
end

section
/-!
SUPPORT. The interfaces beside the BARs (R49, R86 to R88 [02], R365, R366 [13]) and the registers behind them (R6 to R9 [00]).
-/
namespace Sys2Proof.Machine

/-- The debug instructions open the port where debug is allowed (R365, R366). -/
theorem tapDebug_eq {s : State} {ti : TapInstr} (hti : ti = .debug ∨ ti = .dcode) (hp : s.dev.powered = true) :
    exec (.tapInstruction ti) s =
      if s.dev.lc = 0 ∨ isTestUnlocked s.dev.lc = true ∨ s.dev.link.debugOpen = true then
        .next { s with dev := { s.dev with link := { s.dev.link with tapOpen := true } } }
      else .next s := by
  show execTapInstruction ti s = _
  rcases hti with rfl | rfl <;>
  · simp only [execTapInstruction, onBoth_eq, hp, Bool.true_and, Bool.or_eq_true, decide_eq_true_eq, or_assoc]
    split <;> rfl

/-- Settles O13. -/
theorem sidebandInterfaces : Obligations.SidebandInterfaces := by
  unfold Obligations.SidebandInterfaces
  intro s path index stream keys pasid pages bar off width value payload readReq fn req hp hl
  have hears : spdmHears s.dev path = true := by cases path <;> simp [spdmHears, hp, hl]
  refine ⟨?_, ?_, fun hi hv => ?_, fun ho hk => ?_, fun ho => ?_, rfl, ?_, rfl, rfl, fun h => ?_, fun h => ?_, fun h => ?_,
    fun h1 h2 => ?_, fun h => ?_, fun h => ?_, ?_, ?_, ?_, ?_, fun h => ?_, fun h => ?_⟩
  · show execSpdmRequest path .getVersion s = _
    simp only [execSpdmRequest, onDev_eq, hears, if_true, spdmAnswer]
  · show execSpdmRequest path (.negotiate 0x13) s = _
    simp only [execSpdmRequest, onDev_eq, hears, if_true, spdmAnswer]
    rfl
  · show execSpdmRequest path (.measurement index) s = _
    simp [execSpdmRequest, hears, spdmAnswer, hi, hv]
  · show execIdeKm stream (some path) keys s = _
    simp [execIdeKm, hears, ho, hk]
  · show execIdeKm stream (some path) keys s = _
    simp [execIdeKm, ho]
  · show execAtsInvalidate pasid pages s = _
    simp [execAtsInvalidate, hp]
  · show execTapInstruction .idcode s = _
    simp [execTapInstruction, hp, h]
  · show execTapInstruction .idcode s = _
    simp [execTapInstruction, h]
  · show execTapInstruction .extest s = _
    simp [execTapInstruction, hp, h]
  · show execTapInstruction .extest s = _
    simp [execTapInstruction, h1, h2]
  · exact ⟨(tapDebug_eq (.inl rfl) hp).trans (if_pos h), (tapDebug_eq (.inr rfl) hp).trans (if_pos h)⟩
  · exact ⟨(tapDebug_eq (.inl rfl) hp).trans (if_neg h), (tapDebug_eq (.inr rfl) hp).trans (if_neg h)⟩
  · show execTlpOutsideIde (.config fn (.read off)) s = _
    simp [execTlpOutsideIde, hp, hl, cfgRequest, drawNat]
  · show execTlpOutsideIde (.config fn (.sizes payload readReq)) s = _
    simp [execTlpOutsideIde, hp, hl, cfgRequest]
  · show execTlpOutsideIde (.doe req) s = execSpdmRequest .doe req s
    simp [execTlpOutsideIde, hp, hl]
  · show execTlpOutsideIde .other s = _
    simp [execTlpOutsideIde, discard]
  · constructor
    · show execTlpOutsideIde (.write bar off width value) s = _
      simp [execTlpOutsideIde, h, discard]
    · show execTlpOutsideIde (.read bar off width) s = _
      simp [execTlpOutsideIde, h, discard]
  · refine ⟨?_, fun hb => ?_⟩
    · show execTlpOutsideIde (.write bar off width value) s = execRegisterWrite bar off width value s
      simp [execTlpOutsideIde, hp, hl, h]
    · show execTlpOutsideIde (.read bar off width) s = _
      simp [execTlpOutsideIde, hp, hl, h, hb]

/-! Registers. -/

section
variable (s : State)

/-- A write of PF0 that is aligned reaches its register. -/
theorem write_pf0 (h : s.dev.reachable = true) {off w : Nat} (hw : 0 < w) (hoff : off % w = 0) (hin : off + w ≤ 0x4000000)
    (v : Nat) : exec (.registerWrite .pf0 off w v) s = pf0Write off w (v % 2 ^ (8 * w)) s := by
  show execRegisterWrite .pf0 off w v s = _
  rw [execRegisterWrite, if_neg (by show ¬ 0x4000000 < off + w; omega)]
  simp [h, hoff, Nat.ne_of_gt hw]

/-- A write of a slice's page that is aligned reaches its register. -/
theorem write_page (h : s.dev.reachable = true) (sl : Fin 256) {off : Nat} (hoff : off % 4 = 0) (hin : off < 65536)
    (v : BitVec 32) : exec (.registerWrite .pf1 (sl.val * 65536 + off) 4 v.toNat) s = pageWrite sl off 4 v.toNat s := by
  have hs := sl.isLt
  have hsl : Fin.ofNat 256 ((sl.val * 65536 + off) / 65536) = sl := by
    apply Fin.ext
    show (sl.val * 65536 + off) / 65536 % 256 = sl.val
    omega
  have ho : (sl.val * 65536 + off) % 65536 = off := by omega
  have hv : v.toNat % 2 ^ (8 * 4) = v.toNat := Nat.mod_eq_of_lt v.isLt
  show execRegisterWrite .pf1 (sl.val * 65536 + off) 4 v.toNat s = _
  rw [execRegisterWrite, if_neg (by show ¬ 0x1000000 < sl.val * 65536 + off + 4; omega), hsl, ho, hv]
  have ha : (sl.val * 65536 + off) % 4 = 0 := by omega
  simp [h, ha]

/-- Register `i` of sixteen, from its place. -/
theorem fin16_of_offset (q : Fin 16) {n : Nat} (h : n = q.val) : Fin.ofNat 16 n = q := by
  subst h
  exact Fin.ext (Nat.mod_eq_of_lt q.isLt)

variable (sl : Fin 256) (q : Fin 16) (v : Nat)

theorem pageWrite_sqDoorbell : pageWrite sl (0x2C00 + 8 * q.val) 4 v s = execSqDoorbell sl q (BitVec.ofNat 32 v) s := by
  have hq := q.isLt
  generalize ho : 0x2C00 + 8 * q.val = o
  have hi : Fin.ofNat 16 ((o - 0x2C00) / 8) = q := fin16_of_offset q (by omega)
  simp (disch := omega) only [pageWrite, hi, if_pos, if_neg, Bool.and_eq_true, decide_eq_true_eq, and_true]

theorem pageWrite_cqDoorbell : pageWrite sl (0x2C04 + 8 * q.val) 4 v s = execCqDoorbell sl q (BitVec.ofNat 32 v) s := by
  have hq := q.isLt
  generalize ho : 0x2C04 + 8 * q.val = o
  have hi : Fin.ofNat 16 ((o - 0x2C00) / 8) = q := fin16_of_offset q (by omega)
  simp (disch := omega) only [pageWrite, hi, if_pos, if_neg, Bool.and_eq_true, decide_eq_true_eq, and_true]

theorem pageWrite_sqRestart :
    pageWrite sl (0x2000 + (0x80 * q.val + 0x3C)) 4 v s = execSqRestart sl q (BitVec.ofNat 32 v) s := by
  have hq := q.isLt
  generalize ho : 0x2000 + (0x80 * q.val + 0x3C) = o
  have hi : Fin.ofNat 16 ((o - 0x2000) / 0x80) = q := fin16_of_offset q (by omega)
  have hr : o % 0x80 = 0x3C := by omega
  simp (disch := omega) only [pageWrite, hi, hr, if_pos, if_neg, Bool.and_eq_true, decide_eq_true_eq, and_true]
  rfl

theorem pageWrite_xwOwner : pageWrite sl (0x800 + 4 * q.val) 4 v s = execXwOwnerWrite sl q (BitVec.ofNat 32 v) s := by
  have hq := q.isLt
  generalize ho : 0x800 + 4 * q.val = o
  have hi : Fin.ofNat 16 ((o - 0x800) / 4) = q := fin16_of_offset q (by omega)
  simp (disch := omega) only [pageWrite, hi, if_pos, if_neg, Bool.and_eq_true, decide_eq_true_eq, and_true]

end

/-- Settles O14. -/
theorem registerWrites : Obligations.RegisterWrites := by
  unfold Obligations.RegisterWrites
  intro s sl q v hr
  have hv : v.toNat % 2 ^ (8 * 4) = v.toNat := Nat.mod_eq_of_lt v.isLt
  have hq := q.isLt
  have h0 (off : Nat) (ho : off % 4 = 0) (hin : off + 4 ≤ 0x4000000) :
      exec (.registerWrite .pf0 off 4 v.toNat) s = pf0Write off 4 v.toNat s :=
    (write_pf0 s hr (by decide) ho hin _).trans (by rw [hv])
  refine ⟨fun bar off width value h => ?_, fun off width value hin ha => ?_, fun off width value hin ha => ?_, ?_, ?_, ?_, ?_, ?_, ?_,
    ?_, ?_, ?_, ?_⟩
  · show execRegisterWrite bar off width value s = _
    rw [execRegisterWrite, if_pos h]
  · show execRegisterWrite .pf0 off width value s = _
    rw [execRegisterWrite, if_neg (by show ¬ 0x4000000 < off + width; omega)]
    simp [hr, ha, discard]
  · show execRegisterWrite .pf1 off width value s = _
    rw [execRegisterWrite, if_neg (by show ¬ 0x1000000 < off + width; omega)]
    simp [hr, ha, discard]
  · rw [write_pf0 s hr (by decide) (by decide) (by decide)]
    rfl
  · refine (h0 0x210 (by decide) (by decide)).trans ?_
    show execIdeCtrlWrite (BitVec.ofNat 32 v.toNat) s = _
    simp [execIdeCtrlWrite, hr, BitVec.ofNat_toNat]
  · refine (h0 0x20004 (by decide) (by decide)).trans ?_
    show mgrWrite _ s = _
    simp [mgrWrite, hr, bits]
  · refine (h0 0x4000C (by decide) (by decide)).trans ?_
    simp [pf0Write, mgrWrite, hr]
  · refine (h0 0x20214 (by decide) (by decide)).trans ?_
    show execFcFirstClr (BitVec.ofNat 32 v.toNat) s = _
    simp [execFcFirstClr, hr]
  · refine (write_page s hr sl (off := 0x100) (by decide) (by decide) v).trans ?_
    show execIntMaskWrite sl (BitVec.ofNat 32 v.toNat) s = execIntMaskWrite sl v s
    rw [BitVec.ofNat_toNat, BitVec.setWidth_eq]
  · rw [Nat.add_assoc]
    refine (write_page s hr sl (off := 0x2C00 + 8 * q.val) (by omega) (by omega) v).trans ?_
    show _ = execSqDoorbell sl q v s
    rw [pageWrite_sqDoorbell, BitVec.ofNat_toNat, BitVec.setWidth_eq]
  · rw [Nat.add_assoc]
    refine (write_page s hr sl (off := 0x2C04 + 8 * q.val) (by omega) (by omega) v).trans ?_
    show _ = execCqDoorbell sl q v s
    rw [pageWrite_cqDoorbell, BitVec.ofNat_toNat, BitVec.setWidth_eq]
  · rw [Nat.add_assoc, Nat.add_assoc]
    refine (write_page s hr sl (off := 0x2000 + (0x80 * q.val + 0x3C)) (by omega) (by omega) v).trans ?_
    show _ = execSqRestart sl q v s
    rw [pageWrite_sqRestart, BitVec.ofNat_toNat, BitVec.setWidth_eq]
  · rw [Nat.add_assoc]
    refine (write_page s hr sl (off := 0x800 + 4 * q.val) (by omega) (by omega) v).trans ?_
    show _ = execXwOwnerWrite sl q v s
    rw [pageWrite_xwOwner, BitVec.ofNat_toNat, BitVec.setWidth_eq]

end Sys2Proof.Machine
end

section
/-!
SUPPORT. Queues and rings: doorbells (R100, R105, R116 [03]), enabling and disabling (R110 to R112), their timers (R101, R102,
R107).
-/
namespace Sys2Proof.Machine

/-- A queue changed in two ways that agree on what it is. -/
theorem modSq_congr {s q : Nat} {f g : Sq → Sq} {d : Dev} (h : f (d.sq s q) = g (d.sq s q)) : d.modSq s q f = d.modSq s q g := by
  have h' : f ((d.slice s).sq q) = g ((d.slice s).sq q) := h
  simp only [Dev.modSq, Dev.modSlice, h']

/-- A ring changed in two ways that agree on what it is. -/
theorem modCq_congr {s q : Nat} {f g : Cq → Cq} {d : Dev} (h : f (d.cq s q) = g (d.cq s q)) : d.modCq s q f = d.modCq s q g := by
  have h' : f ((d.slice s).cq q) = g ((d.slice s).cq q) := h
  simp only [Dev.modCq, Dev.modSlice, h']

/-- Settles O15. -/
theorem doorbells : Obligations.Doorbells := by
  unfold Obligations.Doorbells
  refine ⟨fun s sl q v ho => ⟨?_, fun h => ?_, fun h hx => ?_, fun h hx hd => ?_⟩, fun s sl r v ho => ?_⟩
  · show execSqDoorbell sl q v s = _
    simp [execSqDoorbell, ho, sqDrop, or_assoc]
  · show execSqRestart sl q v s = _
    simp only [execSqRestart, onDev_eq, h, Bool.not_false, Bool.or_true, if_true]
  · show execSqRestart sl q v s = _
    simp [-BitVec.getLsbD_eq_getElem, execSqRestart, ho, h, sqDrop, hx]
  · show execSqRestart sl q v s = _
    simp [-BitVec.getLsbD_eq_getElem, execSqRestart, ho, h, hx, if_neg (by omega : ¬ (s.dev.sq sl q).depth ≤ bits v.toNat 15 0)]
    exact modSq_congr rfl
  · show execCqDoorbell sl r v s = _
    simp [execCqDoorbell, ho, or_assoc]

/-- Settles O16. -/
theorem queueControl : Obligations.QueueControl := by
  unfold Obligations.QueueControl
  refine ⟨fun s sl q v ho => ⟨fun h => ?_, fun h hf => ?_, fun h hf => ?_, fun h => ?_, fun h hn => ?_, fun hn => ?_, fun h => ?_,
    fun h => ?_, ?_⟩, fun s sl q => ⟨?_, fun t h => ?_, fun h => ?_, fun t h => ?_, fun h => ?_⟩⟩
  · show execSqEnable sl q v s = _
    simp [execSqEnable, sqEnableWrite, h]
  · show execSqEnable sl q v s = _
    simp [execSqEnable, sqEnableWrite, h, ho, hf]
  · show execSqEnable sl q v s = _
    simp [execSqEnable, sqEnableWrite, h, ho, hf]
    exact modSq_congr rfl
  · show execSqDisable sl q s = _
    simp [execSqDisable, sqDisableWrite, h, ho]
  · show execSqDrainDone sl q s = _
    simp [execSqDrainDone, h, hn]
  · show execSqDrainDone sl q s = _
    simp [execSqDrainDone, hn]
  · show execCqEnable sl q v s = _
    simp [execCqEnable, cqEnableWrite, h, ho]
  · show execCqEnable sl q v s = _
    simp [execCqEnable, cqEnableWrite, h]
  · show execCqDisable sl q s = _
    simp [execCqDisable, cqDisableWrite, ho]
  · show execSqPoll sl q s = _
    simp [execSqPoll, and_assoc]
  · show execCqCoalesceTimeout sl q s = _
    simp [execCqCoalesceTimeout, h, and_assoc, cqSignal]
  · show execCqCoalesceTimeout sl q s = _
    simp [execCqCoalesceTimeout, h]
  · show execGranule0Timeout sl q s = _
    simp [execGranule0Timeout, h, and_assoc]
  · show execGranule0Timeout sl q s = _
    simp [execGranule0Timeout, h]

end Sys2Proof.Machine
end

section
/-!
SUPPORT. Slice events (R85 [02]); fetching and framing faults (R95 to R103, R114 to R116 [03]); the push lane (R42, R43 [01]).
-/
namespace Sys2Proof.Machine

/-! An event of a slice. -/

section
variable (s v : Nat) (d : Dev)

@[simp] theorem slice_emit (e : Emit) (r : Nat) : (emit e d).slice r = d.slice r := rfl

/-- A message that goes out changes of its slice what was sent. -/
theorem slice_sendSliceMsg_same : ∃ sent, (sendSliceMsg s v d).slice s = { d.slice s with intSent := sent } := by
  unfold sendSliceMsg
  dsimp only
  split
  · simp
  · exact ⟨_, rfl⟩

theorem slice_sendSliceMsg_other {r : Nat} (h : r ≠ s) : (sendSliceMsg s v d).slice r = d.slice r := by
  unfold sendSliceMsg
  dsimp only
  split
  · rw [slice_emit, slice_modSlice_other d s r _ h]
  · rfl

/-- An event changes of its slice what is pending and what was sent. -/
theorem slice_raiseSlice_same : ∃ sent, (raiseSlice s v d).slice s =
    { d.slice s with intPend := (d.slice s).intPend ||| 1#4 <<< v, intSent := sent } := by
  obtain ⟨sent, h⟩ := slice_sendSliceMsg_same s v (d.modSlice s (fun x => { x with intPend := x.intPend ||| (1#4 <<< v) }))
  exact ⟨sent, h.trans (by rw [slice_modSlice_same])⟩

theorem slice_raiseSlice_other {r : Nat} (h : r ≠ s) : (raiseSlice s v d).slice r = d.slice r :=
  (slice_sendSliceMsg_other s v _ h).trans (slice_modSlice_other d s r _ h)

/-- A property that no change of the slices or of what is put out can change. -/
theorem raiseSlice_keeps {α : Type} (f : Dev → α) (h : ∀ (e : Dev) x o, f { e with slices := x, out := o } = f e := by exact fun _ _ _ => rfl) :
    f (raiseSlice s v d) = f d := by
  unfold raiseSlice sendSliceMsg
  dsimp only
  split
  · exact h d _ _
  · exact h d _ d.out

end

/-! Framing faults. -/

/-- A framing fault that stops its queue. -/
theorem framingFault_eq {d : Dev} (h : d.link.qerrHalt = false) (k q reason : Nat) : framingFault k q reason false d =
    raisePf0 k (raiseSlice k 2 (d.modSq k q (fun x => { x with
      st := .qerr, errReason := reason, errPos := x.pos, notNewAt := none, contAt := none, pollDue := false }))) := by
  simp only [framingFault, Bool.false_eq_true, if_false, h]

@[simp] theorem sq_modSq_same (d : Dev) (k q : Nat) (f : Sq → Sq) : (d.modSq k q f).sq k q = f (d.sq k q) := by
  simp [Dev.modSq, Dev.sq, Slice.sq]

theorem sq_modSq_other (d : Dev) (k q r : Nat) (f : Sq → Sq) (h : r ≠ q) : (d.modSq k q f).sq k r = d.sq k r := by
  simp only [Dev.sq, Dev.modSq, slice_modSlice_same, Slice.sq]
  exact tget_tset_other _ _ _ _ _ h

/-- An event leaves the queues of its slice. -/
@[simp] theorem sq_raiseSlice (s v k q : Nat) (d : Dev) : (raiseSlice s v d).sq k q = d.sq k q := by
  unfold Dev.sq
  by_cases h : k = s
  · subst h
    obtain ⟨sent, hs⟩ := slice_raiseSlice_same k v d
    rw [hs]
    rfl
  · rw [slice_raiseSlice_other s v d h]

@[simp] theorem sq_raisePf0 (v k q : Nat) (d : Dev) : (raisePf0 v d).sq k q = d.sq k q := raisePf0_keeps (·.sq k q) (fun _ _ _ => rfl) v d

/-- Settles O17. -/
theorem fetching : Obligations.Fetching := by
  unfold Obligations.Fetching
  refine ⟨fun s sl q g0 conts aux ciOk => ⟨fun h => ⟨?_, ?_, ?_⟩, fun h hn hc => ?_, fun h hn hd hr hc => ?_, fun h hc => ?_⟩,
    fun d m k q g0 conts aux => ⟨fun h => ?_, fun h => ⟨?_, ?_⟩, fun r t h => ?_, fun b l h => ?_⟩,
    fun d k q reason h => ?_⟩
  · show execEntryFetch sl q ⟨g0, conts⟩ aux ciOk s = _
    simp [execEntryFetch, h]
  · show execGranule0Reread sl q ⟨g0, conts⟩ aux ciOk s = _
    simp [execGranule0Reread, h]
  · show execContinuationReread sl q conts aux ciOk s = _
    simp [execContinuationReread, h]
  · show execEntryFetch sl q ⟨g0, conts⟩ aux ciOk s = _
    simp [execEntryFetch, h, hn, hc]
  · show execGranule0Reread sl q ⟨g0, conts⟩ aux ciOk s = _
    simp [execGranule0Reread, h, Option.isSome_iff_ne_none, hn, hd, hr, hc]
  · show execContinuationReread sl q conts aux ciOk s = _
    simp [execContinuationReread, h, Option.isSome_iff_ne_none, hc]
  · simp only [takeEntry, h]
  · simp only [takeEntry, h, Bool.false_eq_true, if_false]
  · simp only [takeEntry, h, if_true]
  · simp only [takeEntry, h]
  · simp only [takeEntry, h]
  · dsimp only
    rw [framingFault_eq h]
    refine ⟨by simp, by simp, by simp, by simp, ?_, fun r hr => ?_, fun j hj => ?_⟩
    · rw [raisePf0_cmds]
      exact raiseSlice_keeps _ _ _ (·.cmds)
    · simp [sq_modSq_other _ _ _ _ _ hr]
    · refine (raisePf0_keeps (·.slice j) (fun _ _ _ => rfl) _ _).trans ?_
      exact (slice_raiseSlice_other _ _ _ hj).trans (slice_modSlice_other _ _ _ _ hj)

end Sys2Proof.Machine
end

section
/-!
SUPPORT. The push lane (R42, R43 [01]), exchange windows (R80 [02]), mailboxes and interrupts (R78, R79, R84, R85 [02]).
-/
namespace Sys2Proof.Machine

/-! Bytes of a push slot. -/

/-- A byte laid into a push slot. -/
def putPush (p : PushSlot) (e : Byte × Nat) : PushSlot :=
  { bytes := tset p.bytes e.2 e.1, written := if e.2 < 64 then p.written ||| (1#64 <<< e.2) else p.written }

/-- A byte of a slot after bytes were laid into it from place `o` on. -/
theorem tget_foldl_putPush (b : Bytes) (o : Nat) (p : PushSlot) (i : Nat) :
    tget 0 ((b.zipIdx o).foldl putPush p).bytes i =
      if o ≤ i ∧ i < o + b.length then b.getD (i - o) 0 else tget 0 p.bytes i := by
  induction b generalizing o p with
  | nil => rw [if_neg (by simp)]; rfl
  | cons x b ih =>
    rw [List.zipIdx_cons, List.foldl_cons, ih]
    by_cases here : i = o
    · subst here
      rw [if_neg (by omega), if_pos ⟨Nat.le_refl i, by simp⟩]
      simp [putPush]
    · rw [show tget 0 (putPush p (x, o)).bytes i = tget 0 p.bytes i from tget_tset_other _ _ _ _ _ here]
      by_cases hin : o + 1 ≤ i ∧ i < o + 1 + b.length
      · rw [if_pos hin, if_pos (by simp only [List.length_cons]; omega), show i - o = (i - (o + 1)) + 1 by omega,
          List.getD_cons_succ]
      · rw [if_neg hin, if_neg (by simp only [List.length_cons]; omega)]

/-- The slot after bytes that fit it were laid into it. -/
def pushed (x : Slice) (n off : Nat) (b : Bytes) : PushSlot := (b.zipIdx off).foldl putPush (x.pslotAt n)

/-- Bytes that fit a free slot: they are laid into it, and it is posted once granule 0 is written. -/
theorem pushBytes_of_free {s n off : Nat} {b : Bytes} {d : Dev} (hfree : (d.slice s).pushFree.getLsbD n = true)
    (hfit : b.length + off ≤ 256) : pushBytes s n off b d = d.modSlice s (fun x => { x with
      push := tset x.push n (pushed (d.slice s) n off b)
      pushFree := if (pushed (d.slice s) n off b).written == BitVec.allOnes 64 then x.pushFree &&& ~~~(1#16 <<< n)
        else x.pushFree }) := by
  have hall : (b.zipIdx off).filter (fun (e : Byte × Nat) => decide (e.2 < 256)) = b.zipIdx off := by
    rw [List.filter_eq_self]
    rintro ⟨y, i⟩ hi
    have := List.snd_lt_of_mem_zipIdx hi
    simp only [decide_eq_true_eq]
    omega
  simp only [pushBytes, hfree, Bool.not_true, Bool.false_eq_true, if_false, hall]
  rfl

/-- A slot that is not free takes no bytes. -/
theorem pushBytes_of_posted {s n off : Nat} {b : Bytes} {d : Dev} (h : (d.slice s).pushFree.getLsbD n = false) :
    pushBytes s n off b d = d := by
  simp only [pushBytes, h, Bool.not_false, if_true]

/-- Settles O19. -/
theorem pushLane : Obligations.PushLane := by
  unfold Obligations.PushLane
  intro s sl n off data aux
  refine ⟨fun ho hh => ?_, fun hfree hfit => ?_, fun h => ?_, fun h => ?_, fun h b bad k hb hbad hk => ?_, fun id c hc hst ha ht => ?_,
    fun id c hc hst hn ht => ?_⟩
  · show execPushSlotPost sl n off data s = _
    simp [execPushSlotPost, ho, hh]
  · have hslot : ((pushBytes sl n off data s.dev).slice sl).pslotAt n = pushed (s.dev.slice sl) n off data := by
      rw [pushBytes_of_free hfree hfit, slice_modSlice_same]
      exact tget_tset_same _ _ _ _
    refine ⟨fun i hi => ?_, fun i hi => ?_, ?_, fun k hk => ?_⟩
    · rw [hslot, pushed, tget_foldl_putPush, if_pos (by omega), Nat.add_sub_cancel_left]
    · rw [hslot, pushed, tget_foldl_putPush, if_neg (by omega)]
    · rw [hslot, pushBytes_of_free hfree hfit, slice_modSlice_same]
      dsimp only
      by_cases hw : (pushed (s.dev.slice sl) n off data).written = BitVec.allOnes 64
      · simp [hw]
      · simp only [beq_iff_eq, hw, if_false, iff_false, hfree]
        simp
    · rw [pushBytes_of_free hfree hfit]
      exact slice_modSlice_other _ _ _ _ hk
  · show execPushSlotPost sl n off data s = _
    simp [execPushSlotPost, pushBytes_of_posted h]
  · show execPushEntryAdmit sl n aux s = _
    simp [execPushEntryAdmit, h]
  · subst hk hbad hb
    show execPushEntryAdmit sl n aux s = _
    simp only [execPushEntryAdmit, onBoth_eq, h, if_true]
  · show execHoldExpiry id s = _
    simp [execHoldExpiry, hc, hst, ha, ht]
  · show execHoldExpiry id s = _
    have hnot : ¬ (c.pkt.notBefore ≤ s.dev.devTime ∧ actionAhead s.dev = false) := by
      rintro ⟨h1, h2⟩
      rcases ht with ht | ht
      · omega
      · simp [ht] at h2
    simp [execHoldExpiry, hc, hst, hn, hnot]

/-! Exchange windows. -/

/-- BAR2 writes leave the other memories. -/
theorem bar2Write_keeps {α : Type} (f : Memory → α) (d : Dev) (m : Memory) (a : Nat) (b : Bytes)
    (h : ∀ (m : Memory) x, f { m with hbm := x } = f m := by exact fun _ _ => rfl) : f (bar2Write d m a b) = f m := by
  induction b generalizing m a with
  | nil => rfl
  | cons x b ih =>
    refine (ih _ _).trans ?_
    split
    · exact h m _
    · rfl

/-- BAR2 reaches the byte and its memory can be read. -/
def bar2Reached (d : Dev) (a : Nat) : Bool := bar2Open d a && hbmOk d (a / 65536)

/-- A byte of the memory after bytes were written through BAR2 from `a` on (R80). -/
theorem memGet_bar2Write {d : Dev} {m : Memory} (hm : m.wf = true) (a : Nat) (b : Bytes) (j : Nat) :
    memGet (bar2Write d m a b).hbm j =
      if xwBase 0 + a ≤ j ∧ j < xwBase 0 + a + b.length ∧ bar2Reached d (j - xwBase 0) = true then
        b.getD (j - (xwBase 0 + a)) 0 else memGet m.hbm j := by
  induction b generalizing m a with
  | nil => rw [if_neg (by rintro ⟨h1, h2, -⟩; exact absurd h2 (by simpa using h1))]; rfl
  | cons x b ih =>
    have hw : ∀ n : Memory, n = (if bar2Reached d a then { m with hbm := memPut m.hbm (xwBase 0 + a) x } else m) →
        n.wf = true := by
      rintro n rfl
      split
      · exact Memory.wf_setHbm hm (memPut_wf _ _ _ (Memory.wf_hbm hm))
      · exact hm
    refine (ih (hw _ rfl) (a + 1)).trans ?_
    by_cases here : j = xwBase 0 + a
    · subst here
      rw [if_neg (by omega), Nat.add_sub_cancel_left]
      cases hr : bar2Reached d a with
      | false => simp
      | true => simp [memGet_memPut_same _ _ _ (Memory.wf_hbm hm)]
    · have there : memGet (if bar2Reached d a then { m with hbm := memPut m.hbm (xwBase 0 + a) x } else m).hbm j =
          memGet m.hbm j := by
        split
        · exact memGet_memPut_other _ _ _ _ (Memory.wf_hbm hm) here
        · rfl
      rw [there]
      by_cases hin : xwBase 0 + (a + 1) ≤ j ∧ j < xwBase 0 + (a + 1) + b.length ∧ bar2Reached d (j - xwBase 0) = true
      · rw [if_pos hin, if_pos ⟨by omega, by simp only [List.length_cons]; omega, hin.2.2⟩,
          show j - (xwBase 0 + a) = (j - (xwBase 0 + (a + 1))) + 1 by omega, List.getD_cons_succ]
      · rw [if_neg hin, if_neg (by simp only [List.length_cons]; rintro ⟨h1, h2, h3⟩; exact hin ⟨by omega, by omega, h3⟩)]

/-- As many bytes as asked for. -/
@[simp] theorem length_leBytes (n v : Nat) : (leBytes n v).length = n := by
  induction n generalizing v with
  | zero => rfl
  | succ n ih => rw [leBytes, List.length_cons, ih]

/-- Settles O20. -/
theorem exchangeWindows : Obligations.ExchangeWindows := by
  unfold Obligations.ExchangeWindows
  intro s sl n v off width wr
  refine ⟨?_, ?_, fun h => ?_, fun h => ?_, fun b hb => ?_, fun b hb w e ho hk => ?_,
      fun w h => ⟨?_, ?_, ?_, ?_, fun hm => ⟨fun b hb => ?_, fun i hi => ?_⟩⟩⟩
  · show execXwOwnerWrite sl n v s = _
    cases ho : s.dev.open_ sl <;> simp [execXwOwnerWrite, ho]
  · show execXwReclaimApply sl n s = _
    simp [execXwReclaimApply]
  · show execXwBar2Access sl off width wr s = _
    exact if_pos h
  · show execXwBar2Access sl off width none s = _
    exact if_neg (by omega)
  · simp [bar2Byte, hb]
  · unfold bar2Fault
    rw [ho, hk]
    rcases hb with hb | hb <;> simp [hb]
  · show execXwBar2Access sl off width (some w) s = _
    exact if_neg (by omega)
  · exact bar2Write_keeps (·.scr) _ _ _ _
  · exact bar2Write_keeps (·.dram) _ _ _ _
  · exact bar2Write_keeps (·.iram) _ _ _ _
  · rw [memGet_bar2Write hm, if_neg]
    rw [length_leBytes]
    rintro ⟨h1, h2, -⟩
    omega
  · have hr : bar2Reached s.dev (xwBase 0 + (sl.val * 65536 + off) + i - xwBase 0) =
        (bar2Open s.dev (sl.val * 65536 + off + i) && hbmOk s.dev ((sl.val * 65536 + off + i) / 65536)) := by
      rw [show xwBase 0 + (sl.val * 65536 + off) + i - xwBase 0 = sl.val * 65536 + off + i by omega]
      rfl
    rw [memGet_bar2Write hm, hr, length_leBytes, Nat.add_sub_cancel_left]
    cases (bar2Open s.dev (sl.val * 65536 + off + i) && hbmOk s.dev ((sl.val * 65536 + off + i) / 65536)) with
    | false => simp
    | true => rw [if_pos ⟨by omega, by omega, rfl⟩, if_pos rfl]

/-- An event's message goes out at once where its vector is unmasked, none was sent since the last clear, and it has an
address (R84, R85). -/
theorem out_raiseSlice (k : Nat) (v : Fin 4) (d : Dev) :
    (raiseSlice k v d).out =
      if (d.slice k).intMask.getLsbD v.val = false ∧ (d.slice k).intSent.getLsbD v.val = false ∧
          ((d.slice k).intMsg.getD v ⟨0, 0⟩).addr ≠ 0 then
        d.out ++ [.sliceMsg k v ((d.slice k).intMsg.getD v ⟨0, 0⟩).addr.toNat ((d.slice k).intMsg.getD v ⟨0, 0⟩).data.toNat]
      else d.out := by
  have pend : ((d.slice k).intPend ||| 1#4 <<< v.val).getLsbD v.val = true := by simp
  simp only [raiseSlice, sendSliceMsg, slice_modSlice_same, pend, Bool.true_and, Bool.and_eq_true, Bool.not_eq_true',
    bne_iff_ne, ne_eq, and_assoc]
  split
  · rfl
  · rfl

/-- Settles O21. -/
theorem mailboxesAndSliceEvents : Obligations.MailboxesAndSliceEvents := by
  unfold Obligations.MailboxesAndSliceEvents
  refine ⟨fun s sl v ho => ?_, fun d k v => ?_⟩
  · have hr : s.dev.reachable = true := by
      simp only [Dev.open_, Bool.and_eq_true] at ho
      exact ho.1
    refine ⟨?_, ?_, ?_, ?_, ?_, ?_, ?_⟩
    · show execT2mPost sl s = _
      cases h : (s.dev.slice sl).t2mFull <;> simp [execT2mPost, ho, h]
    · show execM2tAck sl s = _
      simp [execM2tAck, ho]
    · show execM2tPost sl s = _
      cases h : (s.dev.slice sl).m2tFull <;> simp [execM2tPost, hr, h]
    · show execT2mAck sl s = _
      cases h : (s.dev.slice sl).t2mFull <;> simp [execT2mAck, hr, h]
    · show execIntMaskWrite sl v s = _
      simp [execIntMaskWrite, ho]
    · show execIntPendingClear sl v s = _
      simp [execIntPendingClear, ho]
    · show execIdeCtrlWrite v s = _
      simp [execIdeCtrlWrite, hr]
  · obtain ⟨sent, hs⟩ := slice_raiseSlice_same k v d
    refine ⟨?_, fun w hw => ?_, ?_, fun j hj => slice_raiseSlice_other k v d hj⟩
    · rw [hs]
      simp
    · rw [hs]
      have : w.val ≠ v.val := fun h => hw (Fin.ext h)
      simp
      omega
    · exact out_raiseSlice k v d

end Sys2Proof.Machine
end

section
/-!
SUPPORT. A command at its execution step; slices created, destroyed, configured (R59 to R76 [02]).
-/
namespace Sys2Proof.Machine

/-! A command at its execution step. -/

section
variable {s : State} {id : Nat} {o : Op} {c : Cmd} {f : Memory → Cmd → Dev → Dev}

/-- At its execution step a command does what its operation says. -/
theorem runCmd_atStep (h : AtStep s id o c) : runCmd o id f s.mem s.dev = f s.mem c s.dev := by
  obtain ⟨hc, hop, hrun, hdma, htag, hkeys⟩ := h
  simp only [runCmd, hc, hop, hrun, hdma, decide_true, Bool.and_self, if_true]
  rw [← hop, if_neg (by rw [hkeys]; exact Bool.false_ne_true), if_neg (by rw [htag]; exact Bool.false_ne_true)]

theorem execOp_atStep (h : AtStep s id o c) : execOp o id f s = .next { s with dev := f s.mem c s.dev } := by
  rw [execOp, onDevM_eq, runCmd_atStep h]

theorem execPhase_atStep {p : Nat} (h : AtStep s id o c) (hp : c.prm = p) :
    execPhase o p id f s = .next { s with dev := f s.mem c s.dev } := by
  have hc : findCmd s.dev id = some c := h.1
  simp only [execPhase, onDevM_eq, hc, hp, if_true, runCmd_atStep h]

end

/-! Slices made and destroyed. -/

theorem slice_auditStart (s k : Nat) (b : Bytes) (d : Dev) : (auditStart s b d).slice k = d.slice k :=
  auditStart_keeps (·.slice k) d s (fun _ _ _ _ _ => rfl) b

/-- A slice that is made is ACTIVE with its configuration due (R59, R66). -/
theorem slice_createSlice (s : Nat) (cfg : SliceCfg) (d : Dev) :
    ((createSlice s cfg d).2.slice s).st = .active ∧ ((createSlice s cfg d).2.slice s).nextCfg = some cfg := by
  have h (x : Slice) (e : Dev) (b : Bytes) : (auditStart s b (drawSlots [s] (e.setSlice s x))).slice s = x :=
    (slice_auditStart s s b _).trans (slice_setSlice_same e s x)
  constructor
  · exact (congrArg Slice.st (h _ _ _)).trans rfl
  · exact (congrArg Slice.nextCfg (h _ _ _)).trans rfl

/-- A slice that is destroyed is FREE and has no queues (R67). -/
theorem slice_destroySlice (s : Nat) (d : Dev) :
    ((destroySlice s d).slice s).st = .free ∧ ((destroySlice s d).slice s).sqs = [] := by
  have h (e : Dev) (x : Slice) (m : Dma) : Dev.slice { e.setSlice s x with dma := m } s = x := slice_setSlice_same e s x
  unfold destroySlice
  dsimp only
  rw [h]
  exact ⟨rfl, rfl⟩

/-- Settles O22. -/
theorem sliceLifetime : Obligations.SliceLifetime := by
  unfold Obligations.SliceLifetime
  intro s id c cfg0
  refine ⟨fun h mask cfg hcl h0 hr hf hw => ?_, fun h mask cfg hcl h0 hr hf hw => ?_, fun h mask cfg hcl h0 hr hf => ?_,
    fun h mask cfg hcl h0 => ?_, (slice_createSlice _ _ _).1, (slice_createSlice _ _ _).2, fun h => ?_,
    (slice_destroySlice _ _).1, (slice_destroySlice _ _).2, fun h => ?_, fun h => ?_⟩
  · replace hcl : clampCfg s.dev c.prm (inp s.mem s.dev c 0) = _ := hcl
    refine (execOp_atStep h).trans ?_
    simp [hcl, h0, hr, hf, hw]
  · replace hcl : clampCfg s.dev c.prm (inp s.mem s.dev c 0) = _ := hcl
    refine (execOp_atStep h).trans ?_
    simp [hcl, h0, hr, hf, hw]
  · replace hcl : clampCfg s.dev c.prm (inp s.mem s.dev c 0) = _ := hcl
    refine (execOp_atStep h).trans ?_
    simp [hcl, hr, hf, ite_self]
  · replace hcl : clampCfg s.dev c.prm (inp s.mem s.dev c 0) = _ := hcl
    refine (execOp_atStep h).trans ?_
    dsimp only
    rw [hcl]
    dsimp only
    rw [if_pos h0]
  · refine (execOp_atStep h).trans ?_
    simp
  · refine (execOp_atStep h).trans ?_
    simp
  · refine (execOp_atStep h).trans ?_
    simp
    rfl

/-- Settles O23. -/
theorem sliceConfiguration : Obligations.SliceConfiguration := by
  unfold Obligations.SliceConfiguration
  intro s id c sl n
  refine ⟨fun h mask cfg hcl hx => ?_, fun h h1 h2 h3 h4 => ?_, fun h h1 h2 h3 => ?_, fun h => ?_, fun h hn => ?_, fun h => ?_⟩
  · replace hcl : clampCfg s.dev c.prm (inp s.mem s.dev c 0) = _ := hcl
    refine (execOp_atStep h).trans ?_
    rcases hx with hx | hx <;> simp [hcl, hx]
  · replace h1 : allZero (seg (inp s.mem s.dev c 0) 1 3) = true := h1
    replace h2 : field (inp s.mem s.dev c 0) 4 4 < 2 ^ 20 := h2
    replace h3 : field (inp s.mem s.dev c 0) 0 1 ≤ 3 := h3
    refine (execOp_atStep h).trans ?_
    dsimp only
    rw [if_neg (by simp only [h1, Bool.not_true, Bool.false_or, decide_eq_true_eq]; omega), if_neg (by omega),
        if_neg (by rw [h4]; exact Bool.false_ne_true)]
    rfl
  · replace h1 : allZero ((inp s.mem s.dev c 0).drop 1) = true := h1
    replace h2 : field (inp s.mem s.dev c 0) 0 1 ≤ 3 := h2
    refine (execOp_atStep h).trans ?_
    dsimp only
    rw [if_neg (by rw [h1]; exact Bool.false_ne_true), if_neg (by omega), if_neg (by rw [h3]; exact Bool.false_ne_true)]
    simp only [Bool.not_eq_true']
    rfl
  · show execPasidUnbindDone sl n s = _
    simp [execPasidUnbindDone, h]
  · show execPasidUnbindDone sl n s = _
    simp only [execPasidUnbindDone, onDevM_eq, h, hn, Bool.not_true, Bool.or_self, Bool.false_eq_true, if_false]
  · show execPasidUnbindDone sl n s = _
    simp only [execPasidUnbindDone, onDevM_eq, h, Bool.or_true, if_true]

end Sys2Proof.Machine
end

section
/-!
SUPPORT. The fault collector's rows and the first fault (R410 to R413, R508 [14]); tamper commands (R400, R405, R406).
-/
namespace Sys2Proof.Machine

/-! The first fault. -/

/-- FC_FIRST_INFO of a fault is armed. -/
theorem firstInfoOf_armed (src cls access : Nat) (master : Option Nat) : (firstInfoOf src cls access master).getLsbD 31 = true := by
  simp only [firstInfoOf, BitVec.getLsbD_or]
  rfl

/-- A fault whose registers were free fills them. -/
theorem captureFirst_of_free {info : BitVec 32} {addr : Nat} {d : Dev} (h : d.prot.firstInfo.getLsbD 31 = false) :
    captureFirst info addr d = { d with prot := { d.prot with
      firstInfo := info, firstAddr := BitVec.ofNat 64 addr, firstTime := d.devTime } } := by
  simp only [captureFirst, h, Bool.false_eq_true, if_false]

theorem captureFirst_of_held {info : BitVec 32} {addr : Nat} {d : Dev} (h : d.prot.firstInfo.getLsbD 31 = true) :
    captureFirst info addr d = d := by
  simp only [captureFirst, h, if_true]

section
variable (master : Option Nat) (src addr access : Nat) (d : Dev)

theorem noteFault_first_of_free (h : d.prot.firstInfo.getLsbD 31 = false) :
    (noteFault master src addr access d).prot.firstInfo = firstInfoOf src (faultClass src) access master ∧
    (noteFault master src addr access d).prot.firstAddr = BitVec.ofNat 64 addr ∧
    (noteFault master src addr access d).prot.firstTime = d.devTime := by
  simp only [noteFault, captureFirst_of_free h]
  exact logEvent_first _ _ _ _ _ (firstInfoOf_armed _ _ _ _)

theorem noteFault_first_of_held (h : d.prot.firstInfo.getLsbD 31 = true) :
    (noteFault master src addr access d).prot.firstInfo = d.prot.firstInfo ∧
    (noteFault master src addr access d).prot.firstAddr = d.prot.firstAddr ∧
    (noteFault master src addr access d).prot.firstTime = d.prot.firstTime := by
  simp only [noteFault, captureFirst_of_held h]
  exact logEvent_first _ _ _ _ _ h

/-- Noting a fault counts no CORRECTED fault away. -/
theorem le_noteFault_corrCount (h : d.prot.corrCount ≤ 2 ^ 32 - 1) :
    d.prot.corrCount ≤ (noteFault master src addr access d).prot.corrCount := by
  have hc := captureFirst_corrCount (firstInfoOf src (faultClass src) access master) addr d
  refine Nat.le_trans (Nat.le_of_eq hc.symm) (le_logEvent_corrCount _ _ _ _ _ ?_)
  rw [hc]
  exact h

/-- A fault is announced to Linen. -/
theorem noteFault_announced : (noteFault master src addr access d).linen.ipend.getLsbD 24 = true := by
  simp only [noteFault, linenPend, BitVec.getLsbD_or]
  simp

end

/-- Settles O25. -/
theorem faultsCaptured : Obligations.FaultsCaptured := by
  unfold Obligations.FaultsCaptured
  refine ⟨fun s src addr access cmd k v pass idx hr => ⟨fun h => ?_, fun h => ?_, ?_, fun h => ?_, fun h => ?_, ?_, fun r h => ?_, fun h => ?_⟩,
    fun d src addr access cmd h => ?_⟩
  · have hp : s.dev.powered = true := by
      simp only [Dev.reachable, Bool.and_eq_true] at hr
      exact hr.1.1
    show execFaultDetect src addr access cmd s = _
    simp only [execFaultDetect, onDev_eq, hp, h, Bool.not_true, Bool.or_self, Bool.false_eq_true, if_false]
  · show execFaultDetect src addr access cmd s = _
    simp [execFaultDetect, h]
  · rfl
  · show execFcPendingClear k v pass s = _
    simp only [execFcPendingClear, onDev_eq, hr, h, Bool.not_true, Bool.not_false, Bool.false_eq_true, if_false, if_true]
  · show execFcPendingClear k v pass s = _
    simp only [execFcPendingClear, onDev_eq, hr, h, Bool.not_true, Bool.false_eq_true, if_false]
  · show execFcFirstClr v s = _
    simp only [execFcFirstClr, onDev_eq, hr, Bool.true_and]
  · show execEventLogRead idx s = _
    simp [execEventLogRead, h]
  · show execEventLogRead idx s = _
    simp [execEventLogRead, h]
  · have hraise : raiseFault src addr access cmd d = _ := raiseFaultBy_corrected h true _ addr access cmd d
    dsimp only
    rw [hraise]
    refine ⟨fun hf => ?_, fun hf => noteFault_first_of_held _ _ _ _ _ hf, fun hc => ?_, by simp, by simp, by simp, by simp,
        noteFault_announced _ _ _ _ _⟩
    · have := noteFault_first_of_free ((cmd.bind (findCmd d)).map (masterId d)) src addr access d hf
      rwa [h] at this
    · have := le_noteFault_corrCount ((cmd.bind (findCmd d)).map (masterId d)) src addr access d (by omega)
      dsimp only
      omega

/-- Neither of two, or one of them. -/
theorem or_eq_not_nor (a b : Bool) : (a || b) = !(!a && !b) := by cases a <;> cases b <;> rfl

/-- Settles O27. -/
theorem tamperCommands : Obligations.TamperCommands := by
  unfold Obligations.TamperCommands
  intro s id c h
  refine ⟨fun hp hg => ?_, fun hp hg => ?_, fun hp hx => ?_, fun hp ha hl hs => ?_, fun hp ha hl hs => ?_, fun hp ha hl hs => ?_,
    fun hp ha => ?_, fun hp ha hl => ?_, fun hp ha hl => ?_, fun hp hl => ?_, fun hp hl hz hm hd => ?_, fun w ha hr hf hd ht => ?_⟩
  · refine (execPhase_atStep h hp).trans ?_
    dsimp only
    rw [if_pos (by rw [or_eq_not_nor]; exact congrArg not hg)]
  · refine (execPhase_atStep h hp).trans ?_
    dsimp only
    rw [if_neg (by rw [or_eq_not_nor]; exact fun hn => by simpa using (congrArg not hg).symm.trans hn)]
    simp only [Bool.and_eq_true, decide_eq_true_eq]
    rfl
  · refine (execPhase_atStep h hp).trans ?_
    dsimp only
    rw [if_pos (by rw [Bool.or_eq_true]; exact hx.imp_left bne_iff_ne.mpr)]
  · refine (execPhase_atStep h hp).trans ?_
    simp [ha, hl, hs]
  · refine (execPhase_atStep h hp).trans ?_
    simp [ha, hl, hs]
  · refine (execPhase_atStep h hp).trans ?_
    simp [ha, hl, hs]
  · refine (execPhase_atStep h hp).trans ?_
    dsimp only
    rw [if_pos (bne_iff_ne.mpr ha)]
  · refine (execPhase_atStep h hp).trans ?_
    simp [ha, hl]
  · refine (execPhase_atStep h hp).trans ?_
    simp [ha, hl]
  · refine (execPhase_atStep h hp).trans ?_
    simp [hl]
  · refine (execPhase_atStep h hp).trans ?_
    have hz' : field (inp s.mem s.dev c 0) 4 4 = 0 := hz
    have hm' : BitVec.ofNat 32 (field (inp s.mem s.dev c 0) 0 4) &&& ~~~fusable = 0 := hm
    dsimp only
    rw [if_neg (by simp [hl]), if_neg (by simp [hz', hm']), if_neg (by simp [hd])]
    rfl
  · show execOtpWriteComplete s = _
    simp [execOtpWriteComplete, ha, hr, hf, hd, fuseDone, fuseWord, ht, Otp.fuses]

end Sys2Proof.Machine
end

section
/-!
SUPPORT. What the end of a command in flight cannot undo (R35 [01], R133 [04], R144, R159 [05], R388 [13]), and what a T3
response erases (R399 [14]); the diagnostic commands (R404, R417).
-/
namespace Sys2Proof.Machine

/-! The end of a command in flight. -/

/-- What every step of a repetition keeps, the whole keeps. -/
theorem forEach_preserves {α : Type} {P : Dev → Prop} (g : α → Dev → Dev) (hg : ∀ a e, P e → P (g a e)) (l : List α)
    (d : Dev) (h : P d) : P (forEach l g d) := by
  induction l generalizing d with
  | nil => exact h
  | cons a l ih => exact ih _ (hg a d h)

/-- A property of the device that no end of a command can undo: no change of ledger entries, of the commands themselves,
of the wiped engine time, of what is sent, of an audit ring, or of streams that does not open one. -/
structure SurvivesAborts (P : Dev → Prop) : Prop where
  led : ∀ e l b, l.keyHeld = e.led.keyHeld → P e → P { e with led := l, board := b }
  wipe : ∀ e id, P e → P (wipeJob id e)
  sched : ∀ e x, P e → P { e with sched := x }
  cmds : ∀ e x, P e → P { e with cmds := x }
  host : ∀ e a h o, P e → P { e with dma := { e.dma with ats := a }, held := h, out := o }
  audit : ∀ e k (r : Custody → AuditRing), P e → P (e.modCust k (fun x => { x with audit := r x }))
  streams : ∀ e k (g : List Stream → List Stream), g [] = [] → P e → P (e.modSlice k (fun x => { x with streams := g x.streams }))

namespace SurvivesAborts

section
variable {P : Dev → Prop} (S : SurvivesAborts P)
include S

theorem emit (e : Emit) (d : Dev) (h : P d) : P (Machine.emit e d) := S.host d d.dma.ats d.held _ h

theorem hostWrite (s slot a : Nat) (b : Bytes) (d : Dev) (h : P d) : P (Machine.hostWrite s slot a b d) := by
  have noted (p : Option Nat) (n : Nat) : P (noteAts p a n d) := by
    unfold noteAts
    split
    · exact h
    · split
      · exact h
      · exact S.host d _ d.held d.out h
  unfold Machine.hostWrite
  dsimp only
  split
  · exact S.host d d.dma.ats _ d.out h
  · exact S.emit _ _ (noted _ _)

theorem auditPublish (s : Nat) (d : Dev) (h : P d) : P (Machine.auditPublish s d) := by
  unfold Machine.auditPublish
  dsimp only
  split
  · exact S.hostWrite _ _ _ _ _ (S.audit d s _ h)
  · exact h

theorem auditMake (s : Nat) (b : AuditBody) (d : Dev) (h : P d) : P (Machine.auditMake s b d) := by
  unfold Machine.auditMake
  dsimp only
  split
  · exact S.auditPublish _ _ (S.hostWrite _ _ _ _ _ (S.audit d s _ h))
  · exact S.audit d s _ h

theorem auditOwn (s : Nat) (b : AuditBody) (d : Dev) (h : P d) : P (Machine.auditOwn s b d) := by
  unfold Machine.auditOwn
  dsimp only
  split
  · exact h
  · split
    · exact S.auditMake s b d h
    · exact S.audit d s _ h

theorem auditOf (c : Cmd) (d : Dev) (h : P d) : P (Machine.auditOf c d) := by
  unfold Machine.auditOf
  dsimp only
  split
  · exact S.auditMake _ _ _ (S.audit d _ _ h)
  · split
    · exact S.auditOwn _ _ _ h
    · exact h

theorem modEnt (i : Nat) (f : Entry → Entry) (d : Dev) (h : P d) : P (Machine.modEnt i f d) := S.led d _ d.board rfl h

theorem freeEnt (i : Nat) (d : Dev) (h : P d) : P (Machine.freeEnt i d) := by
  unfold Machine.freeEnt
  dsimp only
  split
  · exact h
  · exact S.led d _ _ rfl h

theorem dropShadow (i : Nat) (d : Dev) (h : P d) : P (Machine.dropShadow i d) := by
  unfold Machine.dropShadow
  split
  · exact h
  · exact S.modEnt _ _ _ (S.freeEnt _ _ h)

theorem freePendingOf (c : Cmd) (d : Dev) (h : P d) : P (Machine.freePendingOf c d) := by
  unfold Machine.freePendingOf
  split
  · exact S.dropShadow _ _ h
  · split
    · exact S.freeEnt _ _ h
    · exact h
  · exact h

theorem undoReserve (c : Cmd) (d : Dev) (h : P d) : P (Machine.undoReserve c d) := by
  unfold Machine.undoReserve
  split
  · exact S.modEnt _ _ _ h
  · exact h

theorem sweepOnce (d : Dev) (h : P d) : P (Machine.sweepOnce d) := by
  refine forEach_preserves _ (fun i e he => ?_) _ _ h
  split
  · split
    · exact S.freeEnt _ _ he
    · exact S.modEnt _ _ _ he
  · exact he

theorem sweep (d : Dev) (h : P d) : P (Machine.sweep d) :=
  forEach_preserves (fun (_ : Nat) e => Machine.sweepOnce e) (fun _ e he => S.sweepOnce e he) (List.range 9) d h

theorem dropStream (s sid : Nat) (d : Dev) (h : P d) : P (Machine.dropStream s sid d) := S.streams d s _ rfl h

theorem toPool (c : Cmd) (d : Dev) (h : P d) : P (Machine.toPool c d) := by
  unfold Machine.toPool
  dsimp only
  split
  · exact S.sweep _ (S.sched _ _ (S.emit _ _ (S.cmds d _ h)))
  · refine S.sweep _ ?_
    have pooled : P (Machine.auditOf { c with stage := .done, time := d.devTime, units := [], relUnits := 0, stageUnits := 0, saved := none, chan := none }
        (setCmd { c with stage := .done, time := d.devTime, units := [], relUnits := 0, stageUnits := 0, saved := none, chan := none }
          (wipeUnits c d))) := S.auditOf _ _ (S.cmds _ _ (S.sched d _ h))
    split
    · exact pooled
    · split
      · exact S.streams _ _ _ rfl pooled
      · split
        · exact S.dropStream _ _ _ pooled
        · exact pooled

theorem abortWith (st : Status) (id : Nat) (d : Dev) (h : P d) : P (Machine.abortWith st id d) := by
  unfold Machine.abortWith
  split
  · exact h
  · split
    · exact h
    · exact S.toPool _ _ (S.wipe _ _ (S.undoReserve _ _ (S.freePendingOf _ _ h)))

theorem abortWhere (p : Cmd → Bool) (st : Status) (d : Dev) (h : P d) : P (Machine.abortWhere p st d) :=
  forEach_preserves _ (fun id e he => S.abortWith st id e he) _ _ h

theorem freeWhere (p : Entry → Bool) (d : Dev) (h : P d) : P (Machine.freeWhere p d) :=
  forEach_preserves _ (fun i e he => S.freeEnt i e he) _ _ h

end

end SurvivesAborts

/-! The erasure of working keys. -/

/-- What a T3 response leaves: no storage key, no job, no context, no key slot, no key of the digest unit, no open stream,
no component session. -/
def Erased (d : Dev) : Prop :=
  d.led.keyHeld = false ∧ d.micro.jobs = [] ∧ d.micro.ctxs = [] ∧ d.dma.slotKeys = [] ∧ d.linen.sdu.keyHeld = false ∧
    (∀ e ∈ d.slices, e.2.streams = []) ∧ ∀ e ∈ d.cust, e.2.comp = none

/-- What a map lists after a key was set. -/
theorem mem_tset {α : Type} {m : TMap α} {k : Nat} {v : α} {e : Nat × α} (h : e ∈ tset m k v) : e = (k, v) ∨ e ∈ m := by
  induction m with
  | nil => exact .inl (by simpa [tset] using h)
  | cons x m ih =>
    obtain ⟨j, u⟩ := x
    simp only [tset] at h
    split at h
    · exact (List.mem_cons.mp h).imp_right (List.mem_cons_of_mem _)
    · split at h
      · exact (List.mem_cons.mp h)
      · rcases List.mem_cons.mp h with rfl | h
        · exact .inr (List.mem_cons_self ..)
        · exact (ih h).imp_right (List.mem_cons_of_mem _)

/-- What holds of the default and of every value listed holds of every value read. -/
theorem tget_all {α : Type} {p : α → Prop} {d : α} {m : TMap α} (hd : p d) (hm : ∀ e ∈ m, p e.2) (k : Nat) : p (tget d m k) := by
  induction m with
  | nil => exact hd
  | cons x m ih =>
    obtain ⟨j, u⟩ := x
    rw [tget]
    split
    · exact hm (j, u) (List.mem_cons_self ..)
    · split
      · exact hd
      · exact ih fun e he => hm e (List.mem_cons_of_mem _ he)

theorem erased_survives : SurvivesAborts Erased where
  led := by
    rintro e l b hl ⟨hk, h⟩
    exact ⟨hl.trans hk, h⟩
  wipe := by
    rintro e id ⟨hk, hj, hc, h⟩
    refine ⟨hk, ?_, ?_, h⟩
    · simp only [wipeJob, hj]
      rfl
    · simp only [wipeJob, hc, List.filter_nil]
  sched := fun _ _ h => h
  cmds := fun _ _ h => h
  host := fun _ _ _ _ h => h
  audit := by
    rintro e k r ⟨hk, hj, hc, hs, hu, hst, hcu⟩
    refine ⟨hk, hj, hc, hs, hu, hst, fun x hx => ?_⟩
    rcases mem_tset hx with rfl | hx
    · exact tget_all (p := fun c : Custody => c.comp = none) rfl hcu k
    · exact hcu x hx
  streams := by
    rintro e k g hg ⟨hk, hj, hc, hs, hu, hst, hcu⟩
    refine ⟨hk, hj, hc, hs, hu, fun x hx => ?_, hcu⟩
    rcases mem_tset hx with rfl | hx
    · have : (e.slice k).streams = [] := tget_all (p := fun x : Slice => x.streams = []) rfl hst k
      exact (congrArg g this).trans hg
    · exact hst x hx

theorem erased_eraseKeys (d : Dev) : Erased (eraseKeys d) := by
  unfold eraseKeys
  refine erased_survives.abortWhere _ _ _ (erased_survives.freeWhere _ _ ?_)
  refine ⟨rfl, rfl, rfl, rfl, ?_, fun e he => ?_, fun e he => ?_⟩
  · show (d.linen.sdu.keyHeld && !true) = false
    rw [Bool.not_true, Bool.and_false]
  · obtain ⟨x, -, rfl⟩ := List.mem_map.mp he
    rfl
  · obtain ⟨x, -, rfl⟩ := List.mem_map.mp he
    rfl

/-- What OTP holds is not touched by the end of a command. -/
theorem otp_survives (o : Otp) : SurvivesAborts (fun d => d.otp = o) where
  led := fun _ _ _ _ h => h
  wipe := fun _ _ h => h
  sched := fun _ _ h => h
  cmds := fun _ _ h => h
  host := fun _ _ _ _ h => h
  audit := fun _ _ _ h => h
  streams := fun _ _ _ _ h => h

theorem otp_eraseKeys (d : Dev) : (eraseKeys d).otp = d.otp :=
  (otp_survives d.otp).abortWhere _ _ _ ((otp_survives d.otp).freeWhere _ _ rfl)

/-- No slice has a master key once the vault is erased (R400). -/
theorem latch_master (d : Dev) (k : Nat) : ((latch d).custody k).master = none := by
  refine tget_all (p := fun c : Custody => c.master = none) rfl (fun e he => ?_) k
  obtain ⟨c, hc⟩ := mem_eraseVault_cust (d := d) he
  rw [hc]
  rfl

/-- Settles O28. -/
theorem erasureErases : Obligations.ErasureErases := by
  unfold Obligations.ErasureErases
  intro d
  obtain ⟨hk, hj, hc, hs, hu, hst, hcu⟩ := erased_eraseKeys d
  exact ⟨hk, hj, hc, hs, hu, hst, hcu, otp_eraseKeys d, fun k => ⟨rfl, latch_master d k⟩⟩

/-! The diagnostic commands. -/

/-- FAULT_INJECT at its execution step, of a source of the fault collector: what it does to the device, and no memory. -/
theorem execFaultInject_atStep {s : State} {id : Nat} {c : Cmd} (h : AtStep s id .faultInject c)
    (hv : field (inp s.mem s.dev c 0) 0 2 < 32768) : Gives (.faultInject id) s
      (if allZero ((inp s.mem s.dev c 0).drop 2) = false then failWith .packetMalformed id s.dev
       else if 420 ≤ field (inp s.mem s.dev c 0) 0 2 then failWith .fieldRejected id s.dev
       else raiseFault (field (inp s.mem s.dev c 0) 0 2) 0 0 none (failWith .ok id s.dev)) := by
  have hc : findCmd s.dev id = some c := h.1
  show execFaultInject id s = _
  have small : decide (32768 ≤ field (inp s.mem s.dev c 0) 0 2) = false := by simpa using hv
  simp only [execFaultInject, onBoth_eq, hc, small, Bool.and_false, Bool.false_eq_true, if_false, runCmd_atStep h,
    Nat.mod_eq_of_lt hv, Bool.not_eq_true', decide_eq_false_iff_not, Nat.not_lt]

/-- Settles O29. -/
theorem diagnostics : Obligations.Diagnostics := by
  unfold Obligations.Diagnostics input
  intro s id c
  refine ⟨fun h hm => ?_, fun h hm hx => ?_, fun h hm hh hc hn hl => ?_, fun t k ht hl => ?_, fun t k persists ht hl => ?_,
    fun t k l ht hl hne => ?_, fun h k p q => ?_, fun h ha => ?_, fun h ha => ?_, fun h => ?_, fun h hz => ?_, fun h hz hv => ?_,
    fun h hz h1 h2 => ?_⟩
  · refine (execOp_atStep h).trans ?_
    dsimp only
    rw [if_pos (bne_iff_ne.mpr hm)]
  · refine (execOp_atStep h).trans ?_
    dsimp only
    rw [if_neg (fun hn => bne_iff_ne.mp hn hm), if_pos (by simpa using hx)]
  · refine (execOp_atStep h).trans ?_
    dsimp only
    rw [if_neg (fun hn => bne_iff_ne.mp hn hm), if_neg (by simp [hh, hc]), if_neg (by simp [hn]), if_neg (by simpa only [List.isEmpty_iff] using hl)]
  · show execMonitorTestEnd k true false s = _
    simp [execMonitorTestEnd, ht, hl, b2n]
  · show execMonitorTestEnd k false persists s = _
    simp [execMonitorTestEnd, ht, hl, b2n]
  · show execMonitorTestEnd k true false s = _
    simp [execMonitorTestEnd, ht, hl, hne, b2n]
  · show execMonitorTestEnd k p q s = _
    simp [execMonitorTestEnd, h]
  · refine (execOp_atStep h).trans ?_
    dsimp only
    rw [if_pos ha]
  · refine (execOp_atStep h).trans ?_
    dsimp only
    rw [if_neg (by rw [ha]; exact Bool.false_ne_true)]
  · exact execOp_atStep h
  · have hc : findCmd s.dev id = some c := h.1
    show execFaultInject id s = _
    simp only [execFaultInject, onBoth_eq, hc, hz, runCmd_atStep h, Bool.and_false, Bool.false_and, Bool.false_eq_true,
      if_false, Bool.not_false, if_true]
  · refine (execFaultInject_atStep h (by omega)).trans ?_
    rw [if_neg (by rw [hz]; exact Bool.noConfusion), if_neg (by omega)]
  · refine (execFaultInject_atStep h h2).trans ?_
    rw [if_neg (by rw [hz]; exact Bool.noConfusion), if_pos h1]

end Sys2Proof.Machine
end

section
/-!
SUPPORT. Dispatch and the end of jobs (R17, R30 to R36, R403), results and their release (R20, R37, R104 to R107, R118),
engines in service (R415 to R417 [14]).
-/
namespace Sys2Proof.Machine

/-! The end of a job. -/

/-- A job at its end with its outcome. -/
theorem execEngineJobEnd_ends {s : State} {id : Nat} {c : Cmd} {o : Outcome} (hc : findCmd s.dev id = some c)
    (hst : c.stage = .running) (ha : s.dev.alive = true) (h : c.endAt ≤ s.dev.clk) (ho : c.outcome = some o) :
    Gives (.engineJobEnd id) s (endCmd c o s.dev) := by
  show execEngineJobEnd id s = _
  simp [execEngineJobEnd, hc, hst, ha, ho, Nat.not_lt.mpr h]

/-- A job that CAUTION did not overlap, or that is not secret, goes to its results. -/
theorem endCmd_kept {c : Cmd} {o p : Outcome} {d : Dev} (hov : (c.overlap && isSecret d c) = false)
    (hp : p = if c.retried && o.status = .ok then { o with status := .okRetried } else o) :
    endCmd c o d = match p.fault with
      | some k => faultOfUnit k c
          (setCmd { c with stage := .results, units := keptLanes c p, outcome := some p } (wipeJob c.id d))
      | none => setCmd { c with stage := .results, units := keptLanes c p, outcome := some p } (wipeJob c.id d) := by
  subst hp
  rw [endCmd, hov]
  rfl

/-- A second run changes of an outcome only its status. -/
theorem fault_okRetried {o p : Outcome} {b : Bool} (hp : p = if b then { o with status := .okRetried } else o) :
    p.fault = o.fault := by
  subst hp
  split <;> rfl

/-- Settles O32. -/
theorem dispatchAndJobs : Obligations.DispatchAndJobs := by
  unfold Obligations.DispatchAndJobs
  refine ⟨fun s k => ⟨fun h => ?_, fun h d hd => ⟨fun c e he => ?_, fun e he => ?_⟩⟩,
    fun s id c hc hst ha => ⟨fun h => ?_, fun h ho => ?_, fun o h ho hov p hp => ⟨fun hf => ?_, fun j hf => ?_⟩, fun o h ho hov hr => ?_,
      fun o h ho hov hr => ?_⟩⟩
  · show execCommandDispatch k s = _
    simp [execCommandDispatch, h]
  · subst hd
    show execCommandDispatch k s = _
    simp [execCommandDispatch, h, he]
  · subst hd
    show execCommandDispatch k s = _
    simp [execCommandDispatch, h, he]
  · show execEngineJobEnd id s = _
    simp [execEngineJobEnd, hc, hst, ha, h]
  · show execEngineJobEnd id s = _
    simp [execEngineJobEnd, hc, hst, ha, ho, Nat.not_lt.mpr h]
  · refine (execEngineJobEnd_ends hc hst ha h ho).trans ?_
    rw [endCmd_kept hov hp, fault_okRetried hp, hf]
  · refine (execEngineJobEnd_ends hc hst ha h ho).trans ?_
    rw [endCmd_kept hov hp, fault_okRetried hp, hf]
  · refine (execEngineJobEnd_ends hc hst ha h ho).trans ?_
    simp only [endCmd, hov, hr, if_true, Bool.false_eq_true, if_false]
  · refine (execEngineJobEnd_ends hc hst ha h ho).trans ?_
    simp only [endCmd, hov, hr, if_true]

/-! Results. -/

/-- Outputs change of the memories only the on-package one. -/
theorem writeOuts_keeps {α : Type} (f : Memory → α) (c : Cmd) (l : List (Nat × Bytes)) (r : Dev × Memory)
    (h : ∀ (m : Memory) x, f { m with hbm := x } = f m := by exact fun _ _ => rfl) : f (writeOuts c l r).2 = f r.2 := by
  induction l generalizing r with
  | nil => rfl
  | cons e l ih =>
    refine (ih _).trans ?_
    unfold writeOut
    dsimp only
    split
    · rfl
    · split
      · rfl
      · exact h _ _

/-- Outputs to host memory leave the memories. -/
theorem writeOuts_host (c : Cmd) (l : List (Nat × Bytes)) (r : Dev × Memory) (h : ∀ x ∈ l, (c.pkt.desc x.1).space = 0) :
    (writeOuts c l r).2 = r.2 := by
  induction l generalizing r with
  | nil => rfl
  | cons e l ih =>
    refine (ih _ fun x hx => h x (List.mem_cons_of_mem _ hx)).trans ?_
    unfold writeOut
    dsimp only
    rw [if_pos (h e (List.mem_cons_self ..))]
    split <;> rfl

/-- A record that may be released is finished, and of the ring. -/
theorem mem_releasable {d : Dev} {s r : Nat} {e : Cmd} (h : e ∈ releasable d s r) :
    e.stage = .done ∧ e.slice = s ∧ e.ring = r := by
  have hw := List.mem_of_mem_take h
  have hdone := List.all_eq_true.mp List.all_takeWhile e hw
  have hmem := (List.mem_filter.mp ((List.takeWhile_sublist _).subset hw)).2
  simp only [Bool.and_eq_true, beq_iff_eq] at hdone hmem
  exact ⟨hdone, hmem.1.1, hmem.1.2⟩

/-- Settles O33. -/
theorem resultsAndRelease : Obligations.ResultsAndRelease := by
  unfold Obligations.ResultsAndRelease
  intro s id c o sl r
  refine ⟨fun hc hst ho ha hd ht hf => ⟨?_, writeOuts_keeps (·.scr) _ _ _, writeOuts_keeps (·.dram) _ _ _, writeOuts_keeps (·.iram) _ _ _,
      writeOuts_host _ _ _⟩,
    fun st w hc hst ha hd ht => ?_, fun hc hst w => ?_, ?_, fun e he => mem_releasable he, fun w h => ?_, fun w h hb => ?_, fun w h hb => ?_⟩
  · show execResultsWritten id .ok s = _
    simp [execResultsWritten, hc, hst, ho, ha, hd, ht, hf]
  · show execResultsWritten id w s = _
    simp [execResultsWritten, hc, hst, ha, hd, ht]
  · show execResultsWritten id w s = _
    simp [execResultsWritten, hc, hst]
  · exact Nat.le_trans (List.length_take_le _ _) (Nat.min_le_left _ _)
  · show execCompletionRelease sl r w s = _
    simp [execCompletionRelease, h]
  · show execCompletionRelease sl r w s = _
    simp [execCompletionRelease, h, hb]
  · show execCompletionRelease sl r w s = _
    have hb' : (releasable s.dev sl r).isEmpty = false := by simpa using hb
    simp only [execCompletionRelease, onDev_eq, h, hb', Bool.not_true, Bool.false_eq_true, if_false]
    rfl

/-- A repetition over two lists, one after the other. -/
theorem forEach_append {α : Type} (l l' : List α) (f : α → Dev → Dev) (d : Dev) :
    forEach (l ++ l') f d = forEach l' f (forEach l f d) := List.foldl_append

theorem take_one_append_tail {α : Type} (l : List α) : l.take 1 ++ l.tail = l := by cases l <;> rfl

/-- Settles O34. -/
theorem engineStreams : Obligations.EngineStreams := by
  unfold Obligations.EngineStreams input
  refine ⟨fun s id c k u => ⟨fun h hk => ?_, fun h hk hu hlt hz => ⟨fun h1 => ?_, fun h1 hx => ?_, fun h1 hx => ?_, fun h1 hx => ?_,
    fun h1 hx => ?_⟩, fun h => ?_, fun h hu ht => ?_, fun h p => ?_, fun h hu ht => ⟨?_, ?_⟩⟩,
        fun s sl sid id c => ⟨fun t ht => ?_, fun h => ?_, fun j t hc hst ha hj hn ht hle => ?_,
      fun cfg h => ?_, fun h => ?_, fun h => ?_⟩⟩
  · refine (execOp_atStep h).trans ?_
    simp [hk]
  · refine (execOp_atStep h).trans ?_
    simp [hk, hu, Nat.not_le.mpr hlt, hz, h1]
  · refine (execOp_atStep h).trans ?_
    simp [hk, hu, Nat.not_le.mpr hlt, hz, h1, hx]
  · refine (execOp_atStep h).trans ?_
    simp [hk, hu, Nat.not_le.mpr hlt, hz, h1, hx]
  · refine (execOp_atStep h).trans ?_
    simp [hk, hu, Nat.not_le.mpr hlt, hz, h1, hx]
  · refine (execOp_atStep h).trans ?_
    rcases hx with hx | hx <;> simp [hk, hu, Nat.not_le.mpr hlt, hz, h1, hx]
  · show execUnitDrainDone k u s = _
    rcases h with h | h <;> simp [execUnitDrainDone, h]
  · show execUnitDrainDone k u s = _
    simp [execUnitDrainDone, h, hu, ht]
  · show execEngineTestEnd k u p s = _
    rcases h with h | h <;> simp [execEngineTestEnd, h]
  · show execEngineTestEnd k u true s = _
    simp [execEngineTestEnd, h, Nat.not_lt.mpr hu, ht, ← forEach_append, take_one_append_tail]
  · show execEngineTestEnd k u false s = _
    simp [execEngineTestEnd, h, Nat.not_lt.mpr hu, ht]
  · show execStreamIdleTimeout sl sid s = _
    simp only [execStreamIdleTimeout, onDev_eq, ht, Bool.and_eq_true, Bool.not_eq_true', decide_eq_true_eq]
  · show execStreamIdleTimeout sl sid s = _
    simp only [execStreamIdleTimeout, onDev_eq, h]
  · show execClassEmptyTimeout id s = _
    simp only [execClassEmptyTimeout, onDev_eq, hc, hst, ha]
    rw [if_pos]
    rw [Bool.and_eq_true]
    exact ⟨rfl, List.any_eq_true.mpr ⟨ucOf j, List.mem_append_left _ (List.mem_map_of_mem hj), by simp [hn, ht, hle]⟩⟩
  · show execConfigApply sl s = _
    simp only [execConfigApply, onDev_eq, h, Bool.and_eq_true, Bool.not_eq_true']
  · show execConfigApply sl s = _
    simp only [execConfigApply, onDev_eq, h]
  · exact execOp_atStep h

end Sys2Proof.Machine
end

section
/-!
SUPPORT. Flits that arrive (R352 [12]); spilling and its settings (R361 to R363); device time (R337 to R343); the action table
(R344 to R350).
-/
namespace Sys2Proof.Machine

/-! Flits that arrive. -/

@[simp] theorem Heard_pos (d : Dev) (port : Fin 2) (h : FlitHdr) : (Heard d port h).pos = d.pos := rfl
@[simp] theorem Heard_bound (d : Dev) (port : Fin 2) (h : FlitHdr) : (Heard d port h).bound = d.bound := rfl

/-- What a flit that arrives for this device does: its sequence number is taken, and it has its meaning. -/
theorem flitIn_arrives {d : Dev} {port : Fin 2} {h : FlitHdr} {typ : Nat} (ha : Arrives d port h typ) (h1 : 1 ≤ typ)
    (h10 : typ ≤ 10) (f : Dev → Dev) : flitIn port h typ f d = f (custodyPend typ (Heard d port h)) := by
  obtain ⟨hp, hs, hl, htag, hseq, htyp, hsrc, hdst⟩ := ha
  have h1' : ¬ typ < 1 := by omega
  have h10' : ¬ 10 < typ := by omega
  have hpos : (modPort port (fun x => { x with rxSeq := (d.port port).rxSeq + 1 }) d).pos = d.pos := rfl
  simp [flitIn, hp, hs, hl, htag, hseq, htyp, hsrc, hdst, h1', h10', hpos, Heard]

/-- The same of a flit that is not announced to Linen. -/
theorem flitIn_plain {d : Dev} {port : Fin 2} {h : FlitHdr} {typ : Nat} (ha : Arrives d port h typ) (h1 : 1 ≤ typ)
    (h10 : typ ≤ 10) (hq : ¬ (typ = 3 ∨ typ = 7 ∨ typ = 8)) (f : Dev → Dev) : flitIn port h typ f d = f (Heard d port h) := by
  rw [flitIn_arrives ha h1 h10, custodyPend, if_neg (by simpa [or_assoc] using hq)]

/-! Spilling. -/

/-- A command that needs no draw is spilled as it is (R361, R362). -/
theorem execSpillWaitExpiry_sends {s : State} {id : Nat} {port : Fin 2} {c : Cmd} (hc : findCmd s.dev id = some c)
    (hm : mayStart s.dev = true) (hs : spillable s.mem s.dev port c = true)
    (hd : c.draws ≠ 0 ∨ drawsFor c.op (partsOf s.dev c) = false) :
    Gives (.spillWaitExpiry id port) s
      (let q := chargeCmd c (partsOf s.dev c) s.dev
       let f := setCmd { q.1 with stage := .spilled } (stopGather id q.2)
       sendOn port false (.spillReqFlit port (spillReqOf s.mem s.dev c)) { f with board := { f.board with
         spillOut := f.board.spillOut ++ [⟨id, port, q.2.clk + 10000000 + serviceTime q.2 q.1⟩] } }) := by
  have hnot : ¬ ((decide (c.draws = 0) && drawsFor c.op (partsOf s.dev c)) = true) := by
    rcases hd with hd | hd <;> simp [hd]
  show execSpillWaitExpiry id port s = _
  simp only [execSpillWaitExpiry, onDevM_eq, hc, hm, hs, Bool.not_true, Bool.or_self, Bool.false_eq_true, if_false, if_neg hnot]

/-- Settles O35. -/
theorem spillingAndItsSettings : Obligations.SpillingAndItsSettings := by
  unfold Obligations.SpillingAndItsSettings input
  refine ⟨fun s port h id c => ⟨?_, fun free share mem ha => ?_, fun hc hn => ?_, fun hc hm hs hd => ?_, fun r ha hr => ?_,
      fun r o ha hr hh f hf => ?_,
    fun ha hc hst ho => ⟨?_, fun code st outs res hcode houts => ?_⟩, ?_⟩, fun s id c h => ⟨fun hz => ?_, fun hz hb => ?_, fun hz hb => ?_⟩⟩
  · show execCreditAdvertSend s = _
    split
    · next h =>
      obtain ⟨ha, hs, hb, ht⟩ := h
      simp [execCreditAdvertSend, ha, hs, hb, Nat.not_lt.mpr ht]
    · next h =>
      have hnot : (!s.dev.alive || !s.dev.link.started || !s.dev.bound || decide (s.dev.clk < s.dev.board.advertAt + 1000)) = true := by
        refine eq_true_of_ne_false fun hf => h ?_
        simpa only [Bool.or_eq_false_iff, Bool.not_eq_false', decide_eq_false_iff_not, Nat.not_lt, and_assoc] using hf
      simp only [execCreditAdvertSend, onDev_eq, hnot, if_true]
  · show execCreditAdvertFlit port h free share mem s = _
    rw [execCreditAdvertFlit, onDev_eq, flitIn_plain ha (by decide) (by decide) (by decide)]
  · show execSpillWaitExpiry id port s = _
    rcases hn with hn | hn <;> simp [execSpillWaitExpiry, hc, hn]
  · exact execSpillWaitExpiry_sends hc hm hs hd
  · show execSpillRequest port h r s = _
    rw [execSpillRequest, onDev_eq, flitIn_plain ha (by decide) (by decide) (by decide), hr]
  · subst hf
    show execSpillRequest port h r s = _
    rw [execSpillRequest, onDev_eq, flitIn_plain ha (by decide) (by decide) (by decide), hr, hh]
    rfl
  · show execSpillResponse port h id .unrun s = _
    rw [execSpillResponse, onDev_eq, flitIn_plain ha (by decide) (by decide) (by decide)]
    simp [hc, hst, ho]
  · subst houts
    show execSpillResponse port h id (.ran code [] res) s = _
    rw [execSpillResponse, onDev_eq, flitIn_plain ha (by decide) (by decide) (by decide)]
    simp [hc, hst, ho, hcode]
  · show execSpillTimeout id s = _
    simp only [execSpillTimeout, onDev_eq, Bool.and_eq_true]
  · refine (execOp_atStep h).trans ?_
    simp [hz]
  · refine (execOp_atStep h).trans ?_
    simp [hz, hb]
  · refine (execOp_atStep h).trans ?_
    dsimp only
    rw [hz, hb]
    rfl

/-- Settles O36. -/
theorem deviceTime : Obligations.DeviceTime := by
  unfold Obligations.DeviceTime
  intro s err port h tick since hp hs hb
  refine ⟨?_, ?_, fun hl => ?_, fun hl => ?_, fun hl => ?_, fun hl hf ht hn => ?_, fun hl hf ht hn => ?_, fun ha hl => ?_, fun ha hl => ?_, ?_,
    fun t ht => ?_, fun ht => ?_⟩
  · show execTsyncDrive s = _
    simp [execTsyncDrive, hp, hs, hb]
  · show execTimeMsgSend s = _
    simp [execTimeMsgSend, hp, hs, hb, and_assoc]
  · show execTsyncEdge err s = _
    simp [execTsyncEdge, hp, hs, hb, hl]
  · show execTsyncEdge err s = _
    simp [execTsyncEdge, hp, hs, hb, hl]
  · show execTsyncEdge err s = _
    simp [execTsyncEdge, hl]
  · show execTsyncEdgeMissing s = _
    have h3 : s.dev.board.lost ≠ 2 := by omega
    have hmin : min 255 (s.dev.board.lost + 1) = s.dev.board.lost + 1 := by omega
    simp [execTsyncEdgeMissing, hp, hs, hb, hl, hf, Nat.not_lt.mpr ht, h3, hmin]
  · show execTsyncEdgeMissing s = _
    rw [hn] at ht
    simp [execTsyncEdgeMissing, hp, hs, hb, hl, hf, hn, Nat.not_lt.mpr ht]
  · show execTimeFlit port h tick since s = _
    rw [execTimeFlit, onDev_eq, flitIn_plain ha (by decide) (by decide) (by decide)]
    have hbound : (Heard s.dev port h).bound = true := hb
    have hlock : (Heard s.dev port h).board.lock = _ := hl
    simp only [hbound, hlock, Bool.not_true, Bool.false_eq_true, if_false]
    rfl
  · show execTimeFlit port h tick since s = _
    rw [execTimeFlit, onDev_eq, flitIn_plain ha (by decide) (by decide) (by decide)]
    have hbound : (Heard s.dev port h).bound = true := hb
    have hlock : (Heard s.dev port h).board.lock = _ := hl
    simp only [hbound, hlock, Bool.not_true, Bool.false_eq_true, if_false]
  · show execMasterStartupSilence s = _
    simp [execMasterStartupSilence, hp, hs, hb, and_assoc]
  · show execMasterTakeover s = _
    simp [execMasterTakeover, ht, hp, hs, hb]
  · show execMasterTakeover s = _
    simp [execMasterTakeover, ht]

/-- Settles O37. -/
theorem actionTable : Obligations.ActionTable := by
  unfold Obligations.ActionTable input
  intro s id c i idx
  refine ⟨fun h => execOp_atStep h, fun h h3 hz hb => ?_, fun h h3 hz hb h2 h1 hi hl hc => ?_, fun h hz hi => ?_,
    fun h hz hi hl hser hne hc hd hno => ?_, fun h => ?_, fun h => ?_, fun ha hd hb => ?_⟩
  · refine (execOp_atStep h).trans ?_
    simp [h3, hz, hb]
  · refine (execOp_atStep h).trans ?_
    simp [h3, hz, hb, h2, h1, hi, Nat.not_le.mpr hl, hc]
  · refine (execOp_atStep h).trans ?_
    simp [hz, hi]
  · refine (execOp_atStep h).trans ?_
    dsimp only at hl hser hne hc hd hno ⊢
    rcases hc with hc | hc <;> simp [hz, Nat.not_le.mpr hi, hl, ← hser, hne, hc, hd, hno]
  · refine (execOp_atStep h).trans ?_
    simp
  · show execSchedActionFire idx s = _
    simp [execSchedActionFire, h]
  · show execSchedActionFire idx s = _
    simp only [execSchedActionFire, onDev_eq, ha, hd, hb, Bool.not_false, Bool.and_self, if_true]

end Sys2Proof.Machine
end

section
/-!
SUPPORT. Board binding, the ports and their flits (R351 to R356, R506 [12]).
-/
namespace Sys2Proof.Machine

/-- A custody flit is announced to Linen. -/
theorem flitIn_custody {d : Dev} {port : Fin 2} {h : FlitHdr} {typ : Nat} (ha : Arrives d port h typ)
    (hq : typ = 3 ∨ typ = 7 ∨ typ = 8) (f : Dev → Dev) : flitIn port h typ f d = f (HeardCustody d port h) := by
  rw [flitIn_arrives ha (by omega) (by omega), custodyPend, if_pos (by simpa [or_assoc] using hq)]
  rfl

/-- A device without a board key has no board to lose. -/
theorem dropBoard_unbound {d : Dev} (h : d.bound = false) : dropBoard d = d := by
  have hk : d.board.key.isNone = true := by simpa [Dev.bound] using h
  simp only [dropBoard, hk, if_true]

/-- Settles O38. -/
theorem bindingAndPorts : Obligations.BindingAndPorts := by
  unfold Obligations.BindingAndPorts input
  refine ⟨fun s id c port h kcv => ⟨fun ha hb hz => ?_, fun ha hb hz hbad => ?_, fun ha hb hz hbad hd => ?_, fun ha hb hz hbad hd hbo hp => ?_,
    fun ha hb hz hbad hd hbo => ⟨fun hpos => ?_, fun hpos => ?_⟩, fun b ha hb => ?_, fun ha hb => ?_, fun b hb => ?_, fun hb => ?_, fun ha => ?_⟩,
    fun s port h lanes4 nonces r => ⟨fun hp hs hd => ?_, fun hp => ?_, fun ha => ?_, fun ha h1 h8 => ?_⟩⟩
  · refine (execOp_atStep ha).trans ?_
    simp [hb, hz]
  · refine (execOp_atStep ha).trans ?_
    dsimp only
    rw [if_neg (by simp [hb]), if_neg (by simp [hz]),
      if_pos (by
        simp only [Bool.or_eq_true, decide_eq_true_eq, or_assoc]
        exact hbad.imp_right (Or.imp_right (Or.imp_right (Or.imp_right Or.inl))))]
  · refine (execOp_atStep ha).trans ?_
    dsimp only
    rw [if_neg (by simp [hb]), if_neg (by simp [hz]), if_pos (by simp [hd])]
  · refine (execOp_atStep ha).trans ?_
    dsimp only
    rw [if_neg (by simp [hb]), if_neg (by simp [hz]), if_neg (by simpa [or_assoc, hd] using hbad), if_pos (by simp [hbo, hp])]
  · refine (execOp_atStep ha).trans ?_
    dsimp only
    rw [if_neg (by simp [hb]), if_neg (by simp [hz]), if_neg (by simpa [or_assoc, hd] using hbad), if_neg (by simp [hbo]),
      dropBoard_unbound hbo, if_neg (by exact hpos)]
    rfl
  · refine (execOp_atStep ha).trans ?_
    dsimp only
    rw [if_neg (by simp [hb]), if_neg (by simp [hz]), if_neg (by simpa [or_assoc, hd] using hbad), if_neg (by simp [hbo]),
      dropBoard_unbound hbo, if_pos (by exact hpos)]
    rfl
  · show execBindFlit port h (.confirm kcv) s = _
    rw [execBindFlit, onDev_eq, flitIn_custody ha (by decide)]
    have hb' : (HeardCustody s.dev port h).board.bind = some b := hb
    simp only [hb']
  · show execBindFlit port h (.confirm kcv) s = _
    rw [execBindFlit, onDev_eq, flitIn_custody ha (by decide)]
    have hb' : (HeardCustody s.dev port h).board.bind = none := hb
    simp only [hb']
  · show execBindTimeout s = _
    simp only [execBindTimeout, onDev_eq, hb]
  · show execBindTimeout s = _
    simp only [execBindTimeout, onDev_eq, hb]
  · refine (execOp_atStep ha).trans ?_
    dsimp only
    refine congrArg (fun one => Host.Outcome.next { s with dev := okOuts [(0, (List.range 8).flatMap one)] id s.dev }) ?_
    funext p
    cases tfind s.dev.board.heard p <;> rfl
  · show execPortTrained port lanes4 nonces s = _
    simp only [execPortTrained, onDev_eq, hp, hs, hd, Bool.not_true, Bool.or_self, Bool.false_eq_true, if_false]
    rfl
  · show execPortDown port s = _
    simp [execPortDown, hp]
  · show execLinkControlFlit port h [] s = _
    rw [execLinkControlFlit, onDev_eq, flitIn_plain ha (by decide) (by decide) (by decide)]
    simp only [List.filter_nil, List.foldl_nil, bne_self_eq_false, Bool.false_eq_true, if_false]
  · show execLinkControlFlit port h [r] s = _
    rw [execLinkControlFlit, onDev_eq, flitIn_plain ha (by decide) (by decide) (by decide)]
    have h1' : (r.pos != (Heard s.dev port h).pos && decide (r.pos < 8)) = true := by simp [h1, h8]
    simp only [List.filter_cons, h1', List.filter_nil, if_true, List.foldl_cons, List.foldl_nil]

/-! Mirroring. -/

/-- A commit that is placed leaves what is known of the serving devices. -/
theorem serving_placeCommit {mid msn tick : Nat} {d f : Dev} (h : placeCommit mid msn tick d = some f) :
    f.board.serving = d.board.serving := by
  unfold placeCommit at h
  dsimp only at h
  split at h
  · cases h
  · split at h
    · cases h
    · cases h
      rfl

/-- Settles O39. -/
theorem mirroringAndResync : Obligations.MirroringAndResync := by
  unfold Obligations.MirroringAndResync
  refine ⟨fun s id mid msn tick c port h r ack => ⟨fun ha hb => ?_, fun k ha hb hk hm hn => ?_, fun k ha hb hk hm hn => ?_, fun ha hb => ?_,
    fun k i ha hb hk hf hp hm => ?_, fun ha hp hm hr => ?_, fun ha hp => ?_, fun ha hl => ?_, fun hp => ?_, fun p hp ha hl hc hn => ?_,
    fun p f hp ha hl hc hn hall => ?_, fun q hq ha hm => ⟨fun h1 => ?_, fun h1 h2 => ?_, fun f h1 h2 h3 => ?_⟩, fun ha hm => ?_,
        fun ha => ?_, fun p hp => ?_⟩,
    fun s port h n msn no adder r blk cfg msg => ⟨fun ha hm => ?_, fun ha hm hl hac hn h0 => ?_, fun ha hm => ?_, fun ha hm => ⟨?_, ?_, ?_⟩,
        fun ha hm => ?_, fun ha => ?_⟩⟩
  · refine (execOp_atStep ha).trans ?_
    simp [hb]
  · refine (execOp_atStep ha).trans ?_
    dsimp only
    rw [if_neg (by simp [hb]), hk]
    dsimp only
    rw [hm]
    dsimp only
    rw [if_neg (by simpa [and_assoc] using hn)]
    by_cases hs : s.dev.board.member = .inSync <;> simp [hs]
  · refine (execOp_atStep ha).trans ?_
    dsimp only
    rw [if_neg (by simp [hb]), hk]
    dsimp only
    rw [hm]
    dsimp only
    rw [if_pos (by simpa [or_assoc] using hn)]
  · refine (execOp_atStep ha).trans ?_
    simp [hb]
  · refine (execOp_atStep ha).trans ?_
    simp [hb, hk, hf, hp, hm]
  · show execMirrorPrepare port h r s = _
    rw [execMirrorPrepare, onDev_eq, flitIn_custody ha (by decide)]
    simp [hp, hm, hr]
  · show execMirrorPrepare port h r s = _
    rw [execMirrorPrepare, onDev_eq, flitIn_custody ha (by decide)]
    simp [Option.isSome_iff_ne_none, hp]
  · show execMirrorReply port h mid ack s = _
    rw [execMirrorReply, onDev_eq, flitIn_custody ha (by decide)]
    simp [hl]
  · show execMirrorSeqWaitEnd mid s = _
    simp [execMirrorSeqWaitEnd, hp]
  · show execMirrorSeqWaitEnd mid s = _
    simp [execMirrorSeqWaitEnd, hp, ha, hl, hc, hn]
  · intro no due hf
    show execMirrorSeqWaitEnd mid s = _
    have hmute : (List.range 8).filter (fun q => f.board.serving.getLsbD q && !p.acks.contains q) = [] := by
      rw [serving_placeCommit hf, List.filter_eq_nil_iff]
      intro q hq
      have := List.all_eq_true.mp hall q hq
      revert this
      cases s.dev.board.serving.getLsbD q <;> cases p.acks.contains q <;> decide
    have hf' : placeCommit mid (max s.dev.board.seqMsn (topMsn s.dev) + 1)
        (max (s.dev.devTime + s.dev.board.commitLead * 1000) (s.dev.board.seqTick + 1)) s.dev = some f := hf
    simp only [execMirrorSeqWaitEnd, onDev_eq, hp, ha, hl, hc, hn, hall, hf', hmute, List.foldl_nil, bne_self_eq_false, Bool.not_true,
      Bool.not_false, Bool.or_self, Bool.and_false, Bool.false_and, Bool.false_eq_true, if_false]
    rfl
  · show execMirrorCommit port h mid msn tick s = _
    rw [execMirrorCommit, onDev_eq, flitIn_custody ha (by decide)]
    have hm' : (HeardCustody s.dev port h).board.member = .inSync := hm
    rw [hm', if_neg (by decide), if_neg (by decide), if_pos (hq.trans h1)]
  · show execMirrorCommit port h mid msn tick s = _
    rw [execMirrorCommit, onDev_eq, flitIn_custody ha (by decide)]
    have hm' : (HeardCustody s.dev port h).board.member = .inSync := hm
    rw [hm', if_neg (by decide), if_neg (by decide), if_neg (by rw [hq, h1]; decide), if_pos (bne_iff_ne.mpr h2)]
  · show execMirrorCommit port h mid msn tick s = _
    rw [execMirrorCommit, onDev_eq, flitIn_custody ha (by decide)]
    have hm' : (HeardCustody s.dev port h).board.member = .inSync := hm
    rw [hm', if_neg (by decide), if_neg (by decide), if_neg (by rw [hq, h1]; decide), if_neg (fun hn => bne_iff_ne.mp hn h2), h3]
  · show execMirrorCommit port h mid msn tick s = _
    rw [execMirrorCommit, onDev_eq, flitIn_custody ha (by decide)]
    simp [hm]
  · show execMirrorAbort port h mid s = _
    rw [execMirrorAbort, onDev_eq, flitIn_custody ha (by decide)]
  · show execMirrorOriginTimeout mid s = _
    simp [execMirrorOriginTimeout, hp, and_assoc]
  · show execResyncRequest port h n s = _
    rw [execResyncRequest, onDev_eq, flitIn_custody ha (by decide)]
    have hm' : (HeardCustody s.dev port h).board.member ≠ .inSync := hm
    simp [hm']
  · show execResyncRequest port h n s = _
    rw [execResyncRequest, onDev_eq, flitIn_custody ha (by decide)]
    have hm' : (HeardCustody s.dev port h).board.member = .inSync := hm
    have hl' : (HeardCustody s.dev port h).board.log = [] := hl
    have hac' : (HeardCustody s.dev port h).board.actions = [] := hac
    have hn' : n = (HeardCustody s.dev port h).board.lastMsn := hn
    simp [hm', hl', ← hn', h0, forEach, hac']
  · show execResyncReplay port h msg s = _
    rw [execResyncReplay, onDev_eq, flitIn_custody ha (by decide)]
    have hm' : (HeardCustody s.dev port h).board.member ≠ .resync := hm
    simp [hm']
  · show execResyncReplay port h (.record msn r) s = _
    rw [execResyncReplay, onDev_eq, flitIn_custody ha (by decide)]
    have hm' : (HeardCustody s.dev port h).board.member = .resync := hm
    simp [hm']
    rfl
  · show execResyncReplay port h (.entry no blk cfg adder) s = _
    rw [execResyncReplay, onDev_eq, flitIn_custody ha (by decide)]
    have hm' : (HeardCustody s.dev port h).board.member = .resync := hm
    simp [hm']
  · show execResyncReplay port h .done s = _
    rw [execResyncReplay, onDev_eq, flitIn_custody ha (by decide)]
    have hm' : (HeardCustody s.dev port h).board.member = .resync := hm
    simp [hm']
  · show execBoardEntryFlit port h (.place no blk cfg adder) s = _
    rw [execBoardEntryFlit, onDev_eq, flitIn_plain ha (by decide) (by decide) (by decide)]
    have hm' : (Heard s.dev port h).board.member = .inSync := hm
    simp [hm']
  · show execBoardEntryFlit port h (.cancel no) s = _
    rw [execBoardEntryFlit, onDev_eq, flitIn_plain ha (by decide) (by decide) (by decide)]

/-! Flits received. -/

/-- A flit that is sent leaves the position of the device. -/
theorem pos_sendOn (p : Nat) (plain : Bool) (e : Emit) (d : Dev) : (sendOn p plain e d).pos = d.pos := by
  unfold sendOn
  dsimp only
  split <;> rfl

/-- Settles O40. -/
theorem flitsAndBoardTamper : Obligations.FlitsAndBoardTamper := by
  unfold Obligations.FlitsAndBoardTamper
  refine ⟨fun s port h free share mem hp hs hl => ⟨fun hbad => ?_, fun htag hseq htyp => ?_, fun htag hseq h1 h10 hdst hall hsrc hhops => ?_⟩,
    fun s port h pos level ha => ⟨fun hn => ?_, fun hpos hlev hi => ?_, fun hpos hlev hi => ?_⟩⟩
  · show execCreditAdvertFlit port h free share mem s = _
    have hbad' : (!h.tagOk || h.linkSeq != (s.dev.port port).rxSeq + 1) = true := by simpa using hbad
    simp only [execCreditAdvertFlit, onDev_eq, flitIn, hp, hs, hl, Bool.not_true, Bool.or_self, Bool.false_eq_true, if_false,
      beq_self_eq_true, Bool.true_or, if_true, Bool.true_and, hbad']
  · show execCreditAdvertFlit port h free share mem s = _
    have hres : (decide (h.typ < 1) || decide (10 < h.typ)) = true := by simpa using htyp
    simp only [execCreditAdvertFlit, onDev_eq, flitIn, hp, hs, hl, htag, hseq, hres, Bool.not_true, Bool.or_self, Bool.false_eq_true,
      if_false, beq_self_eq_true, bne_self_eq_false, Bool.true_or, if_true, Bool.and_false, Heard]
  · show execCreditAdvertFlit port h free share mem s = _
    have hseq' : (h.linkSeq != (s.dev.port port).rxSeq + 1) = false := by simp [hseq]
    have hty : (decide (h.typ < 1) || decide (10 < h.typ)) = false := by simp; omega
    have hup : (LinkSt.up == LinkSt.upUnbound) = false := by decide
    have hfwd : (h.dst != s.dev.pos && h.src != s.dev.pos && h.hops != 0) = true := by simp [hdst, hsrc, hhops]
    have hhere : (decide (h.typ = 6) && h.src != s.dev.pos && (decide (h.dst = s.dev.pos) || decide (h.dst = 0xFF))) = false := by
      simp [hdst, hall]
    have hh : modPort port (fun x => { x with rxSeq := h.linkSeq }) s.dev = Heard s.dev port h := rfl
    simp only [execCreditAdvertFlit, onDev_eq, flitIn, hp, hs, hl, htag, hseq', hty, hup, hh, Heard_pos, hfwd, pos_sendOn, hhere,
      Bool.not_true, Bool.or_self, Bool.false_eq_true, if_false, beq_self_eq_true, Bool.true_or, if_true, Bool.and_false, Bool.false_and]
  · show execTamperFlit port h pos level s = _
    rw [execTamperFlit, onBoth_eq, flitIn_plain ha (by decide) (by decide) (by decide)]
    have hi' : (Heard s.dev port h).board.incident = s.dev.board.incident := rfl
    have hself : (decide (pos.val = (Heard s.dev port h).pos) || decide (level = 0)) = true := by
      rw [Heard_pos]
      simpa using hn
    simp only [hself, if_true, hi', Bool.and_not_self, Bool.false_eq_true, if_false]
  · show execTamperFlit port h pos level s = _
    rw [execTamperFlit, onBoth_eq, flitIn_plain ha (by decide) (by decide) (by decide)]
    have hi' : (Heard s.dev port h).board.incident = true := hi
    simp [hpos, hlev, boardIncident, hi, hi', sameIncident]
  · show execTamperFlit port h pos level s = _
    rw [execTamperFlit, onBoth_eq, flitIn_plain ha (by decide) (by decide) (by decide)]
    have hi' : (Heard s.dev port h).board.incident = false := hi
    simp [hpos, hlev, boardIncident, hi, hi']

end Sys2Proof.Machine
end

section
/-!
SUPPORT. Custody: life-cycle transitions, debug, approvals, components, master keys, audit rings (R365 to R393 [13]).
-/
namespace Sys2Proof.Machine

/-! What the abort and the erasure of a transition leave (R369). -/

namespace SurvivesAborts

theorem dropCmd {P : Dev → Prop} (S : SurvivesAborts P) (id : Nat) (d : Dev) (h : P d) : P (Machine.dropCmd id d) := by
  unfold Machine.dropCmd
  split
  · exact h
  · next c _ =>
    have begun : P (if c.stage = .done then d else Machine.undoReserve c (Machine.freePendingOf c d)) := by
      split
      · exact h
      · exact S.undoReserve _ _ (S.freePendingOf _ _ h)
    have wiped : P (wipeUnits c (wipeJob id (if c.stage = .done then d else Machine.undoReserve c (Machine.freePendingOf c d)))) :=
      S.sched _ _ (S.wipe _ id begun)
    generalize wipeUnits c (wipeJob id (if c.stage = .done then d else Machine.undoReserve c (Machine.freePendingOf c d))) = w at wiped ⊢
    have streamed : P (if c.pkt.segf != 0 && (streamOf w c).isSome then Machine.dropStream c.slice c.pkt.sid w else w) := by
      split
      · exact S.dropStream _ _ _ wiped
      · exact wiped
    refine S.cmds _ _ ?_
    dsimp only
    generalize (if c.pkt.segf != 0 && (streamOf w c).isSome then Machine.dropStream c.slice c.pkt.sid w else w) = v at streamed ⊢
    split
    · exact S.audit v _ (fun x => { x.audit with reserved := x.audit.reserved - 1 }) streamed
    · exact streamed

theorem dropWhere {P : Dev → Prop} (S : SurvivesAborts P) (p : Cmd → Bool) (d : Dev) (h : P d) : P (Machine.dropWhere p d) :=
  S.sweep _ (forEach_preserves _ (fun id e he => S.dropCmd id e he) _ _ h)

end SurvivesAborts

theorem cmds_dropShadow (i : Nat) (d : Dev) : (dropShadow i d).cmds = d.cmds := by
  unfold dropShadow
  split
  · rfl
  · exact freeEnt_keeps (·.cmds) d (fun _ _ _ => rfl) _

theorem cmds_freePendingOf (c : Cmd) (d : Dev) : (freePendingOf c d).cmds = d.cmds := by
  unfold freePendingOf
  split
  · exact cmds_dropShadow _ d
  · split
    · exact freeEnt_keeps (·.cmds) d (fun _ _ _ => rfl) _
    · rfl
  · rfl

theorem cmds_undoReserve (c : Cmd) (d : Dev) : (undoReserve c d).cmds = d.cmds := by
  unfold undoReserve
  split <;> rfl

/-- The commands left when one is dropped. -/
theorem cmds_dropCmd (id : Nat) (d : Dev) : (dropCmd id d).cmds = d.cmds.filter (fun c => c.id != id) := by
  unfold dropCmd
  split
  · next hn =>
    refine (List.filter_eq_self.mpr fun c hc => ?_).symm
    simpa using List.find?_eq_none.mp hn c hc
  · next c _ =>
    have begun : (if c.stage = .done then d else undoReserve c (freePendingOf c d)).cmds = d.cmds := by
      split
      · rfl
      · exact (cmds_undoReserve c _).trans (cmds_freePendingOf c d)
    have wiped : (wipeUnits c (wipeJob id (if c.stage = .done then d else undoReserve c (freePendingOf c d)))).cmds = d.cmds := begun
    generalize wipeUnits c (wipeJob id (if c.stage = .done then d else undoReserve c (freePendingOf c d))) = w at wiped ⊢
    refine congrArg (List.filter fun e => e.id != id) (Eq.trans ?_ wiped)
    dsimp only
    split <;> split <;> rfl

theorem cmds_sweepOnce (d : Dev) : (sweepOnce d).cmds = d.cmds := by
  refine forEach_keeps (·.cmds) d _ (fun i e => ?_) _
  split
  · split
    · exact freeEnt_keeps (·.cmds) e (fun _ _ _ => rfl) i
    · rfl
  · rfl

theorem cmds_sweep (d : Dev) : (sweep d).cmds = d.cmds :=
  forEach_keeps (·.cmds) d (fun _ => sweepOnce) (fun _ e => cmds_sweepOnce e) (List.range 9)

/-- The commands left when several are dropped. -/
theorem mem_cmds_forEach_dropCmd {l : List Nat} {d : Dev} {c : Cmd} (h : c ∈ (forEach l dropCmd d).cmds) : c ∈ d.cmds ∧ c.id ∉ l := by
  induction l generalizing d with
  | nil => exact ⟨h, List.not_mem_nil⟩
  | cons i l ih =>
    obtain ⟨hc, hl⟩ := ih h
    rw [cmds_dropCmd, List.mem_filter] at hc
    obtain ⟨hc, hi⟩ := hc
    exact ⟨hc, by simpa [hl] using hi⟩

/-- What satisfies the test is not among the commands left. -/
theorem mem_cmds_dropWhere {p : Cmd → Bool} {d : Dev} {c : Cmd} (h : c ∈ (dropWhere p d).cmds) : p c = false := by
  unfold dropWhere at h
  rw [cmds_sweep] at h
  obtain ⟨hc, hl⟩ := mem_cmds_forEach_dropCmd h
  exact Bool.eq_false_iff.mpr fun hp => hl (List.mem_map_of_mem (List.mem_filter.mpr ⟨hc, hp⟩))

/-- The erasure of a transition leaves whatever the key ledger, the custody and the like are not part of. -/
theorem eraseAll_keeps {α : Type} (f : Dev → α) (d : Dev)
    (h : ∀ (e : Dev) m n x sl c l p b k o,
      f { e with micro := m, linen := n, dma := x, slices := sl, cust := c, led := l, prot := p, board := b, link := k, out := o } = f e :=
          by exact fun _ _ _ _ _ _ _ _ _ _ _ => rfl) : f (eraseAll d) = f d := by
  refine (eraseVault_keeps f _ fun e c v b l o => h e e.micro e.linen e.dma e.slices c e.led _ b l o).trans ?_
  refine (freeWhere_keeps f _ (fun e l b => h e e.micro e.linen e.dma e.slices e.cust l e.prot b e.link e.out) _).trans ?_
  exact h d _ _ _ _ d.cust _ d.prot d.board d.link d.out

/-- No memory of an engine or a sequencer, no key of a slot and no unmask matrix is left. -/
theorem eraseAll_erases (d : Dev) : (eraseAll d).micro.jobs = [] ∧ (eraseAll d).micro.ctxs = [] ∧ (eraseAll d).led.keyHeld = false ∧
    (eraseAll d).led.matrix = [] ∧ (eraseAll d).dma.slotKeys = [] := by
  have kept {α : Type} (f : Dev → α) (h : ∀ (e : Dev) c v b l o,
      f { e with cust := c, prot := { e.prot with levels := v }, board := b, link := l, out := o } = f e) (d : Dev) :=
    eraseVault_keeps f d h
  unfold eraseAll
  refine ⟨?_, ?_, ?_, ?_, ?_⟩
  · exact (kept (·.micro.jobs) (fun _ _ _ _ _ _ => rfl) _).trans (freeWhere_keeps (·.micro.jobs) _ (fun _ _ _ => rfl) _)
  · exact (kept (·.micro.ctxs) (fun _ _ _ _ _ _ => rfl) _).trans (freeWhere_keeps (·.micro.ctxs) _ (fun _ _ _ => rfl) _)
  · refine (kept (·.led.keyHeld) (fun _ _ _ _ _ _ => rfl) _).trans ?_
    refine forEach_preserves (P := fun e => e.led.keyHeld = false) _ (fun i e he => ?_) _ _ rfl
    unfold freeEnt
    dsimp only
    split <;> exact he
  · refine (kept (·.led.matrix) (fun _ _ _ _ _ _ => rfl) _).trans ?_
    refine forEach_preserves (P := fun e => e.led.matrix = []) _ (fun i e he => ?_) _ _ rfl
    unfold freeEnt
    dsimp only
    split
    · exact he
    · show List.filter _ e.led.matrix = []
      rw [he, List.filter_nil]
  · exact (kept (·.dma.slotKeys) (fun _ _ _ _ _ _ => rfl) _).trans (freeWhere_keeps (·.dma.slotKeys) _ (fun _ _ _ => rfl) _)

theorem otp_lcAbort (id : Nat) (d : Dev) : (lcAbort id d).otp = d.otp :=
  (otp_survives d.otp).dropWhere _ _ ((otp_survives d.otp).abortWhere _ _ _ rfl)

/-- The first steps of a transition: OTP is as before, nothing secret is left, and no other command of a tenant. -/
theorem lcMove_erases (id k : Nat) (p : Bytes) (d : Dev) :
    let e := lcMove id k p d
    e.otp = d.otp ∧ e.micro.jobs = [] ∧ e.micro.ctxs = [] ∧ e.led.keyHeld = false ∧ e.led.matrix = [] ∧ e.dma.slotKeys = [] ∧
      ∀ x ∈ e.cmds, x.id ≠ id → x.slice = 0 := by
  obtain ⟨hj, hc, hk, hm, hs⟩ := eraseAll_erases (lcAbort id d)
  have ho := (eraseAll_keeps (·.otp) (lcAbort id d)).trans (otp_lcAbort id d)
  have hcmds : ∀ y ∈ (eraseAll (lcAbort id d)).cmds, y.slice = 0 := fun y hy => by
    rw [eraseAll_keeps (·.cmds)] at hy
    simpa using mem_cmds_dropWhere hy
  unfold lcMove
  generalize eraseAll (lcAbort id d) = e at *
  refine ⟨ho, hj, hc, hk, hm, hs, fun x hx _ => ?_⟩
  obtain ⟨y, hy, rfl⟩ := List.mem_map.mp hx
  have hz := hcmds y hy
  split <;> exact hz

/-- Settles O41. -/
theorem lifeCycleAndDebug : Obligations.LifeCycleAndDebug := by
  unfold Obligations.LifeCycleAndDebug input
  intro s id c
  refine ⟨fun ha => ⟨fun ht => ?_, fun ht hl => ?_, fun ht hl hz hk => ?_, fun ht hl hz hk hz2 hn hp hs => ?_⟩, fun k p _ => ?_,
    fun w ha hw => ⟨fun h4 h17 => ?_, fun h4 h18 => ?_, fun h5 => ?_, fun h6 => ?_⟩, fun he g hg => ?_, rfl, fun ha hp ht => ?_,
    fun ha hp ht hte => ⟨fun hn => ?_, fun n t hn => ⟨fun hbad => ?_, fun hlt hok => ?_⟩⟩, fun n t hn => ?_, fun ha => ?_⟩
  · refine (execOp_atStep ha).trans ?_
    simp [ht]
  · refine (execOp_atStep ha).trans ?_
    simp [Nat.not_lt.mpr ht, hl]
  · refine (execOp_atStep ha).trans ?_
    simp [Nat.not_lt.mpr ht, hl, hz, hk, badToken]
  · refine (execOp_atStep ha).trans ?_
    have hn' : ((c.pkt.ndesc == 2) != (field (inp s.mem s.dev c 0) 0 1 == 18)) = false := by
      have hsame : (c.pkt.ndesc == 2) = (field (inp s.mem s.dev c 0) 0 1 == 18) :=
        Bool.eq_iff_iff.mpr (by simpa only [beq_iff_eq] using hn.symm)
      rw [hsame, bne_self_eq_false]
    have hp' : (if field (inp s.mem s.dev c 0) 0 1 = 18 then provBad s.dev (inp s.mem s.dev c 1) else none) = none := by
      split
      · next h18 => exact hp h18
      · rfl
    have hfree : (decide (32 ≤ s.dev.otp.slots.length) || (decide (31 ≤ s.dev.otp.slots.length)
        && field (inp s.mem s.dev c 0) 0 1 != 21)) = false := by
      rcases hs with hs | ⟨h21, hs⟩
      · simp; omega
      · simp [h21]; omega
    simp only [Nat.not_lt.mpr ht, hl, hz, hk, hz2, hn', hp', hfree, Bool.not_true, Bool.false_eq_true, if_false]
  · obtain ⟨h1, h2, h3, h4, h5, h6, h7⟩ := lcMove_erases id k p s.dev
    exact ⟨h1, h2, h3, h4, h5, h6, h7, _, rfl, rfl, rfl, rfl, rfl, by simp⟩
  · show execOtpWriteComplete s = _
    simp [execOtpWriteComplete, ha, hw, lcStep, h4, h17]
  · show execOtpWriteComplete s = _
    simp [execOtpWriteComplete, ha, hw, lcStep, h4, h18]
  · show execOtpWriteComplete s = _
    simp [execOtpWriteComplete, ha, hw, lcStep, h5]
  · show execOtpWriteComplete s = _
    simp [execOtpWriteComplete, ha, hw, lcStep, h6]
  · subst hg
    have hfirst : (List.range 2).find? (fun i => s.dev.otp.seeds.getD i .bad != .bad) = some 0 := by
      rw [List.range_succ_eq_map, List.find?_cons_of_pos]
      rw [he]
      decide
    rw [writeSeeds, hfirst]
    simp only [he, beq_self_eq_true, if_true]
  · refine (execPhase_atStep ha hp).trans ?_
    dsimp only
    rw [if_neg (Nat.not_lt.mpr ht)]
    rfl
  · refine (execPhase_atStep ha hp).trans ?_
    simp [Nat.not_lt.mpr ht, hte, hn]
  · refine (execPhase_atStep ha hp).trans ?_
    simp only [Nat.not_lt.mpr ht, hte, hn, if_false, Bool.false_eq_true]
    have hbad' : (decide (t ≤ s.dev.clk) || !debugOk s.dev n (inp s.mem s.dev c 0)) = true := by simpa using hbad
    exact congrArg (fun e => Host.Outcome.next { s with dev := e }) (if_pos hbad')
  · refine (execPhase_atStep ha hp).trans ?_
    simp only [Nat.not_lt.mpr ht, hte, hn, if_false, Bool.false_eq_true]
    have hok' : debugOk { s.dev with link := { s.dev.link with debugNonce := none } } n
      (inp s.mem { s.dev with link := { s.dev.link with debugNonce := none } } c 0) = true := hok
    rw [if_neg (by simp [hok', hlt])]
  · show execDebugNonceExpiry s = _
    simp only [execDebugNonceExpiry, onDev_eq, hn]
  · exact (execOp_atStep ha).trans rfl

end Sys2Proof.Machine
end

section
/-!
SUPPORT. Approvals, custodians, key components, master keys (R377 to R386 [13]).
-/
namespace Sys2Proof.Machine

@[simp] theorem custody_modCust_same (d : Dev) (k : Nat) (f : Custody → Custody) : (d.modCust k f).custody k = f (d.custody k) :=
  tget_tset_same _ _ _ _

/-- The length of a wrapped blob tells its size class (R167). -/
theorem find_blobLen {j n : Nat} (hj : j < 6) (h : n = blobLen j) : (List.range 6).find? (fun k => blobLen k == n) = some j := by
  subst h
  revert j
  decide

/-- A quorum command whose approvals hold. -/
theorem withQuorum_good {cls id : Nat} {m : Memory} {c : Cmd} {d : Dev} (h : (ownQuorum m d c cls none).bad = none)
    (f : Nat → Dev → Dev) :
    withQuorum cls id m c d f = f (ownQuorum m d c cls none).cids (ownQuorum m d c cls none).dev := by
  simp only [withQuorum, h]

/-- Settles O42. -/
theorem approvalsAndCustodians : Obligations.ApprovalsAndCustodians := by
  unfold Obligations.ApprovalsAndCustodians input
  intro s id c sl
  refine ⟨fun ha g n hg hn keep hk => ?_, rfl, fun ha st hb => ?_, fun ha hb hz h15 h1 h2 hnew => ?_,
      fun ha hb hz => ⟨fun hl => ?_, fun hl hp => ?_, fun hl hp => ?_⟩,
    fun ha hb hz => ⟨fun hm => ?_, fun hm => ?_⟩, fun k => ?_⟩
  · subst hg hn hk
    exact (execOp_atStep ha).trans rfl
  · refine (execOp_atStep ha).trans ?_
    dsimp only at hb ⊢
    rw [hb]
  · refine (execOp_atStep ha).trans ?_
    dsimp only at hb h15 h1 h2 hnew ⊢
    rw [hb]
    dsimp only
    rw [if_neg (by simp [hz]), if_neg (by simp only [hnew, Bool.or_false, Bool.or_eq_true, decide_eq_true_eq]; omega)]
  · refine (execOp_atStep ha).trans ?_
    dsimp only
    rw [withQuorum_good hb, if_neg (by simp [hz]), if_pos hl]
  · refine (execOp_atStep ha).trans ?_
    dsimp only
    rw [withQuorum_good hb, if_neg (by simp [hz]), if_neg hl, if_pos hp]
  · refine (execOp_atStep ha).trans ?_
    dsimp only
    rw [withQuorum_good hb, if_neg (by simp [hz]), if_neg hl, if_neg (by exact Bool.eq_false_iff.mp hp)]
  · refine (execOp_atStep ha).trans ?_
    dsimp only
    rw [withQuorum_good hb, if_neg (by simp [hz]), if_pos (by simpa using hm)]
  · refine (execOp_atStep ha).trans ?_
    dsimp only
    rw [withQuorum_good hb, if_neg (by simp [hz]), if_neg (by simpa using hm)]
  · exact congrArg Custody.nonces (custody_modCust_same s.dev k _)

/-- Settles O43. -/
theorem componentsAndMasterKeys : Obligations.ComponentsAndMasterKeys := by
  unfold Obligations.ComponentsAndMasterKeys input
  intro s id c sl
  refine ⟨fun ha hp x hx hz hk ht h2 h8 => ⟨fun hc => ?_, fun hc => ?_⟩,
    fun ha hp q hq => ⟨fun st hb => ?_, fun x r n ss comp hb hc hone hr hn h1 hcnt hlen h3 h7 hopen hclk hkcv hparts => ?_⟩,
    fun ha hp q hq hb => ⟨fun hc => ?_, fun x r e hc hcnt hr he hk mat hm => ?_⟩, fun ha hp => ?_, fun x hx => ?_,
    fun ha hp q hq hb => ⟨fun hs => ?_, fun hs hfull => ?_, fun hs hroom n hn => ?_⟩, fun ha hp n j o hs hj hlen ho h hh => ?_,
    fun ha hp => ⟨fun hs => ?_, fun n hs => ?_⟩, fun ha hp => ?_,
    fun ha => ⟨fun hu => ?_, fun hu ho => ?_, fun x hu ho reg pol q hreg hpol hq hb => ?_⟩,
    fun ha q hq hb hd he h19 h1 z hz body hbody hdr hhdr e henv => ?_⟩
  · subst hx
    refine (execPhase_atStep ha hp).trans ?_
    dsimp only
    rw [if_neg (by simp [hz]), hk]
    dsimp only
    rw [if_neg (by simp only [ht, Bool.not_true, Bool.false_or, Bool.or_eq_true, decide_eq_true_eq]; omega), if_pos hc]
  · subst hx
    refine (execPhase_atStep ha hp).trans ?_
    dsimp only
    rw [if_neg (by simp [hz]), hk]
    dsimp only
    rw [if_neg (by simp only [ht, Bool.not_true, Bool.false_or, Bool.or_eq_true, decide_eq_true_eq]; omega), if_neg (by simp [hc])]
  · subst hq
    refine (execPhase_atStep ha hp).trans ?_
    dsimp only at hb ⊢
    rw [hb]
  · subst hq hr hn
    refine (execPhase_atStep ha hp).trans ?_
    obtain ⟨hss, hcomp⟩ := hopen
    rw [← hclk] at hss ⊢
    dsimp only at hb hc hone h1 hcnt hlen h3 h7 hss hcomp hkcv hparts ⊢
    rw [hb, hc]
    dsimp only
    have hused : (x.parts.any (fun p => p.1 == field (inp s.mem s.dev c 0) 1 1 || p.2.1 == field (inp s.mem s.dev c 0) 0 1)) = false := by
      simpa using hparts
    have hform : (decide (field (inp s.mem s.dev c 0) 1 1 < 1) || decide (x.count < field (inp s.mem s.dev c 0) 1 1)
        || field (inp s.mem s.dev c 0) 2 1 != ((typeLens (reqOf x.kar).typ (reqOf x.kar).sub).getD (0, 0)).1
        || field (inp s.mem s.dev c 0) 3 1 != 0 || field (inp s.mem s.dev c 0) 7 1 != 0) = false := by
      simp [hlen, h3, h7]
      omega
    simp only [hone, hform, hss, hcomp, hkcv, hused, Option.bind_some, beq_self_eq_true, bne_self_eq_false, Bool.not_true, Bool.false_eq_true,
      if_false]
    rfl
  · subst hq
    refine (execPhase_atStep ha hp).trans ?_
    dsimp only
    rw [withQuorum_good hb, hc]
  · subst hq hr he hm
    refine (execPhase_atStep ha hp).trans ?_
    dsimp only
    rw [withQuorum_good hb, hc]
    dsimp only
    rw [if_neg (Nat.not_lt.mpr hcnt), hk]
  · exact (execPhase_atStep ha hp).trans rfl
  · show execComponentSessionTimeout sl s = _
    simp only [execComponentSessionTimeout, onDev_eq, hx]
  · subst hq
    refine (execPhase_atStep ha hp).trans ?_
    dsimp only
    rw [withQuorum_good hb, if_pos hs]
  · subst hq
    refine (execPhase_atStep ha hp).trans ?_
    dsimp only
    rw [withQuorum_good hb, if_neg (by simp [hs]), if_pos hfull]
  · subst hq hn
    refine (execPhase_atStep ha hp).trans ?_
    dsimp only
    rw [withQuorum_good hb, if_neg (by simp [hs]), if_neg (Nat.not_le.mpr hroom)]
  · subst hh
    refine (execPhase_atStep ha hp).trans ?_
    dsimp only at hs hlen ho ⊢
    rw [hs]
    dsimp only
    rw [find_blobLen hj hlen]
    dsimp only
    rw [ho]
  · refine (execPhase_atStep ha hp).trans ?_
    simp [hs]
  · refine (execPhase_atStep ha hp).trans ?_
    simp [hs]
  · exact (execPhase_atStep ha hp).trans rfl
  · refine (execOp_atStep ha).trans ?_
    simp [hu]
  · refine (execOp_atStep ha).trans ?_
    simp [hu, ho]
  · subst hreg hpol hq
    refine (execOp_atStep ha).trans ?_
    simp only [hu, ho, hb, bne_self_eq_false, Bool.false_eq_true, if_false]
  · subst hq hbody hhdr henv
    refine (execOp_atStep ha).trans ?_
    dsimp only at hb hd he h19 h1 hz ⊢
    rw [withQuorum_good hb, if_neg (by simp [hd, he, h19, h1]), hz]
    dsimp only
    rw [List.drop_left]
    simp only [List.append_assoc]

end Sys2Proof.Machine
end

section
/-!
SUPPORT. Audit rings and the end of a slice's custody (R387 to R393 [13]).
-/
namespace Sys2Proof.Machine

theorem custody_hostWrite (s slot a : Nat) (b : Bytes) (d : Dev) (k : Nat) : (hostWrite s slot a b d).custody k = d.custody k :=
  hostWrite_keeps (fun e : Dev => e.custody k) d s slot a b

/-- Publishing the head changes no property of a ring that the head is not part of. -/
theorem audit_auditPublish {α : Type} (f : AuditRing → α) (h : ∀ (r : AuditRing) n, f { r with head := n } = f r) (k : Nat) (d : Dev) :
    f ((auditPublish k d).custody k).audit = f (d.custody k).audit := by
  unfold auditPublish
  dsimp only
  split
  · rw [custody_hostWrite, custody_modCust_same]
    exact h _ _
  · rfl

/-- A record that is made takes the next SEQ and the next chain value, whether it is placed or held. -/
theorem audit_auditMake {α : Type} (f : AuditRing → α) (h : ∀ (r : AuditRing) n l, f { r with head := n, heldRecs := l } = f r) (k : Nat)
    (b : AuditBody) (d : Dev) :
    f ((auditMake k b d).custody k).audit = f { (d.custody k).audit with
      next := (d.custody k).audit.next + 1
      chain := chainNext (d.custody k).audit.chain (auditBytes (d.custody k).audit.next d.devTime b)
      sinceSeal := if b.kind = 4 then 0 else (d.custody k).audit.sinceSeal + 1 } := by
  unfold auditMake
  dsimp only
  split
  · rw [audit_auditPublish f fun r n => h r n r.heldRecs, auditPlace, custody_hostWrite, custody_modCust_same]
  · rw [custody_modCust_same]
    exact h { (d.custody k).audit with
      next := (d.custody k).audit.next + 1
      chain := chainNext (d.custody k).audit.chain (auditBytes (d.custody k).audit.next d.devTime b)
      sinceSeal := if b.kind = 4 then 0 else (d.custody k).audit.sinceSeal + 1 } (d.custody k).audit.head _

/-- No command of the slice came before it. -/
theorem none_earlier {l : List Cmd} {k id : Nat} (h : ∀ e ∈ l, e.slice = k → id ≤ e.id) :
    l.any (fun e => e.slice == k && decide (e.id < id)) = false := by
  simpa using h

/-- Settles O44. -/
theorem auditRings : Obligations.AuditRings := by
  unfold Obligations.AuditRings input
  intro s id c sl
  refine ⟨fun ha hp hz1 hz2 hb hd1 hd2 hh hs hn1 hn2 hslot => ?_, fun ha hp => ⟨fun hr => ?_, fun hr => ?_⟩, fun ha => ?_, rfl, fun ho => ?_,
    fun n no rec64 key rest ho hc hd a e hae hee => ?_, fun ha q hq hb a hae => ?_, fun k body => ⟨?_, ?_⟩, fun ha hst q hq hb o ho => ?_,
    fun hc hop hst => ⟨fun hex => ?_, fun hall hdec hroom => ?_, fun hall hdec howed => ?_⟩⟩
  · have hslot' : (c.slice != 0 && (decide (3 < field (inp s.mem s.dev c 0) 12 1)
        || !(s.dev.pslot c.slice (field (inp s.mem s.dev c 0) 12 1)).valid)) = false := by
      by_cases h0 : c.slice = 0
      · simp [h0]
      · obtain ⟨h3, hv⟩ := hslot h0
        simp [h3, hv]
    refine ⟨fun hr => (execPhase_atStep ha hp).trans ?_, fun hr => (execPhase_atStep ha hp).trans ?_⟩
    · simp [hz1, hz2, hb, Nat.not_lt.mpr hd1, Nat.not_lt.mpr hd2, hh, hs, Nat.not_lt.mpr hn2, hslot', hr, Nat.one_le_iff_ne_zero.mp hn1]
    · simp [hz1, hz2, hb, Nat.not_lt.mpr hd1, Nat.not_lt.mpr hd2, hh, hs, Nat.not_lt.mpr hn2, hslot', hr, Nat.one_le_iff_ne_zero.mp hn1]
  · refine (execPhase_atStep ha hp).trans ?_
    simp [hr]
  · refine (execPhase_atStep ha hp).trans ?_
    simp [Nat.not_lt.mpr hr]
  · exact (execOp_atStep ha).trans rfl
  · show execAuditSealSigned sl s = _
    simp only [execAuditSealSigned, onDev_eq, ho]
  · subst hae hee
    show execAuditSealSigned sl s = _
    simp only [execAuditSealSigned, onDev_eq, ho, hc, hd, Bool.not_true, Bool.or_self, Bool.false_eq_true, if_false]
  · subst hq hae
    refine (execOp_atStep ha).trans ?_
    dsimp only
    rw [withQuorum_good hb]
  · exact audit_auditMake (·.next) (fun _ _ _ => rfl) k body s.dev
  · exact audit_auditMake (·.chain) (fun _ _ _ => rfl) k body s.dev
  · subst hq ho
    show execSliceDecommission id s = _
    have hc : findCmd s.dev id = some c := ha.1
    have hnot : (c.op == .sliceDecommission && c.stage == .waiting) = false := by simp [hst]
    simp only [execSliceDecommission, onDevM_eq, hc, hnot, Bool.false_eq_true, if_false, runCmd_atStep ha, withQuorum_good hb]
  · show execSliceDecommission id s = _
    have hany : s.dev.cmds.any (fun e => e.slice == c.slice && decide (e.id < id)) = true := by simpa using hex
    simp only [execSliceDecommission, onDevM_eq, hc, hop, hst, hany, beq_self_eq_true, Bool.and_self, if_true]
  · show execSliceDecommission id s = _
    have hfull : ((s.dev.custody c.slice).audit.configured && decide ((s.dev.custody c.slice).audit.room = 0)) = false := by
      rcases hroom with h | h <;> simp [h]
    simp only [execSliceDecommission, onDevM_eq, hc, hop, hst, none_earlier hall, hdec, hfull, beq_self_eq_true, Bool.and_self,
      Bool.false_eq_true, if_true, if_false]
  · show execSliceDecommission id s = _
    have hwait : ((s.dev.custody c.slice).audit.configured && !(s.dev.custody c.slice).audit.owed.isEmpty) = false := by
      rcases howed with h | h <;> simp [h]
    have hdone : (s.dev.slice c.slice).decom ≠ some (id, false) := by simp [hdec]
    simp only [execSliceDecommission, onDevM_eq, hc, hop, hst, none_earlier hall, hdone, hwait, beq_self_eq_true, Bool.and_self,
      Bool.false_eq_true, if_true, if_false]

end Sys2Proof.Machine
end

section
/-!
SUPPORT. The key commands and the management of keys (R155 to R177 [05]).
-/
namespace Sys2Proof.Machine

/-- The material of a symmetric key is random bytes of its length (R158). -/
theorem newMaterial_of_sym (c : Cmd) {t : Nat} (s : Nat) (d : Dev) (h : isAsym t = false) :
    newMaterial c t s d = draw ((typeLens t s).getD (0, 0)).1 d := by
  have ht : t < 0x10 ∨ 0x5F < t := by simp [isAsym] at h; omega
  have hrsa : ¬ t = 0x48 := by omega
  have hec : (decide (0x50 ≤ t) && decide (t ≤ 0x5B)) = false := by simp; omega
  have hmce : isMce t = false := by simp [isMce]; omega
  simp [newMaterial, hrsa, hec, hmce, h]

/-- An entry that is not ACTIVE stays as it is (R164). -/
theorem drainEnt_of_not_active {i : Nat} {d : Dev} (h : (d.ent i).st ≠ .active) : drainEnt i d = d := if_neg h

theorem ent_drainEnt_same {i : Nat} {d : Dev} (h : (d.ent i).st = .active) :
    (drainEnt i d).ent i = { d.ent i with st := .draining, gen := stepGen (d.ent i).gen } := by
  rw [drainEnt, if_pos h]
  exact ent_setEnt_same i _ d

theorem ent_drainEnt_other {i j : Nat} {d : Dev} (h : j ≠ i) : (drainEnt i d).ent j = d.ent j := by
  unfold drainEnt
  dsimp only
  split
  · exact ent_setEnt_other _ d h
  · rfl

section
variable {id : Nat} {c : Cmd} {d : Dev} {k : KeyRes} (hk : c.keys.head? = some k)
include hk

/-- A management command on a mirrored key is refused (R174). -/
theorem onEntry_mirrored (hm : (d.ent k.idx).has fMirrored = true) (f : Nat → Entry → Dev) :
    onEntry id c d f = failWith .policyRefused id d := by
  simp only [onEntry, hk, hm, if_true]

/-- On one that is not mirrored it does its work on the entry. -/
theorem onEntry_own (hm : (d.ent k.idx).has fMirrored = false) (f : Nat → Entry → Dev) : onEntry id c d f = f k.idx (d.ent k.idx) := by
  simp only [onEntry, hk, hm, Bool.false_eq_true, if_false]

end

/-- The block answers one state where the devices agree. -/
theorem next_dev_congr {s : State} {d e : Dev} (h : d = e) : (Host.Outcome.next { s with dev := d } : Out) = .next { s with dev := e } := h ▸ rfl

/-- A sealed entry, spelt out (R168). -/
theorem sealEntry_eq (d : Dev) (e : Entry) (version cls : Nat) (k : Bytes) :
    sealEntry d e version cls k = (entryHdr d e version cls).bytes ++
      sivSeal (kmac256 k ((entryHdr d e version cls).bytes.take 8) 64 (if version = 2 then "ORNATH-XPORT" else "ORNATH-WRAP"))
        (entryHdr d e version cls).bytes (fit (classArea cls) e.material) := by
  by_cases h : version = 2 <;> simp [sealEntry, wrapKey, h]

/-- What KEY_DERIVE is not refused for (R152, R160). -/
theorem deriveRefusal_of {d : Dev} {c : Cmd} {kar : Bytes} (hk : karCheck d kar false = none) (ht : (reqOf kar).typ ≤ 6)
    (hmay : ∀ u, u = uEXPORTBLOB ∨ u = uEXPORTWRAPPED → bit (reqOf kar).usage u = true → (c.key 0).any (fun e => e.may u) = true) :
    deriveRefusal d c kar = if tooDeep c 0 then some .policyRefused
      else if !roomLeft d c (unitsFor (reqOf kar).typ (reqOf kar).sub false) then some .resourceQuota else none := by
  have may (u : Nat) (hu : u = uEXPORTBLOB ∨ u = uEXPORTWRAPPED) :
      (!bit (reqOf kar).usage u || ((c.key 0).map (fun e => e.may u)).getD false) = true := by
    cases hb : bit (reqOf kar).usage u with
    | false => rfl
    | true =>
      have := hmay u hu hb
      cases h0 : c.key 0 <;> simp_all
  have hform : (decide ((reqOf kar).typ > 6) || !(!bit (reqOf kar).usage uEXPORTBLOB || ((c.key 0).map (fun e => e.may uEXPORTBLOB)).getD false)
      || !(!bit (reqOf kar).usage uEXPORTWRAPPED || ((c.key 0).map (fun e => e.may uEXPORTWRAPPED)).getD false)) = false := by
    rw [may _ (.inl rfl), may _ (.inr rfl)]
    simpa using ht
  simp only [deriveRefusal, hk, hform, Bool.false_eq_true, if_false]

/-- Settles O46. -/
theorem keyCommandsAndManagement : Obligations.KeyCommandsAndManagement := by
  unfold Obligations.KeyCommandsAndManagement input
  refine ⟨fun s id c => ⟨fun ha => ⟨fun st hk => ?_, fun hk hs => ?_, fun hk hs => ⟨fun hr => ?_, fun hr g hg => ?_⟩⟩, fun ha => ?_, fun ha => ?_,
    fun version key child blob hbl po hpo hr => ⟨fun ho => ?_, fun o ho ht hsub hu hf hk hp htree => ?_⟩, fun ha e he => ?_, fun ha e he => ?_,
    fun e version cls k => sealEntry_eq s.dev e version cls k, fun ha e he => ⟨fun hc => ?_, fun hc => ?_⟩, fun ha k hk => ?_,
        fun ha hk ht hmay => ⟨fun hd => ?_, fun hd hr => ?_, fun hd hr n x hn hx => ⟨fun hp => ?_, fun hp => ?_, fun hp => ?_⟩⟩⟩,
    fun s id c k hk => ⟨fun hm => ⟨fun ha => ?_, fun ha => ?_, fun ha => ?_, fun ha => ?_⟩, fun ha hown => ?_,
        fun hact => ⟨?_, ?_, fun j hj => ent_drainEnt_other hj⟩, drainEnt_of_not_active,
      fun ha hown x n hx hn => ⟨fun hb => ?_, fun hb => ?_⟩, fun ha hown usage limit exp hu hl he => ⟨fun hbad => ?_, fun h1 h2 h3 h4 => ?_⟩,
      fun ha hown => ⟨fun hbad => ?_, fun h1 h2 h3 hroom => ?_, fun h1 h2 hroom hnd hpo g pub hg hpub => ?_,
          fun h1 h2 hroom hnd o ho ht hs hf => ?_⟩⟩⟩
  · refine (execOp_atStep ha).trans ?_
    simp [generateRefusal, hk]
  · refine (execOp_atStep ha).trans ?_
    simp [generateRefusal, hk, hs]
  · refine (execOp_atStep ha).trans ?_
    simp [generateRefusal, hk, hs, hr]
  · subst hg
    refine (execOp_atStep ha).trans ?_
    simp [generateRefusal, hk, hs, hr, newMaterial_of_sym c _ _ hs]
  · exact (execOp_atStep ha).trans rfl
  · exact (execOp_atStep ha).trans rfl
  · subst hbl hpo
    simp [importBlob, hr, ho]
  · subst hbl hpo
    have hkind : (reqOf (inp s.mem s.dev c 0)).flags.getLsbD 0 = bit (hdrOf (inp s.mem s.dev c 1)).flags 0 := hf
    have hpub : (decide (version = 3) && !pubOk (hdrOf (inp s.mem s.dev c 1)).typ (hdrOf (inp s.mem s.dev c 1)).sub o.pub) = false := by
      by_cases h3 : version = 3
      · simp [← ht, ← hsub, hp h3]
      · simp [h3]
    have htwin : (isTree (hdrOf (inp s.mem s.dev c 1)).typ && !(version == 3 || bit (hdrOf (inp s.mem s.dev c 1)).flags 3) && pubHeld s.dev o.pub) = false := by
      rw [ht] at htree
      cases htr : isTree (hdrOf (inp s.mem s.dev c 1)).typ with
      | false => rfl
      | true => rcases htree htr with h | h <;> simp only [h, Bool.not_true, Bool.and_false, Bool.false_and]
    rw [ht, hsub] at hr
    simp only [importBlob, hr, ho, ht, hsub, hu, hkind, hk, hpub, htwin, bne_self_eq_false, Bool.not_true, Bool.or_self, Bool.false_eq_true, if_false]
  · refine (execOp_atStep ha).trans ?_
    simp only [he]
    rfl
  · refine (execOp_atStep ha).trans ?_
    simp only [he]
  · refine (execOp_atStep ha).trans ?_
    simp [he, hc]
  · refine (execOp_atStep ha).trans ?_
    simp [he, hc]
  · refine (execOp_atStep ha).trans ?_
    simp [hk]
  · refine (execOp_atStep ha).trans ?_
    simp only [deriveRefusal_of hk ht hmay, hd, if_true]
  · refine (execOp_atStep ha).trans ?_
    simp only [deriveRefusal_of hk ht hmay, hd, hr, Bool.not_false, Bool.false_eq_true, if_false, if_true]
  · subst hn hx
    refine (execOp_atStep ha).trans ?_
    simp only [deriveRefusal_of hk ht hmay, hd, hr, hp, Bool.not_true, Bool.false_eq_true, if_false]
  · subst hn hx
    refine (execOp_atStep ha).trans ?_
    simp only [deriveRefusal_of hk ht hmay, hd, hr, hp, Bool.not_true, Bool.false_eq_true, if_false]
  · subst hn hx
    refine (execOp_atStep ha).trans ?_
    simp only [deriveRefusal_of hk ht hmay, hd, hr, hp, Bool.not_true, Bool.false_eq_true, if_false]
  · exact (execOp_atStep ha).trans (next_dev_congr (onEntry_mirrored hk hm _))
  · exact (execOp_atStep ha).trans (next_dev_congr (onEntry_mirrored hk hm _))
  · exact (execOp_atStep ha).trans (next_dev_congr (onEntry_mirrored hk hm _))
  · exact (execOp_atStep ha).trans (next_dev_congr (onEntry_mirrored hk hm _))
  · exact (execOp_atStep ha).trans (next_dev_congr (onEntry_own hk hown _))
  · rw [ent_drainEnt_same hact]
  · rw [ent_drainEnt_same hact]
    rfl
  · subst hx hn
    refine (execOp_atStep ha).trans (next_dev_congr ((onEntry_own hk hown _).trans ?_))
    simp [hb, answer, b2n]
  · subst hx hn
    refine (execOp_atStep ha).trans (next_dev_congr ((onEntry_own hk hown _).trans ?_))
    simp [hb, answer, b2n]
  · subst hu hl he
    refine (execOp_atStep ha).trans (next_dev_congr ((onEntry_own hk hown _).trans (if_pos ?_)))
    rcases hbad with h | h
    · rw [h]
      simp
    · simp [h]
  · subst hu hl he
    refine (execOp_atStep ha).trans (next_dev_congr ((onEntry_own hk hown _).trans (if_neg ?_)))
    simp only [h1, h2, bne_self_eq_false, Bool.false_or, Bool.or_eq_true, Bool.and_eq_true, bne_iff_ne, decide_eq_true_eq, ne_eq]
    rintro (⟨hl, hbad⟩ | ⟨⟨he, hx⟩, hgt⟩)
    · obtain ⟨hle, hmask⟩ := h3.resolve_left hl
      rcases hbad with ⟨hu, hgt⟩ | hu
      · exact absurd (hle.resolve_left hu) (by omega)
      · exact absurd hu (by simp [hmask])
    · exact absurd ((h4.resolve_left he).resolve_left hx) (by omega)
  · refine (execOp_atStep ha).trans (next_dev_congr ((onEntry_own hk hown _).trans ?_))
    have hrefuse : replaceRefusal s.dev c (s.dev.ent k.idx) = some .policyRefused := by
      unfold replaceRefusal
      exact if_pos (by simpa [hown, or_assoc] using hbad)
    simp only [hrefuse]
  · refine (execOp_atStep ha).trans (next_dev_congr ((onEntry_own hk hown _).trans ?_))
    have hrefuse : replaceRefusal s.dev c (s.dev.ent k.idx) = some .resourceQuota := by
      have hpo : (c.pkt.ndesc == 0 && (s.dev.ent k.idx).has fPublicOnly) = false := by
        by_cases hn : c.pkt.ndesc = 0
        · simp [h3 hn]
        · simp [hn]
      simp only [replaceRefusal, hown, h1, h2, hpo, hroom, Option.isSome_none, Bool.or_self, Bool.not_false, Bool.false_eq_true, if_false, if_true]
    simp only [hrefuse]
  · subst hg hpub
    refine (execOp_atStep ha).trans (next_dev_congr ((onEntry_own hk hown _).trans ?_))
    have hrefuse : replaceRefusal s.dev c (s.dev.ent k.idx) = none := by simp [replaceRefusal, hown, h1, h2, hroom, hnd, hpo]
    simp only [hrefuse, hnd, if_true]
  · refine (execOp_atStep ha).trans (next_dev_congr ((onEntry_own hk hown _).trans ?_))
    have hrefuse : replaceRefusal s.dev c (s.dev.ent k.idx) = none := by simp [replaceRefusal, hown, h1, h2, hroom, hnd]
    simp only [hrefuse, hnd, if_false, ho, ht, hs, hf, bne_self_eq_false, Bool.or_self, Bool.false_eq_true]

end Sys2Proof.Machine
end

section
/-!
SUPPORT. The commands of the Damask cores (R182 to R209 [06]).
-/
namespace Sys2Proof.Machine

/-- A public key that comes from the ledger is not checked again, and a supplied one that is sound is not refused (R189). -/
theorem not_refused {key ok : Bool} (h : key = true ∨ ok = true) : (!key && !ok) = false := by
  rcases h with h | h <;> simp [h]

/-- What is drawn is no input of a command. -/
@[simp] theorem Form.get_draw (f : Form) (m : Memory) (n : Nat) (d : Dev) (c : Cmd) (r : Role) :
    f.get m (draw n d).2 c r = f.get m d c r := rfl

/-- A signature of a lattice TYPE is released only when it verifies and was found in time (R197, R200). -/
theorem latSignCmd_eq {id t : Nat} {m : Memory} {c : Cmd} {d : Dev} {rnd rev str sig : Bytes} {mu : Bool}
    (hstr : str = signedStr c.pkt ((latForm c.pkt c.op).get m d c .ctx) ((latForm c.pkt c.op).get m d c .msg))
    (hmu : mu = (bits c.prm 4 3 == 2)) (hsig : sig = latSignBytes t mu (c.mat 0) str rnd) :
    (65535 < c.draws → latSignCmd id t m c d rnd rev = outcomeIs (answer .invariantFail [] (zeros 2 ++ rev)) id d) ∧
    (c.draws ≤ 65535 → latVerifyOk t mu (c.pub 0) str sig = false →
      latSignCmd id t m c d rnd rev = invariantFail .lattice id d (zeros 2 ++ rev)) ∧
    (c.draws ≤ 65535 → latVerifyOk t mu (c.pub 0) str sig = true →
      latSignCmd id t m c d rnd rev = outcomeIs (answer .ok ((latForm c.pkt c.op).put .sig sig) (leBytes 2 c.draws ++ rev)) id d) := by
  subst hstr hmu hsig
  refine ⟨fun h => if_pos h, fun h hv => (if_neg (Nat.not_lt.mpr h)).trans (if_pos ?_),
    fun h hv => (if_neg (Nat.not_lt.mpr h)).trans (if_neg ?_)⟩
  · rw [hv]
    rfl
  · rw [hv]
    exact Bool.false_ne_true

/-- An FN-DSA signature of another header byte never verifies (R200). -/
theorem latVerifyOk_of_head {t : Nat} (mu : Bool) (pk str : Bytes) {sig : Bytes} (ht : 0x18 ≤ t) (h : sig.head? ≠ some (fnHead t)) :
    latVerifyOk t mu pk str sig = false := by
  have hfmt : fnFormatOk t sig = false := by simp [fnFormatOk, h]
  rw [latVerifyOk, if_neg (by omega), hfmt, Bool.false_and]

section
variable {id : Nat} {c : Cmd} {d : Dev} {kar : Bytes} {typ sub b7 : Nat} {outs : Bytes → List (Nat × Bytes)} {bad : Outcome}
  (hc : findCmd d id = some c)
include hc

theorem genKey_of_refusal {st : Status} (h : genRefusal d c kar typ sub = some st) :
    genKey id kar typ sub b7 outs d bad = failWith st id d := by simp only [genKey, hc, h]

theorem genKey_of_ok (h : genRefusal d c kar typ sub = none) :
    genKey id kar typ sub b7 outs d bad = makeKey id (entryOf (reqOf kar) (newMaterial c typ sub d).1 (pubOfMat typ sub (newMaterial c typ sub d).1) false)
      (pairOk typ sub (reqOf kar).usage (newMaterial c typ sub d).1 (pubOfMat typ sub (newMaterial c typ sub d).1)) b7
      (outs (pubOfMat typ sub (newMaterial c typ sub d).1)) (newMaterial c typ sub d).2 bad := by simp only [genKey, hc, h]

end

/-- Settles O47. -/
theorem latticeCommands : Obligations.LatticeCommands := by
  unfold Obligations.LatticeCommands inRole
  intro s id c
  refine ⟨fun ha => (execOp_atStep ha).trans rfl, fun ha => (execOp_atStep ha).trans rfl, fun ha => (execOp_atStep ha).trans rfl,
    fun kar typ sub b7 outs bad hc => ⟨fun st hk => genKey_of_refusal hc (by simp [genRefusal, hk]), fun hk hts => genKey_of_refusal hc ?_,
      fun hk ht hs => ⟨fun hr => genKey_of_refusal hc (by simp [genRefusal, hk, ht, hs, hr]), fun hr g pub hg hp => ?_⟩⟩,
    fun ha hk ek hek => ⟨fun hkey hp => ?_, fun hp z hz => ?_⟩, fun ha hk => ?_, fun st hk => ⟨fun ha => ?_, fun ha => ?_⟩,
    fun par kar ss outs hc => ⟨?_, ?_, ?_⟩, fun str hstr mu hmu => ⟨fun ha g hg sig hsig => ?_, fun ha g hg sig hsig => ?_,
        fun pk hpk => ⟨fun ha hx => ?_, fun ha hkey hp => ?_, fun ha hp => ?_⟩⟩,
    fun t mu pk str sig ht hh => latVerifyOk_of_head mu pk str ht hh,
    fun h k hc n hh hhyb => ⟨fun ha hk ek pk e hek hpk he => ⟨fun hz => ?_, fun z w hz hp hw cc hcc => ?_⟩,
        fun ha hk cq cc hcq hcc => ⟨fun hz => ?_, fun z hz => ?_⟩⟩,
    fun t cc pn n hcomp str hstr rv hrv => ⟨fun ha r k hr hk s1 s2 hs1 hs2 hd => ⟨fun h1 => ?_, fun h1 h2 => ?_, fun h1 h2 => ?_⟩,
        fun ha p1 p2 hp1 hp2 hk2 hk1 ok1 ok2 ho1 ho2 => ?_⟩⟩
  · simp only [genRefusal, hk]
    exact if_pos (by simpa using hts)
  · subst hg hp
    exact genKey_of_ok hc (by simp [genRefusal, hk, ht, hs, hr])
  · subst hek
    refine (execOp_atStep ha).trans ?_
    simp only [hk]
    dsimp only at hp
    exact next_dev_congr (if_pos (by rw [hp, hkey]; rfl))
  · subst hek hz
    refine (execOp_atStep ha).trans ?_
    simp only [hk, not_refused hp, Bool.false_eq_true, if_false]
  · refine (execOp_atStep ha).trans ?_
    simp only [hk]
  · refine (execOp_atStep ha).trans ?_
    simp only [hk]
  · refine (execOp_atStep ha).trans ?_
    simp only [hk]
  · simp only [placeSecret, hc, if_true]
  · simp only [placeSecret, hc, Bool.false_eq_true, if_false]
  · simp only [placeSecret, hc, Bool.false_eq_true, if_false, if_true]
  · have hget (r : Role) : (latForm c.pkt c.op).get s.mem g.2 c r = (latForm c.pkt c.op).get s.mem s.dev c r := by
      subst hg
      split <;> rfl
    obtain ⟨hmany, hbad, hgood⟩ := latSignCmd_eq (id := id) (t := 0x14 + c.pkt.set2) (m := s.mem) (c := c) (d := g.2) (rnd := g.1) (rev := [])
      (by rw [hget, hget]; exact hstr) hmu hsig
    have hrun : exec (.mldsaSign id) s = .next { s with dev := latSignCmd id (0x14 + c.pkt.set2) s.mem c g.2 g.1 [] } := by
      rw [hg]
      exact (execOp_atStep ha).trans rfl
    exact ⟨fun h => hrun.trans (next_dev_congr (hmany h)), fun h hv => hrun.trans (next_dev_congr (hbad h hv)),
      fun h hv => hrun.trans (next_dev_congr ((hgood h hv).trans (by rw [List.append_nil])))⟩
  · subst hg
    obtain ⟨hmany, hbad, hgood⟩ := latSignCmd_eq (id := id) (t := 0x18 + c.pkt.set2) (m := s.mem) (c := c) (d := (draw 40 s.dev).2)
      (rnd := (draw 40 s.dev).1) (rev := leBytes 1 c.revs.1) hstr hmu hsig
    have hrun := execOp_atStep (f := fun m c d => latSignCmd id (0x18 + c.pkt.set2) m c (draw 40 d).2 (draw 40 d).1 (leBytes 1 c.revs.1)) ha
    exact ⟨fun h => hrun.trans (next_dev_congr (hmany h)), fun h hv => hrun.trans (next_dev_congr (hbad h hv)),
      fun h hv => hrun.trans (next_dev_congr (hgood h hv))⟩
  · subst hpk hstr hmu
    refine (execOp_atStep ha).trans ?_
    have hlow : (!c.pkt.hasKey 0 && decide (0x18 ≤ 0x14 + c.pkt.set2)) = false := by simp; omega
    simp only [latVerifyCmd, hlow, Bool.false_and, Bool.false_eq_true, if_false]
    rfl
  · subst hpk
    refine (execOp_atStep ha).trans ?_
    have hbad : (!c.pkt.hasKey 0 && decide (0x18 ≤ 0x18 + c.pkt.set2)) = true := by simp [hkey]
    dsimp only at hp ⊢
    simp only [latVerifyCmd, hbad, hp, Bool.not_false, Bool.and_self, if_true]
    rfl
  · subst hpk hstr hmu
    refine (execOp_atStep ha).trans ?_
    have hgood := not_refused hp
    have hbad : (!c.pkt.hasKey 0 && decide (0x18 ≤ 0x18 + c.pkt.set2)) = !c.pkt.hasKey 0 := by simp
    simp only [latVerifyCmd, hbad, hgood, Bool.false_eq_true, if_false]
    rfl
  · subst hh hek hpk he
    refine (execOp_atStep ha).trans ?_
    simp only [hk, hhyb, hz]
  · subst hh hek hpk he hw hcc
    refine (execOp_atStep ha).trans ?_
    simp only [hk, hhyb, hz, not_refused hp, Bool.false_eq_true, if_false]
  · subst hh hcq hcc
    refine (execOp_atStep ha).trans ?_
    simp only [hk, hhyb, hz]
  · subst hh hcq hcc
    refine (execOp_atStep ha).trans ?_
    simp only [hk, hhyb, hz]
  · subst hstr hrv hr hk hs1 hs2
    refine (execOp_atStep ha).trans ?_
    simp only [hcomp]
    exact next_dev_congr ((if_neg (Nat.not_lt.mpr hd)).trans (if_pos (by simpa using h1)))
  · subst hstr hrv hr hk hs1 hs2
    refine (execOp_atStep ha).trans ?_
    simp only [hcomp]
    exact next_dev_congr ((if_neg (Nat.not_lt.mpr hd)).trans ((if_neg (by simpa using h1)).trans (if_pos (by simpa using h2))))
  · subst hstr hrv hr hk hs1 hs2
    refine (execOp_atStep ha).trans ?_
    simp only [hcomp]
    exact next_dev_congr ((if_neg (Nat.not_lt.mpr hd)).trans ((if_neg (by simpa using h1)).trans (if_neg (by simpa using h2))))
  · subst hstr hrv hp1 hp2 ho1 ho2
    refine (execOp_atStep ha).trans ?_
    have hgood : (!c.pkt.hasKey 0 && decide (0x18 ≤ t) && !pubOk t 0 (if c.pkt.hasKey 0 = true then c.pub 0 else (latForm c.pkt c.op).get s.mem s.dev c .ek)) = false := by
      rcases hk1 with h | h | h
      · simp [h]
      · simp; omega
      · simp [h]
    simp only [hcomp, not_refused hk2, hgood, Bool.or_self, Bool.false_eq_true, if_false]
    rfl

end Sys2Proof.Machine
end

section
/-!
SUPPORT. The commands of the Tweed engines and the Serge cores (R240 to R282 [08, 09]).
-/
namespace Sys2Proof.Machine

theorem codeType_hqc {o : Op} (h : isHqc o = true) (n : Nat) : codeType o n = 0x38 + n := by rw [codeType, if_pos h]

theorem codeType_mce {o : Op} (h : isHqc o = false) (n : Nat) : codeType o n = 0x3C + n := by rw [codeType, if_neg (by simp [h])]

theorem codeSub_hqc {o : Op} (h : isHqc o = true) : codeSub o = 0x75 := by rw [codeSub, if_pos h]

theorem codeSub_mce {o : Op} (h : isHqc o = false) : codeSub o = 0x34 := by rw [codeSub, if_neg (by simp [h])]

theorem codeCt_hqc {o : Op} (h : isHqc o = true) (n : Nat) : codeCt o n = [4433, 8978, 14421].getD n 0 := by rw [codeCt, if_pos h, tab]

theorem codeCt_mce {o : Op} (h : isHqc o = false) (n : Nat) : codeCt o n = [96, 156, 208, 194, 208].getD n 0 := by
  rw [codeCt, if_neg (by simp [h]), tab]

theorem isHqc_hqc {o : Op} (h : o = .hqcKeygen ∨ o = .hqcEncaps ∨ o = .hqcDecaps) : isHqc o = true := by
  rcases h with rfl | rfl | rfl <;> rfl

theorem isHqc_mce {o : Op} (h : o = .mceKeygen ∨ o = .mceEncaps ∨ o = .mceDecaps) : isHqc o = false := by
  rcases h with rfl | rfl | rfl <;> rfl

section
variable {id : Nat} {m : Memory} {c : Cmd} {d : Dev}

/-- An encapsulation to a sound key places its secret, of Classic McEliece when the standard's encapsulation succeeds (R249, R255). -/
theorem codeEncaps_places {ek : Bytes} {n : Nat} (hk : secretKar d c c.pkt.css false (codeSub c.op) ((codeForm c.pkt c.op).get m d c .kar) = none)
    (hcomp : companionFails d c = false) (hek : ek = if c.pkt.hasKey 0 then c.pub 0 else (codeForm c.pkt c.op).get m d c .ek)
    (hp : pubOk (codeType c.op c.pkt.set3) 0 ek = true) (hn : n = codeCt c.op c.pkt.set3)
    (hok : isHqc c.op = true ∨ Config.stdOk (if isHqc c.op then .hqcEncaps else .mceEncaps) [c.pkt.set3] [ek, (draw 64 d).1] = true) :
    codeEncaps id m c d =
      let w := std (if isHqc c.op then .hqcEncaps else .mceEncaps) (n + codeSs c.op) (codeParams c) [ek, (draw 64 d).1]
      placeSecret id (codeForm c.pkt c.op) c.pkt.css false ((codeForm c.pkt c.op).get m d c .kar) (w.drop n)
        ((codeForm c.pkt c.op).put .ct (w.take n)) (draw 64 d).2 := by
  subst hek hn
  simp only [codeEncaps, hk, hcomp, hp, not_refused hok, Bool.not_true, Bool.and_false, Bool.false_eq_true, if_false]

/-- A supplied key that is not sound is refused. -/
theorem codeEncaps_refuses (hk : secretKar d c c.pkt.css false (codeSub c.op) ((codeForm c.pkt c.op).get m d c .kar) = none)
    (hcomp : companionFails d c = false) (hkey : c.pkt.hasKey 0 = false)
    (hp : pubOk (codeType c.op c.pkt.set3) 0 ((codeForm c.pkt c.op).get m d c .ek) = false) :
    codeEncaps id m c d = failWith .inputInvalid id d := by
  simp only [codeEncaps, hk, hcomp, hkey, hp, Bool.not_false, Bool.true_or, Bool.and_self, Bool.false_eq_true, if_false, if_true]

/-- A decapsulation places its secret whatever the ciphertext (R256). -/
theorem codeDecaps_places (hk : secretKar d c c.pkt.css true (codeSub c.op) ((codeForm c.pkt c.op).get m d c .kar) = none)
    (hcomp : companionFails d c = false) : codeDecaps id m c d =
      placeSecret id (codeForm c.pkt c.op) c.pkt.css true ((codeForm c.pkt c.op).get m d c .kar)
        (codeSecret c ((codeForm c.pkt c.op).get m d c .ct)) [] d := by
  simp only [codeDecaps, hk, hcomp, Bool.false_eq_true, if_false]

/-- A key agreement whose request stands, by what the two keys agree on (R276). -/
theorem agreeCmd_eq (hk : c.pkt.css = true ∨ agreeKar d c ((ecForm c.pkt c.op).get m d c .kar) = none) :
    (agree c.pkt.curve (c.mat 0) ((ecForm c.pkt c.op).get m d c .peer) = none → agreeCmd id m c d = failWith .inputInvalid id d) ∧
    ∀ z, agree c.pkt.curve (c.mat 0) ((ecForm c.pkt c.op).get m d c .peer) = some z →
      Config.stdOk .ecdh [c.pkt.curve] [c.mat 0, (ecForm c.pkt c.op).get m d c .peer] = true →
      agreeCmd id m c d = placeSecret id (ecForm c.pkt c.op) c.pkt.css true ((ecForm c.pkt c.op).get m d c .kar)
        (if c.pkt.css then z else kmac256 (zeros 132) (z ++ (ecForm c.pkt c.op).get m d c .info)
          ((typeLens 6 (reqOf ((ecForm c.pkt c.op).get m d c .kar)).sub).getD (0, 0)).1 "KDF") [] d := by
  have hkar : (if c.pkt.css then none else agreeKar d c ((ecForm c.pkt c.op).get m d c .kar)) = none := by
    rcases hk with h | h <;> simp [h]
  refine ⟨fun ha => ?_, fun z ha hok => ?_⟩
  · simp only [agreeCmd, hkar, ha]
  · simp only [agreeCmd, hkar, ha, hok, Bool.not_true, Bool.false_eq_true, if_false]

end

/-- The supplied or the stored public key, as a public operation picks it. -/
theorem pick_pub {b : Bool} {x y : Bytes} : (if !b then x else y) = if b then y else x := by cases b <;> rfl

/-- Settles O48. -/
theorem codeAndClassicalCommands : Obligations.CodeAndClassicalCommands := by
  unfold Obligations.CodeAndClassicalCommands inRole
  intro s id c
  refine ⟨fun ha => ?_, fun ha => ⟨fun hd => ?_, fun hd => ?_⟩, fun ek hek g hg hcomp =>
      ⟨fun ha hk hp n hn w hw => ?_, fun ha hk hp hok n hn w hw => ?_, fun ha hkey hk hp => ?_, fun ha hkey hk hp => ?_⟩,
    fun hcomp => ⟨fun ha hk real hr => ?_, fun ha hk real hr => ?_⟩, fun ha => ⟨fun hd => ?_, fun hd => ?_⟩, fun ha g em sig hg hem hsig => ?_,
    fun pk hpk => ⟨fun ha hbad => ?_, fun ha hp hr => ?_, fun ha hp => ?_, fun ha hp g em hg hem => ?_⟩,
    fun ha em hem args hargs => ⟨fun hr => ?_, fun hr hne => ?_, fun hr he => ⟨fun hok => ?_, fun hok h2 => ?_, fun hok h2 => ?_⟩⟩,
        fun ha => (execOp_atStep ha).trans rfl,
    fun ha g sig hg hsig => ?_, fun ha sig hsig => ?_,
    fun pk hpk => ⟨fun hkey hp => ⟨fun ha => ?_, fun ha => ?_⟩, fun hp => ⟨fun ha => ?_, fun ha => ?_⟩⟩,
    fun hk => ⟨fun hz => ⟨fun ha => ?_, fun ha => ?_⟩, fun z hz hok n ss hn hss => ⟨fun ha => ?_, fun ha => ?_⟩⟩⟩
  · refine (execOp_atStep ha).trans ?_
    simp only [codeType_hqc (isHqc_hqc (.inl ha.2.1))]
  · refine (execOp_atStep ha).trans ?_
    exact next_dev_congr (if_pos hd)
  · refine (execOp_atStep ha).trans (next_dev_congr ((if_neg (Nat.not_lt.mpr hd)).trans ?_))
    simp only [codeType_mce (isHqc_mce (.inl ha.2.1))]
  · have hq := isHqc_hqc (.inr (.inl ha.2.1))
    subst hg hw
    refine (execOp_atStep ha).trans (next_dev_congr ?_)
    rw [codeEncaps_places (n := n) (by rw [codeSub_hqc hq]; exact hk) hcomp hek (by rw [codeType_hqc hq]; exact hp) (by rw [codeCt_hqc hq]; exact hn) (.inl hq)]
    simp only [hq, codeSs, codeParams, if_true]
  · have hq := isHqc_mce (.inr (.inl ha.2.1))
    subst hg hw
    refine (execOp_atStep ha).trans (next_dev_congr ?_)
    rw [codeEncaps_places (n := n) (by rw [codeSub_mce hq]; exact hk) hcomp hek (by rw [codeType_mce hq]; exact hp) (by rw [codeCt_mce hq]; exact hn)
      (.inr (by rw [hq]; exact hok))]
    simp only [hq, codeSs, codeParams, Bool.false_eq_true, if_false]
  · have hq := isHqc_mce (.inr (.inl ha.2.1))
    rw [hek, if_neg (by simp [hkey])] at hp
    exact (execOp_atStep ha).trans (next_dev_congr
      (codeEncaps_refuses (by rw [codeSub_mce hq]; exact hk) hcomp hkey (by rw [codeType_mce hq]; exact hp)))
  · have hq := isHqc_hqc (.inr (.inl ha.2.1))
    rw [hek, if_neg (by simp [hkey])] at hp
    exact (execOp_atStep ha).trans (next_dev_congr
      (codeEncaps_refuses (by rw [codeSub_hqc hq]; exact hk) hcomp hkey (by rw [codeType_hqc hq]; exact hp)))
  · have hq := isHqc_hqc (.inr (.inr ha.2.1))
    subst hr
    refine (execOp_atStep ha).trans (next_dev_congr ?_)
    rw [codeDecaps_places (by rw [codeSub_hqc hq]; exact hk) hcomp]
    simp only [codeSecret, hq, codeSs, codeParams, ctPadOk, Bool.true_or, Bool.true_and, if_true]
  · have hq := isHqc_mce (.inr (.inr ha.2.1))
    subst hr
    refine (execOp_atStep ha).trans (next_dev_congr ?_)
    rw [codeDecaps_places (by rw [codeSub_mce hq]; exact hk) hcomp]
    simp only [codeSecret, hq, codeSs, codeParams, ctPadOk, Bool.false_or, Bool.false_eq_true, if_false]
  · refine (execOp_atStep ha).trans (next_dev_congr (if_pos hd))
  · refine (execOp_atStep ha).trans (next_dev_congr (if_neg (Nat.not_le.mpr hd)))
  · subst hg hem hsig
    refine (execOp_atStep ha).trans ?_
    simp only [beq_iff_eq]
    rfl
  · subst hpk
    refine (execOp_atStep ha).trans ?_
    simp only [pick_pub]
    exact next_dev_congr (if_pos (by simpa using hbad))
  · subst hpk
    refine (execOp_atStep ha).trans ?_
    simp only [pick_pub]
    exact next_dev_congr (if_neg (by simpa using ⟨hp, hr⟩))
  · subst hpk
    refine (execOp_atStep ha).trans ?_
    simp only [pick_pub]
    exact next_dev_congr (if_pos hp)
  · subst hpk hg hem
    refine (execOp_atStep ha).trans ?_
    simp only [pick_pub]
    exact next_dev_congr (if_neg (by simpa using hp))
  · subst hem hargs
    refine (execOp_atStep ha).trans (next_dev_congr (if_pos hr))
  · subst hem hargs
    refine (execOp_atStep ha).trans (next_dev_congr ((if_neg (by simpa using hr)).trans (if_pos (by simpa using hne))))
  · subst hem hargs
    refine (execOp_atStep ha).trans (next_dev_congr ((if_neg (by simpa using hr)).trans ((if_neg (by simpa using he)).trans (if_pos hok))))
  · subst hem hargs
    refine (execOp_atStep ha).trans (next_dev_congr ((if_neg (by simpa using hr)).trans ((if_neg (by simpa using he)).trans
      ((if_neg (by simpa using hok)).trans (if_pos h2)))))
  · subst hem hargs
    refine (execOp_atStep ha).trans (next_dev_congr ((if_neg (by simpa using hr)).trans ((if_neg (by simpa using he)).trans
      ((if_neg (by simpa using hok)).trans (if_neg h2)))))
  · by_cases hb : bit c.prm 4 = true
    · rw [if_pos hb] at hg
      subst hg hsig
      refine (execOp_atStep ha).trans ?_
      simp only [if_pos hb]
      rfl
    · rw [if_neg hb] at hg
      subst hg hsig
      refine (execOp_atStep ha).trans ?_
      simp only [if_neg hb]
      rfl
  · subst hsig
    exact (execOp_atStep ha).trans rfl
  · subst hpk
    rw [if_neg (by simp [hkey])] at hp
    refine (execOp_atStep ha).trans ?_
    simp only [hkey, Bool.false_eq_true, if_false]
    exact next_dev_congr (if_pos (by rw [hp]; rfl))
  · subst hpk
    rw [if_neg (by simp [hkey])] at hp
    refine (execOp_atStep ha).trans ?_
    simp only [hkey, Bool.false_eq_true, if_false]
    exact next_dev_congr (if_pos (by rw [hp]; rfl))
  · subst hpk
    refine (execOp_atStep ha).trans (next_dev_congr (if_neg ?_))
    rw [not_refused hp]
    exact Bool.false_ne_true
  · subst hpk
    refine (execOp_atStep ha).trans (next_dev_congr (if_neg ?_))
    rw [not_refused hp]
    exact Bool.false_ne_true
  · exact (execOp_atStep ha).trans (next_dev_congr ((agreeCmd_eq hk).1 hz))
  · exact (execOp_atStep ha).trans (next_dev_congr ((agreeCmd_eq hk).1 hz))
  · subst hn hss
    exact (execOp_atStep ha).trans (next_dev_congr ((agreeCmd_eq hk).2 z hz hok))
  · subst hn hss
    exact (execOp_atStep ha).trans (next_dev_congr ((agreeCmd_eq hk).2 z hz hok))

end Sys2Proof.Machine
end

section
/-!
SUPPORT. The commands of the Muslin lanes (R212 to R239 [07]).
-/
namespace Sys2Proof.Machine

section
variable {s : State} {id : Nat} {c : Cmd} {o : Op} (ha : AtStep s id o c) (fin : Cmd → List Bytes → Bytes → Nat → Bytes)
include ha

/-- A segment that is not the last is taken (R219). -/
theorem hashCmd_of_more (h : c.pkt.segf = 1 ∨ c.pkt.segf = 2) :
    hashCmd o id fin s = .next { s with dev := (segAccepted id [] (headsOf s.mem s.dev c (hashHeads c.pkt c.op).length)
      ((hashForm c.pkt c.op).get s.mem s.dev c .msg) c s.dev) } := by
  have hop : c.op = o := ha.2.1
  rw [hop]
  exact (execOp_atStep ha).trans (next_dev_congr (if_pos (by simpa using h)))

/-- What a generic command makes of the heads and the whole message. -/
theorem hashCmd_of_last (h : ¬ (c.pkt.segf = 1 ∨ c.pkt.segf = 2)) (role : Role) (hrole : role = if o = .hash || o = .xof then .digest else .mac)
    (x : Bytes) (hx : x = fin c (headsOf s.mem s.dev c (hashHeads c.pkt c.op).length)
      (dataOf s.dev c ++ (hashForm c.pkt c.op).get s.mem s.dev c .msg) ((hashForm c.pkt c.op).len c.pkt role)) :
    hashCmd o id fin s = .next { s with dev := (if o = .hmacVerify || o = .kmacVerify then
        failWith (if x == (hashForm c.pkt c.op).get s.mem s.dev c role then .ok else .verifyFail) id s.dev
      else okOuts ((hashForm c.pkt c.op).put role x) id s.dev) } := by
  have hop : c.op = o := ha.2.1
  subst hrole hx
  rw [hop]
  exact (execOp_atStep ha).trans (next_dev_congr (if_neg (by simpa using h)))

end

/-- The stateful key that a key generation's request names, where its public-key output has the set's length (R231). -/
theorem treeKeygen_eq {id : Nat} {m : Memory} {c : Cmd} {d : Dev} {t : TreeSet} {kar : Bytes} (hc : findCmd d id = some c)
    (hk : kar = (treeForm c.pkt c.op).get m d c .kar) (ht : treeSet (reqOf kar).typ (reqOf kar).sub = some t)
    (hlen : c.pkt.ndesc = 2 → (treeForm c.pkt c.op).len c.pkt .pk = treePkLen (reqOf kar).typ t)
    (htyp : treeKarType c.op (reqOf kar).typ = (reqOf kar).typ) :
    treeKeygen id m c d = genKey id kar (reqOf kar).typ (reqOf kar).sub 0 ((treeForm c.pkt c.op).put .pk) d := by
  subst hk
  have hlong : ((reqOf ((treeForm c.pkt c.op).get m d c .kar)).typ != 0 && (treeForm c.pkt c.op).len c.pkt .pk
      != treePkLen (reqOf ((treeForm c.pkt c.op).get m d c .kar)).typ t && c.pkt.ndesc == 2) = false := by
    by_cases h2 : c.pkt.ndesc = 2
    · simp [hlen h2]
    · simp [h2]
  have hrefuse : treeKeygenRefusal d c ((treeForm c.pkt c.op).get m d c .kar) =
      genRefusal d c ((treeForm c.pkt c.op).get m d c .kar) (reqOf ((treeForm c.pkt c.op).get m d c .kar)).typ
        (reqOf ((treeForm c.pkt c.op).get m d c .kar)).sub := by
    simp only [treeKeygenRefusal, ht, htyp, hlong, Bool.false_eq_true, if_false]
  simp only [treeKeygen, hrefuse, htyp]
  cases hg : genRefusal d c ((treeForm c.pkt c.op).get m d c .kar) (reqOf ((treeForm c.pkt c.op).get m d c .kar)).typ
    (reqOf ((treeForm c.pkt c.op).get m d c .kar)).sub with
  | none => rfl
  | some st => exact (genKey_of_refusal hc hg).symm

/-- The seed of each lower level of an HSS key (R229). -/
theorem levelKeys_lower (t : TreeSet) (mat : Bytes) (j : Nat) {l : Nat} (h2 : 2 ≤ l) (hl : l ≤ t.layers) :
    (levelKeys 0x30 t mat j)[l - 1]? = some (kmac256 (mat.drop 16)
      (leBytes 1 l ++ beBytes 8 (j / 2 ^ (t.h * (t.layers + 1 - l)))) (16 + t.n) "ORNATH-HSS") := by
  obtain ⟨n, rfl⟩ : ∃ n, l = n + 2 := ⟨l - 2, by omega⟩
  have hn : n < t.layers - 1 := by omega
  simp [levelKeys, hn]

theorem treeType_lms {o : Op} (h : isLmsOp o = true) (n : Nat) : treeType o n = 0x30 := by rw [treeType, if_pos h]

theorem treeType_xmss {o : Op} (h : isLmsOp o = false) (n : Nat) : treeType o n ≠ 0x30 := by
  rw [treeType, if_neg (by simp [h])]
  split <;> decide

section
variable {id : Nat} {m : Memory} {c : Cmd} {d : Dev} {t : TreeSet} {sig : Bytes} (ht : treeSet (treeType c.op c.prm) c.prm = some t)
include ht

/-- Trees that fail their tag sign nothing (R237). -/
theorem treeSign_of_lost (htr : treesOk d c = false) (hbm : hbmOk d c.slice = true) : treeSign id m c d = failWith .faultDetected id d := by
  simp only [treeSign, ht, htr, hbm, Bool.not_false, if_true]

/-- A stateful signature is released only when it verifies (R232, R237). -/
theorem treeSign_of_kept (htr : treesOk d c = true) (hsig : sig = std (if treeType c.op c.prm = 0x30 then .lmsSign else .xmssSign)
      (treeSigLen (treeType c.op c.prm) t) [treeType c.op c.prm, c.prm, c.otIndex.getD 0] ((treeForm c.pkt c.op).get m d c .msg ::
        std .drbg 32 [c.draws] [] :: levelKeys (treeType c.op c.prm) t (c.mat 0) (c.otIndex.getD 0))) :
    treeSign id m c d = if Config.stdOk (if treeType c.op c.prm = 0x30 then .lmsVerify else .xmssVerify) [treeType c.op c.prm, c.prm]
        [c.pub 0, (treeForm c.pkt c.op).get m d c .msg, sig] then
      outcomeIs (answer .ok ((treeForm c.pkt c.op).put .sig sig) (leBytes 8 (c.otIndex.getD 0))) id d
    else invariantFail .hash id d := by
  subst hsig
  simp only [treeSign, ht, htr, Bool.not_true, Bool.false_eq_true, if_false]
  split <;> rfl

end

section
variable {id : Nat} {m : Memory} {c : Cmd} {d : Dev} {pk : Bytes} (hpk : pk = if c.pkt.hasKey 0 then c.pub 0 else (treeForm c.pkt c.op).get m d c .ek)
include hpk

/-- A supplied key of another type is refused (R231). -/
theorem treeVerify_refuses (hkey : c.pkt.hasKey 0 = false) (hp : pubOk (treeType c.op c.prm) c.prm pk = false) :
    treeVerify id m c d = failWith .inputInvalid id d := by
  subst hpk
  refine if_pos ?_
  rw [hp, hkey]
  rfl

theorem treeVerify_eq (hp : c.pkt.hasKey 0 = true ∨ pubOk (treeType c.op c.prm) c.prm pk = true) :
    treeVerify id m c d = failWith (if Config.stdOk (if treeType c.op c.prm = 0x30 then .lmsVerify else .xmssVerify)
      [treeType c.op c.prm, c.prm] [pk, (treeForm c.pkt c.op).get m d c .msg,
          (treeForm c.pkt c.op).get m d c .sig] then .ok else .verifyFail) id d := by
  subst hpk
  refine if_neg ?_
  rw [not_refused hp]
  exact Bool.false_ne_true

end

section
variable {id : Nat} {m : Memory} {c : Cmd} {d : Dev} {k : KeyRes} {t : TreeSet} (hk : c.keys.head? = some k)
  (ht : treeSet (d.ent k.idx).typ (d.ent k.idx).subtype = some t) (hz : field ((treeForm c.pkt c.op).get m d c .params) 8 8 = 0)
include hk ht

theorem treeReserve_refused {st : Status} (hr : reserveRefusal (d.ent k.idx) c ((treeForm c.pkt c.op).get m d c .params) = some st) :
    treeReserve id m c d = failWith st id d := by
  simp only [treeReserve, hk, ht, hr]

include hz

/-- A commit sets the ceiling to PENDING, and only when it names it (R234). -/
theorem treeReserve_commit (hb : bit c.prm 7 = true) (n : Entry) (hn : n = { d.ent k.idx with ceiling := (d.ent k.idx).pending, pend := none }) :
    treeReserve id m c d = if field ((treeForm c.pkt c.op).get m d c .params) 0 8 ≠ (d.ent k.idx).pending ∨
        (d.ent k.idx).pending ≤ (d.ent k.idx).ceiling then failWith .policyRefused id d
      else okOuts ((treeForm c.pkt c.op).put .report (leBytes 8 (d.ent k.idx).next ++ leBytes 8 (d.ent k.idx).pending ++ leBytes 8 (d.ent k.idx).pending)) id
        (setEnt k.idx n (setCmd { c with undo := some (k.idx, d.ent k.idx) } d)) := by
  subst hn
  have hrefuse : reserveRefusal (d.ent k.idx) c ((treeForm c.pkt c.op).get m d c .params) =
      if field ((treeForm c.pkt c.op).get m d c .params) 0 8 ≠ (d.ent k.idx).pending ∨ (d.ent k.idx).pending ≤ (d.ent k.idx).ceiling then
        some .policyRefused else none := by simp [reserveRefusal, ht, hz, hb]
  split
  · next h => exact treeReserve_refused hk ht (hrefuse.trans (if_pos h))
  · next h =>
    simp only [treeReserve, hk, ht, hrefuse, if_neg h, hb, if_true]
    rfl

/-- A key whose indices are all reserved has no more (R234). -/
theorem treeReserve_exhausted (hb : bit c.prm 7 = false) (hfull : (d.ent k.idx).ceiling = 2 ^ t.total) :
    treeReserve id m c d = failWith .keySigExhausted id d :=
  treeReserve_refused hk ht (by simp [reserveRefusal, ht, hz, hb, hfull])

/-- A reservation within its bounds sets PENDING and seals it (R234). -/
theorem treeReserve_reserves {np : Nat} {n : Entry} (hb : bit c.prm 7 = false) (hroom : (d.ent k.idx).ceiling ≠ 2 ^ t.total)
    (hnp : np = newPending t (d.ent k.idx) (field ((treeForm c.pkt c.op).get m d c .params) 0 8)) (hmax : np ≤ 2 ^ t.total)
    (hlast : field ((treeForm c.pkt c.op).get m d c .params) 0 8 = 0 ∨
      np ≤ (if t.layers = 1 then 2 ^ t.total else (treeOf t (d.ent k.idx).next + 2) * 2 ^ t.h)) (hbm : hbmOk d c.slice = true)
    (hn : n = { d.ent k.idx with pend := some np, cache := true, treeTo := max (d.ent k.idx).treeTo (reachOf t np) }) :
    treeReserve id m c d = okOuts ((treeForm c.pkt c.op).put .report (leBytes 8 (d.ent k.idx).next ++ leBytes 8 (d.ent k.idx).ceiling ++ leBytes 8 np)
        ++ (treeForm c.pkt c.op).put .blob (sliceBlob d n (bits c.prm 3 0))) id
      (setEnt k.idx n (setCmd { c with undo := some (k.idx, d.ent k.idx) } d)) := by
  subst hnp hn
  have hbound : (decide (newPending t (d.ent k.idx) (field ((treeForm c.pkt c.op).get m d c .params) 0 8) > 2 ^ t.total)
      || (field ((treeForm c.pkt c.op).get m d c .params) 0 8 != 0
        && decide (newPending t (d.ent k.idx) (field ((treeForm c.pkt c.op).get m d c .params) 0 8)
          > if t.layers = 1 then 2 ^ t.total else (treeOf t (d.ent k.idx).next + 2) * 2 ^ t.h))) = false := by
    rw [decide_eq_false (Nat.not_lt.mpr hmax), Bool.false_or]
    rcases hlast with h | h
    · rw [h]
      rfl
    · rw [decide_eq_false (Nat.not_lt.mpr h), Bool.and_false]
  have hrefuse : reserveRefusal (d.ent k.idx) c ((treeForm c.pkt c.op).get m d c .params) = none := by
    simp only [reserveRefusal, ht, hz, hb, hroom, hbound, bne_self_eq_false, Bool.false_eq_true, if_false]
  simp only [treeReserve, hk, ht, hrefuse, hb, hbm, Bool.not_true, Bool.false_eq_true, if_false]
  rfl

end

/-- Settles O49. -/
theorem hashCommands : Obligations.HashCommands := by
  unfold Obligations.HashCommands inRole
  intro s id c
  refine ⟨fun hm e he => ?_, fun hm => ⟨fun ha => ?_, fun ha hp => ?_, fun ha hp => ?_, fun ha => ?_, fun ha => ?_, fun ha => ?_, fun ha => ?_⟩,
    fun ha => (execOp_atStep ha).trans rfl, fun str hstr => ⟨fun ha g sig hg hsig => ?_, fun ha => ?_⟩,
    fun t ht hlen => ⟨fun ha htyp => ?_, fun ha htyp => ?_⟩,
    fun t j ht hj => ⟨fun htr hbm => ⟨fun ha => ?_, fun ha => ?_⟩, fun htr sig => ⟨fun ha hsig => ?_, fun ha hsig => ?_⟩⟩,
    fun t mat j l h2 hl => levelKeys_lower t mat j h2 hl,
    fun pk hpk => ⟨fun hkey hp => ⟨fun ha => ?_, fun ha => ?_⟩, fun hp => ⟨fun ha => ?_, fun ha => ?_⟩⟩,
    fun k t hk ht hz e v u he hv hu q hq => ?_⟩
  · subst he
    refine ⟨fun ha => ?_, fun ha => ?_, fun ha => ?_, fun ha => ?_, fun ha => ?_, fun ha => ?_⟩
    · show execHash id s = _
      exact hashCmd_of_more ha _ hm
    · show execXof id s = _
      exact hashCmd_of_more ha _ hm
    · show execHmacGen id s = _
      exact hashCmd_of_more ha _ hm
    · show execHmacVerify id s = _
      exact hashCmd_of_more ha _ hm
    · show execKmacGen id s = _
      exact hashCmd_of_more ha _ hm
    · show execKmacVerify id s = _
      exact hashCmd_of_more ha _ hm
  · show execHash id s = _
    exact hashCmd_of_last ha _ hm .digest rfl _ rfl
  · show execXof id s = _
    exact (hashCmd_of_last ha _ hm .digest rfl _ rfl).trans (by simp only [if_pos hp]; rfl)
  · show execXof id s = _
    exact (hashCmd_of_last ha _ hm .digest rfl _ rfl).trans (by simp only [if_neg (Nat.not_le.mpr hp)]; rfl)
  · show execHmacGen id s = _
    exact hashCmd_of_last ha _ hm .mac rfl _ rfl
  · show execHmacVerify id s = _
    exact (hashCmd_of_last ha _ hm .mac rfl _ rfl).trans (by simp only [beq_iff_eq]; rfl)
  · show execKmacGen id s = _
    exact hashCmd_of_last ha _ hm .mac rfl _ rfl
  · show execKmacVerify id s = _
    exact (hashCmd_of_last ha _ hm .mac rfl _ rfl).trans (by simp only [beq_iff_eq]; rfl)
  · subst hstr
    by_cases hb : bit c.prm 4 = true
    · rw [if_pos hb] at hg
      subst hg hsig
      refine (execOp_atStep ha).trans ?_
      simp only [if_pos hb]
    · rw [if_neg hb] at hg
      subst hg hsig
      refine (execOp_atStep ha).trans ?_
      simp only [if_neg hb]
  · subst hstr
    exact (execOp_atStep ha).trans rfl
  · rw [← htyp]
    refine (execOp_atStep ha).trans (next_dev_congr (treeKeygen_eq ha.1 rfl ht hlen ?_))
    rw [htyp, ha.2.1]
    rfl
  · refine (execOp_atStep ha).trans (next_dev_congr (treeKeygen_eq ha.1 rfl ht hlen ?_))
    rcases htyp with h | h <;> rw [h, ha.2.1] <;> rfl
  · exact (execOp_atStep ha).trans (next_dev_congr (treeSign_of_lost ht htr hbm))
  · exact (execOp_atStep ha).trans (next_dev_congr (treeSign_of_lost ht htr hbm))
  · have htyp := treeType_lms (o := c.op) (by rw [ha.2.1]; rfl) c.prm
    subst hj
    refine (execOp_atStep ha).trans (next_dev_congr ?_)
    rw [treeSign_of_kept ht htr (sig := sig) (by rw [if_pos htyp, htyp]; exact hsig), if_pos htyp, htyp]
  · have htyp := treeType_xmss (o := c.op) (by rw [ha.2.1]; rfl) c.prm
    subst hj
    refine (execOp_atStep ha).trans (next_dev_congr ?_)
    rw [treeSign_of_kept ht htr (sig := sig) (by rw [if_neg htyp]; exact hsig), if_neg htyp]
  · exact (execOp_atStep ha).trans (next_dev_congr (treeVerify_refuses hpk hkey hp))
  · exact (execOp_atStep ha).trans (next_dev_congr (treeVerify_refuses hpk hkey hp))
  · have htyp := treeType_lms (o := c.op) (by rw [ha.2.1]; rfl) c.prm
    refine (execOp_atStep ha).trans (next_dev_congr ?_)
    rw [treeVerify_eq hpk hp, if_pos htyp, htyp]
  · have htyp := treeType_xmss (o := c.op) (by rw [ha.2.1]; rfl) c.prm
    refine (execOp_atStep ha).trans (next_dev_congr ?_)
    rw [treeVerify_eq hpk hp, if_neg htyp]
  · have hdev : treeReserve id s.mem c s.dev = q := by
      subst he hv hu
      rcases hq with ⟨hb, hbad, rfl⟩ | ⟨hb, hv, hlt, n, hn, rfl⟩ | ⟨hb, hfull, rfl⟩ | ⟨hb, hroom, np, hnp, hmax, hlast, hbm, n, hn, rfl⟩
      · exact (treeReserve_commit hk ht hz hb _ rfl).trans (if_pos hbad)
      · exact (treeReserve_commit hk ht hz hb n hn).trans (if_neg fun h => h.elim (fun h => h hv) (Nat.not_le.mpr hlt))
      · exact treeReserve_exhausted hk ht hz hb hfull
      · exact treeReserve_reserves hk ht hz hb hroom hnp hmax hlast hbm hn
    exact ⟨fun ha => (execOp_atStep ha).trans (next_dev_congr hdev), fun ha => (execOp_atStep ha).trans (next_dev_congr hdev)⟩

end Sys2Proof.Machine
end

section
/-!
SUPPORT. The commands of the Satin lanes (R285 to R304 [10]).
-/
namespace Sys2Proof.Machine

section
variable {id : Nat} {m : Memory} {c : Cmd} {d : Dev}

/-- ECB of whole blocks (R290). -/
theorem blockCmd_ecb (h : c.pkt.mode = 1) : blockCmd id m c d = okOuts ((blockForm c.pkt c.op).put .dst
    ((cut c.pkt.blk ((blockForm c.pkt c.op).get m d c .src)).flatMap
      (if c.op == .encrypt then blockEnc c.pkt.tdes (c.mat 0) else blockDec c.pkt.tdes (c.mat 0)))) id d := by
  simp only [blockCmd, h, ecbMode]

/-- CBC and CTR: a segment's output is what the whole data so far gives beyond what earlier segments gave (R291, R299). -/
theorem blockCmd_chained (h : c.pkt.mode = 2 ∨ c.pkt.mode = 3) {y : Bytes}
    (hy : y = if c.pkt.mode = 3 then ctrMode (blockEnc false (c.mat 0)) (ctrWhole ((headsOf m d c 1).getD 0 [])) 0
        (cut 16 (dataOf d c ++ (blockForm c.pkt c.op).get m d c .src))
      else if c.op == .encrypt then cbcEnc (blockEnc c.pkt.tdes (c.mat 0)) ((headsOf m d c 1).getD 0 [])
        (cut c.pkt.blk (dataOf d c ++ (blockForm c.pkt c.op).get m d c .src))
      else cbcDec (blockDec c.pkt.tdes (c.mat 0)) ((headsOf m d c 1).getD 0 [])
        (cut c.pkt.blk (dataOf d c ++ (blockForm c.pkt c.op).get m d c .src))) :
    blockCmd id m c d = if c.pkt.segf = 1 || c.pkt.segf = 2 then
        segAccepted id ((blockForm c.pkt c.op).put .dst (y.drop (dataOf d c).length)) (headsOf m d c 1)
          ((blockForm c.pkt c.op).get m d c .src) c d
      else okOuts ((blockForm c.pkt c.op).put .dst (y.drop (dataOf d c).length)) id d := by
  subst hy
  rcases h with h | h <;> simp only [blockCmd, h]

/-- XTS: equal halves and a data unit number that overflows are refused (R292). -/
theorem blockCmd_xts (h : c.pkt.mode = 4) : blockCmd id m c d =
    if field (inp m d c 0) 0 16 + (((blockForm c.pkt c.op).get m d c .src).length / field (inp m d c 0) 16 4 - 1) ≥ 2 ^ 128 ||
        (c.mat 0).take 16 == (c.mat 0).drop 16 then failWith .inputInvalid id d
    else okOuts ((blockForm c.pkt c.op).put .dst (xtsUnits (c.op == .encrypt) (c.mat 0) (field (inp m d c 0) 0 16)
      (cut (field (inp m d c 0) 16 4) ((blockForm c.pkt c.op).get m d c .src)))) id d := by
  simp only [blockCmd, h]

end

/-- An answer that a test decides, by its two cases. -/
theorem gives_of_ite {i : Instr} {s : State} {b : Bool} {p : Prop} {d e : Dev} (hb : b = true ↔ p) (h : Gives i s (if b then d else e)) :
    (p → Gives i s d) ∧ (¬p → Gives i s e) := by
  cases b with
  | false => exact ⟨fun hp => absurd (hb.mpr hp) Bool.false_ne_true, fun _ => h⟩
  | true => exact ⟨fun _ => h, fun hp => absurd (hb.mp rfl) hp⟩

/-- A segment that is not the last. -/
theorem more_iff (n : Nat) : (n == 1 || n == 2) = true ↔ n = 1 ∨ n = 2 := by simp

section
variable {id : Nat} {m : Memory} {c : Cmd} {d : Dev}

/-- Authenticated encryption but for GCM-C (R293, R294). -/
theorem aeadCmd_encrypt (hop : c.op = .aeadEncrypt) (hm : c.pkt.mode ≠ 4) {tag y : Bytes}
    (htag : tag = if c.pkt.mode = 3 then sivTag (c.mat 0) ((headsOf m d c 2).getD 0 []) ((headsOf m d c 2).getD 1 [])
      (dataOf d c ++ (aeadForm c.pkt c.op).get m d c .src) else [])
    (hy : y = aeadData c.pkt.mode (c.mat 0) ((headsOf m d c 2).getD 0 []) tag (dataOf d c ++ (aeadForm c.pkt c.op).get m d c .src)) :
    aeadCmd id m c d = if c.pkt.segf == 1 || c.pkt.segf == 2 then
        segAccepted id ((aeadForm c.pkt c.op).put .dst (y.drop (dataOf d c).length)) (headsOf m d c 2) ((aeadForm c.pkt c.op).get m d c .src) c d
      else okOuts ((aeadForm c.pkt c.op).put .dst (y.drop (dataOf d c).length) ++ (aeadForm c.pkt c.op).put .tag
        (aeadTag c.pkt.mode (c.mat 0) ((headsOf m d c 2).getD 0 []) ((headsOf m d c 2).getD 1 [])
          (dataOf d c ++ (aeadForm c.pkt c.op).get m d c .src) y c.pkt.aeadTagLen)) id d := by
  subst htag hy
  simp only [aeadCmd, if_neg hm, hop, beq_self_eq_true, if_true]

/-- Authenticated decryption but for GCM-C: the data only when the tag is right (R289). -/
theorem aeadCmd_decrypt (hop : c.op = .aeadDecrypt) (hm : c.pkt.mode ≠ 4) {y : Bytes}
    (hy : y = aeadData c.pkt.mode (c.mat 0) ((headsOf m d c 2).getD 0 []) ((aeadForm c.pkt c.op).get m d c .tag)
      (dataOf d c ++ (aeadForm c.pkt c.op).get m d c .src)) :
    aeadCmd id m c d = if c.pkt.segf == 1 || c.pkt.segf == 2 then
        segAccepted id [] (headsOf m d c 2) ((aeadForm c.pkt c.op).get m d c .src) c d
      else if aeadTag c.pkt.mode (c.mat 0) ((headsOf m d c 2).getD 0 []) ((headsOf m d c 2).getD 1 []) y
          (dataOf d c ++ (aeadForm c.pkt c.op).get m d c .src) c.pkt.aeadTagLen == (aeadForm c.pkt c.op).get m d c .tag then
        okOuts ((aeadForm c.pkt c.op).put .dst y) id d
      else authFail id (aeadForm c.pkt c.op) c.pkt d := by
  have hnot : (Op.aeadDecrypt == Op.aeadEncrypt) = false := by decide
  subst hy
  simp only [aeadCmd, if_neg hm, hop, hnot, Bool.false_eq_true, if_false]

/-- The chunks of GCM-C (R295). -/
theorem aeadCmd_chunks (hm : c.pkt.mode = 4) {xs : List Bytes} {y : Option Bytes}
    (hxs : xs = if (aeadForm c.pkt c.op).get m d c .src = [] then [[]]
      else cut (if c.op = .aeadEncrypt then 65536 else 65552) ((aeadForm c.pkt c.op).get m d c .src))
    (hy : y = if c.op = .aeadEncrypt then some (sealChunks (c.mat 0) ((headsOf m d c 2).getD 0 []) ((headsOf m d c 2).getD 1 [])
          (!(c.pkt.segf == 1 || c.pkt.segf == 2)) ((dataOf d c).length / 65536) xs)
        else openChunks (c.mat 0) ((headsOf m d c 2).getD 0 []) ((headsOf m d c 2).getD 1 [])
          (!(c.pkt.segf == 1 || c.pkt.segf == 2)) ((dataOf d c).length / 65552) xs) :
    (y = none → aeadCmd id m c d = authFail id (aeadForm c.pkt c.op) c.pkt d) ∧
    ∀ z, y = some z → aeadCmd id m c d = if c.pkt.segf == 1 || c.pkt.segf == 2 then
        segAccepted id ((aeadForm c.pkt c.op).put .dst z) (headsOf m d c 2) ((aeadForm c.pkt c.op).get m d c .src) c d
      else okOuts ((aeadForm c.pkt c.op).put .dst z) id d := by
  have hpieces : (if ((aeadForm c.pkt c.op).get m d c .src).isEmpty then [[]]
      else cut (if c.op == .aeadEncrypt then 65536 else 65552) ((aeadForm c.pkt c.op).get m d c .src)) = xs := by
    rw [hxs]
    simp only [List.isEmpty_iff, beq_iff_eq]
  have hy' : (if c.op == .aeadEncrypt then some (sealChunks (c.mat 0) ((headsOf m d c 2).getD 0 []) ((headsOf m d c 2).getD 1 [])
          (!(c.pkt.segf == 1 || c.pkt.segf == 2)) ((dataOf d c).length / if c.op == .aeadEncrypt then 65536 else 65552) xs)
        else openChunks (c.mat 0) ((headsOf m d c 2).getD 0 []) ((headsOf m d c 2).getD 1 [])
          (!(c.pkt.segf == 1 || c.pkt.segf == 2)) ((dataOf d c).length / if c.op == .aeadEncrypt then 65536 else 65552) xs) = y := by
    rw [hy]
    by_cases hop : c.op = .aeadEncrypt
    · simp only [hop, beq_self_eq_true, if_true]
    · simp only [hop, beq_iff_eq, if_false]
  refine ⟨fun hn => ?_, fun z hz => ?_⟩
  · rw [hn] at hy'
    simp only [aeadCmd, if_pos hm, chunkCmd, hpieces, hy']
  · rw [hz] at hy'
    simp only [aeadCmd, if_pos hm, chunkCmd, hpieces, hy']

end

/-- Settles O50. -/
theorem symmetricCommands : Obligations.SymmetricCommands := by
  unfold Obligations.SymmetricCommands inRole input
  intro s id c
  refine ⟨fun hm => ⟨fun ha => ?_, fun ha => ?_⟩, fun hm => ⟨fun ha y hy => ?_, fun ha y hy => ?_⟩, fun hm y hy => ⟨fun ha => ?_, fun ha => ?_⟩,
    fun hm pb du t hpb hdu ht => ⟨fun hbad => ?_, fun hlt hne => ?_⟩, fun hm => ⟨fun ha => ?_, fun ha => ?_⟩,
        fun hm y hy => ⟨fun ha => ?_, fun ha => ?_⟩,
    fun ha hm tag y htag hy => ?_, fun ha hm => ?_, fun hm xs hxs => ⟨fun ha y hy => ?_, fun ha z hz => ?_⟩,
    fun heads t hh ht => ?_, fun ha g hg => ?_⟩
  · refine (execOp_atStep ha).trans (next_dev_congr ?_)
    rw [blockCmd_ecb hm, ha.2.1]
    rfl
  · refine (execOp_atStep ha).trans (next_dev_congr ?_)
    rw [blockCmd_ecb hm, ha.2.1]
    rfl
  · have hop : c.op = .encrypt := ha.2.1
    exact gives_of_ite (by simp) ((execOp_atStep ha).trans (next_dev_congr (blockCmd_chained (.inl hm) (by rw [hy, hop, hm]; rfl))))
  · have hop : c.op = .decrypt := ha.2.1
    exact gives_of_ite (by simp) ((execOp_atStep ha).trans (next_dev_congr (blockCmd_chained (.inl hm) (by rw [hy, hop, hm]; rfl))))
  · exact gives_of_ite (by simp) ((execOp_atStep ha).trans (next_dev_congr (blockCmd_chained (.inr hm) (by rw [if_pos hm]; exact hy))))
  · exact gives_of_ite (by simp) ((execOp_atStep ha).trans (next_dev_congr (blockCmd_chained (.inr hm) (by rw [if_pos hm]; exact hy))))
  · subst hpb hdu ht
    have hb := (blockCmd_xts (id := id) (m := s.mem) (d := s.dev) hm).trans (if_pos (by simpa using hbad))
    exact ⟨fun ha => (execOp_atStep ha).trans (next_dev_congr hb), fun ha => (execOp_atStep ha).trans (next_dev_congr hb)⟩
  · subst hpb hdu ht
    have hb := (blockCmd_xts (id := id) (m := s.mem) (d := s.dev) hm).trans (if_neg (by simpa using ⟨hlt, hne⟩))
    refine ⟨fun ha => (execOp_atStep ha).trans (next_dev_congr (hb.trans ?_)), fun ha => (execOp_atStep ha).trans (next_dev_congr (hb.trans ?_))⟩
    · rw [ha.2.1]
      rfl
    · rw [ha.2.1]
      rfl
  · refine (execOp_atStep ha).trans (next_dev_congr ?_)
    simp only [blockCmd, hm, ha.2.1, beq_self_eq_true, if_true]
  · have hnot : (Op.decrypt == Op.encrypt) = false := by decide
    refine (execOp_atStep ha).trans (next_dev_congr ?_)
    simp only [blockCmd, hm, ha.2.1, hnot, Bool.false_eq_true, if_false]
    rfl
  · refine (execOp_atStep ha).trans (next_dev_congr ?_)
    simp only [blockCmd, hm, ha.2.1, beq_self_eq_true, if_true]
  · have hnot : (Op.decrypt == Op.encrypt) = false := by decide
    subst hy
    refine (execOp_atStep ha).trans (next_dev_congr ?_)
    simp only [blockCmd, hm, ha.2.1, hnot, Bool.false_eq_true, if_false]
    rfl
  · exact gives_of_ite (more_iff _) ((execOp_atStep ha).trans (next_dev_congr (aeadCmd_encrypt ha.2.1 hm htag hy)))
  · obtain ⟨hmore, hlast⟩ := gives_of_ite (i := .aeadDecrypt id) (more_iff _) ((execOp_atStep ha).trans (next_dev_congr (aeadCmd_decrypt (id := id) ha.2.1 hm rfl)))
    refine ⟨hmore, fun hn y hy => ?_⟩
    subst hy
    exact gives_of_ite beq_iff_eq (hlast hn)
  · have hop : c.op = .aeadEncrypt := ha.2.1
    exact gives_of_ite (more_iff _) ((execOp_atStep ha).trans (next_dev_congr ((aeadCmd_chunks hm hxs rfl).2 y (by rw [if_pos hop, hy]))))
  · have hop : ¬ c.op = .aeadEncrypt := by rw [ha.2.1]; decide
    obtain ⟨hbad, hgood⟩ := aeadCmd_chunks (id := id) (m := s.mem) (d := s.dev) (y := z) hm hxs (by rw [if_neg hop]; exact hz)
    exact ⟨fun hn => (execOp_atStep ha).trans (next_dev_congr (hbad hn)), fun y hy =>
      gives_of_ite (more_iff _) ((execOp_atStep ha).trans (next_dev_congr (hgood y hy)))⟩
  · subst hh ht
    refine ⟨fun ha hl => ?_, fun ha hl => ?_, fun ha hm => ?_, fun ha hm => ?_⟩
    · refine (execOp_atStep ha).trans (next_dev_congr ((if_neg (by simpa using hl)).trans (if_pos ?_)))
      rw [ha.2.1]
      rfl
    · refine (execOp_atStep ha).trans (next_dev_congr ((if_neg (by simpa using hl)).trans ((if_neg ?_).trans ?_)))
      · rw [ha.2.1]
        decide
      · simp only [beq_iff_eq]
    · exact (execOp_atStep ha).trans (next_dev_congr (if_pos (by simpa using hm)))
    · exact (execOp_atStep ha).trans (next_dev_congr (if_pos (by simpa using hm)))
  · subst hg
    refine ⟨fun hr he => ?_, fun hb hlow => ?_, fun hr he e hdraw h hh => ?_⟩
    · have hreseed : (bit c.prm 0 || decide ((s.dev.prot.drbg.getD (c.slice % 8) ⟨zeros 32, zeros 16, 0⟩).count ≥ 2 ^ 20)) = true := by simpa using hr
      refine (execOp_atStep ha).trans (next_dev_congr (if_pos ?_))
      rw [hreseed, he]
      rfl
    · have hreseed : (bit c.prm 0 || decide ((s.dev.prot.drbg.getD (c.slice % 8) ⟨zeros 32, zeros 16, 0⟩).count ≥ 2 ^ 20)) = false := by
        rw [hb, decide_eq_false (Nat.not_le.mpr hlow)]
        rfl
      refine (execOp_atStep ha).trans ?_
      simp only [hreseed, Bool.false_and, Bool.false_eq_true, if_false]
    · have hreseed : (bit c.prm 0 || decide ((s.dev.prot.drbg.getD (c.slice % 8) ⟨zeros 32, zeros 16, 0⟩).count ≥ 2 ^ 20)) = true := by simpa using hr
      subst hdraw hh
      refine (execOp_atStep ha).trans ?_
      simp only [hreseed, he, Bool.not_true, Bool.and_false, Bool.false_eq_true, if_false, if_true]
      rfl

end Sys2Proof.Machine
end

section
/-!
SUPPORT. The payment commands (R305 to R336 [11]).
-/
namespace Sys2Proof.Machine

@[simp] theorem tget_setJob (id : Nat) (j : JobMem) (d : Dev) : (setJob id j d).job id = j := tget_tset_same _ _ _ _

/-! The registers of the payment unit hold shares of what they were given (R306 [11]). -/

theorem xorB_comm (x y : Bytes) : xorB x y = xorB y x := List.zipWith_comm_of_comm BitVec.xor_comm

theorem length_freeBytes (k n : Nat) : (freeBytes k n).length = n := by
  induction n generalizing k with
  | zero => rfl
  | succ n ih => rw [freeBytes, List.length_cons, ih]

theorem zeros_xorB (x : Bytes) : xorB (zeros x.length) x = x := by
  induction x with
  | nil => rfl
  | cons b x ih =>
    show (0#8 ^^^ b) :: xorB (zeros x.length) x = b :: x
    rw [ih, BitVec.zero_xor]

/-- The exclusive or of what is held is the value. -/
theorem holdPay_shares (id : Nat) (y : Bytes) (d : Dev) : (((holdPay id y d).job id).pay.foldl xorB (zeros y.length)) = y := by
  obtain ⟨r, hr⟩ : ∃ r, r = freeBytes d.free y.length := ⟨_, rfl⟩
  have hlen : r.length = y.length := hr ▸ length_freeBytes _ _
  have hpay : ((holdPay id y d).job id).pay = [r, xorB y r] := hr ▸ congrArg JobMem.pay (tget_setJob id _ _)
  calc ((holdPay id y d).job id).pay.foldl xorB (zeros y.length)
      = xorB (xorB (zeros y.length) r) (xorB y r) := by rw [hpay]; rfl
    _ = xorB r (xorB y r) := by rw [← hlen, zeros_xorB]
    _ = y := by rw [xorB_comm, xorB_xorB y r hlen.symm]

/-- A parent's rights cover a usage bit that is asked for only when the parent has it (R152 [05]). -/
theorem may_of_parent {usage u : Nat} {k : Option Entry} (h : bit usage u = true → k.any (fun e => e.may u) = true) :
    (!bit usage u || (k.map (fun e => e.may u)).getD false) = true := by
  cases hb : bit usage u with
  | false => rfl
  | true =>
    have := h hb
    cases k <;> simp_all

section
variable {id : Nat} {m : Memory} {c : Cmd} {d : Dev}

/-- Why IPEK_DERIVE is refused, once its request stands (R324). -/
theorem ipekRefusal_eq {kar : Bytes} (hk : karCheck d kar false = none) (ht : (reqOf kar).typ = 0x61)
    (hs : (reqOf kar).sub = ((c.key 0).map (·.subtype)).getD 0)
    (hmay : ∀ u, u = uEXPORTBLOB ∨ u = uEXPORTWRAPPED → bit (reqOf kar).usage u = true → (c.key 0).any (fun e => e.may u) = true) :
    ipekRefusal d c kar = if dukptBad (((c.key 0).map (·.subtype)).getD 0 != 4) true (c.pkt.inlineOf 1) then some .packetMalformed
      else if tooDeep c 0 then some .policyRefused else if !roomLeft d c 0 then some .resourceQuota else none := by
  simp only [ipekRefusal, hk, ht, hs, may_of_parent (hmay _ (.inl rfl)), may_of_parent (hmay _ (.inr rfl)), bne_self_eq_false, Bool.not_true,
    Bool.or_self, Bool.false_eq_true, if_false]

/-- PVV_GENERATE and PVV_VERIFY without a value (R318). -/
theorem pvvCmd_none (h : (decPin c.pkt.pinIn (c.mat 0) c.pan ((payForm c.pkt c.op).get m d c .block)).bind
      (pvvOf (c.mat 1) c.pan ((payForm c.pkt c.op).get m d c .block2)) = none) : pvvCmd id m c d = failWith .inputInvalid id d := by
  simp only [pvvCmd, h]

/-- PVV_GENERATE and PVV_VERIFY with a value (R318). -/
theorem pvvCmd_some {x : List Nat} (h : (decPin c.pkt.pinIn (c.mat 0) c.pan ((payForm c.pkt c.op).get m d c .block)).bind
      (pvvOf (c.mat 1) c.pan ((payForm c.pkt c.op).get m d c .block2)) = some x) :
    pvvCmd id m c d = if c.op == .pvvGenerate then
        okOuts ((payForm c.pkt c.op).put .out0 (unnibs (padTo 12 15 x))) id (holdPay id (unnibs (padTo 12 15 x)) d)
      else failWith (if unnibs (padTo 12 15 x) == seg ((payForm c.pkt c.op).get m d c .block2) 0x14 6 then .ok else .verifyFail) id
        (holdPay id (unnibs (padTo 12 15 x)) d) := by
  simp only [pvvCmd, h]

end

/-- Settles O52. -/
theorem paymentCommands : Obligations.PaymentCommands := by
  unfold Obligations.PaymentCommands inRole
  intro s id c
  refine ⟨fun ha pin hp => ⟨fun hn => ?_, fun x hx => ?_⟩, fun ha pin hp => ⟨fun hn => ?_, fun x hx => ?_⟩,
      fun ha pin hp => ⟨fun hn => ?_, fun x hx => ?_⟩,
    fun v hv => ⟨fun hn => ⟨fun ha => ?_, fun ha => ?_⟩, fun x y hx hy => ⟨fun ha => ?_, fun ha => ?_⟩⟩,
        fun y hy => ⟨fun ha => ?_, fun ha => ?_⟩, fun y => ?_,
    fun ha k t hk ht => ?_, fun ha r hr hk ht hs hmay => ⟨fun hb => ?_, fun hb hd => ?_, fun hb hd hroom => ?_, fun hb hd hroom => ?_⟩,
    fun ha => ⟨fun hne => ?_, fun he => ?_⟩, fun ha => ?_, fun ha => ?_, fun ha => ?_, fun ha hd hr => ?_,
    fun ha hd hr => ⟨fun hn => ?_, fun h hh fld hfld len alg t u bits_ hlen halg huse hstr hok h8 hl r hrq ht hu hany =>
        ⟨fun hk => ?_, fun hk e he => ?_⟩⟩,
    fun ha e t u need req hk hreq huse => ⟨fun hne => ?_, fun ht hu hany h4 h5 h63 hexp hz n v h kb hn hv hh g hg hkb => ?_⟩⟩
  · subst hn
    refine (execOp_atStep ha).trans ?_
    simp only [← hp]
    rfl
  · subst hx
    refine (execOp_atStep ha).trans ?_
    simp only [← hp]
    rfl
  · subst hn
    refine (execOp_atStep ha).trans ?_
    simp only [dukptTranslate, ← hp]
    rfl
  · subst hx
    refine (execOp_atStep ha).trans ?_
    simp only [dukptTranslate, ← hp]
    rfl
  · subst hn
    refine (execOp_atStep ha).trans ?_
    simp only [dukptTranslate, ← hp]
    rfl
  · subst hx
    refine (execOp_atStep ha).trans ?_
    simp only [dukptTranslate, ← hp]
    rfl
  · exact (execOp_atStep ha).trans (next_dev_congr (pvvCmd_none (hv.symm.trans hn)))
  · exact (execOp_atStep ha).trans (next_dev_congr (pvvCmd_none (hv.symm.trans hn)))
  · subst hy
    exact (execOp_atStep ha).trans (next_dev_congr ((pvvCmd_some (hv.symm.trans hx)).trans (if_pos (by rw [ha.2.1]; rfl))))
  · subst hy
    refine (execOp_atStep ha).trans (next_dev_congr ((pvvCmd_some (hv.symm.trans hx)).trans ((if_neg (by rw [ha.2.1]; decide)).trans ?_)))
    simp only [beq_iff_eq]
  · subst hy
    exact execOp_atStep ha
  · subst hy
    refine (execOp_atStep ha).trans ?_
    simp only [beq_iff_eq]
  · exact holdPay_shares id y s.dev
  · subst hk ht
    refine (execOp_atStep ha).trans ?_
    simp only [beq_iff_eq]
  · subst hr
    refine (execOp_atStep ha).trans ?_
    simp only [ipekRefusal_eq hk ht hs hmay, hb, if_true]
  · subst hr
    refine (execOp_atStep ha).trans ?_
    simp only [ipekRefusal_eq hk ht hs hmay, hb, hd, Bool.false_eq_true, if_false, if_true]
  · subst hr
    refine (execOp_atStep ha).trans ?_
    simp only [ipekRefusal_eq hk ht hs hmay, hb, hd, hroom, Bool.not_false, Bool.false_eq_true, if_false, if_true]
  · subst hr
    refine (execOp_atStep ha).trans ?_
    simp only [ipekRefusal_eq hk ht hs hmay, hb, hd, hroom, Bool.not_true, Bool.false_eq_true, if_false]
  · exact (execOp_atStep ha).trans (next_dev_congr (if_neg (by simpa using hne)))
  · exact (execOp_atStep ha).trans (next_dev_congr (if_pos (by simpa using he)))
  · exact execOp_atStep ha
  · exact execOp_atStep ha
  · refine (execOp_atStep ha).trans ?_
    simp only [beq_iff_eq]
  · refine (execOp_atStep ha).trans ?_
    simp only [kbRefusal, hd, hr, Bool.not_false, Bool.false_eq_true, if_false, if_true]
  · refine (execOp_atStep ha).trans ?_
    simp only [kbRefusal, hd, hr, Bool.not_true, Bool.false_eq_true, if_false, hn]
  · subst hfld hlen hrq ht hu
    refine (execOp_atStep ha).trans (next_dev_congr ?_)
    simp only [kbRefusal, hd, hr, Bool.not_true, Bool.false_eq_true, if_false, hh, halg, Option.bind_some, huse, Option.map_some]
    refine (if_neg (by simp [hstr, hok, h8, hl]; exact hany)).trans (if_pos (Option.isSome_iff_ne_none.mpr hk))
  · subst hfld hlen hrq ht hu he
    refine (execOp_atStep ha).trans (next_dev_congr ?_)
    simp only [kbRefusal, hd, hr, Bool.not_true, Bool.false_eq_true, if_false, hh, halg, Option.bind_some, huse, Option.map_some]
    refine (if_neg (by simp [hstr, hok, h8, hl]; exact hany)).trans ?_
    simp only [hk, Option.isSome_none, Bool.false_eq_true, if_false]
  · subst hreq
    refine (execOp_atStep ha).trans (next_dev_congr ?_)
    simp only [hk, huse]
    refine if_pos ?_
    rcases hne with h | h <;> simp [h]
  · subst hreq hn hv hh hg hkb ht hu
    refine (execOp_atStep ha).trans (next_dev_congr ?_)
    simp only [hk, huse]
    refine (if_neg (by simp [h4, h5, h63, hz]; exact ⟨hany, fun h1 h2 => (hexp.resolve_left h1).resolve_left h2⟩)).trans ?_
    simp only [ge_iff_le]

end Sys2Proof.Machine
end

section
/-!
SUPPORT. Microcode: loads, bank switches, microwords, module jobs (R419 to R438 [15]).
-/
namespace Sys2Proof.Machine

/-! The rows of the sequencers (R422). -/

/-- COND of the manual decides without a draw (R423). -/
theorem condOf_manual {w : BitVec 160} (h : mwCond w ≤ 5) (x : MicroCtx) (d : Dev) : condOf w x d = ((condOf w x d).1, d) := by
  unfold condOf
  generalize mwCond w = n at h
  obtain rfl | rfl | rfl | rfl | rfl | rfl : n = 0 ∨ n = 1 ∨ n = 2 ∨ n = 3 ∨ n = 4 ∨ n = 5 := by omega
  all_goals rfl

/-- A context that executes a word of a form does what the row's form says. -/
theorem microRun_of_executes {sq : Fin 32} {cx : Fin 64} {w : BitVec 160} {x : MicroCtx} {c : Cmd} {d : Dev} {form : Nat}
    (h : Executes d (64 * sq.val + cx.val) x c w form) {forms : List Nat} (hf : form ∈ forms) (f : Nat → Cmd → MicroCtx → Dev → Dev) :
    microRun sq cx w forms f d = f (64 * sq.val + cx.val) c (issue w (aluStep w x)) d := by
  obtain ⟨hx, hc, hform, hend, hrun, hword, halive, hstart, hgood⟩ := h
  have hsame : (wordAt d c x.next).any (· != w) = false := by
    rcases hword with hw | hw <;> simp [hw]
  have hin : forms.contains (mwForm w) = true := by simpa [hform] using hf
  simp only [microRun, hx, hc, hin, hend, hrun, hsame, halive, hstart, hgood, Option.isSome_none, bne_self_eq_false, Bool.not_true, Bool.or_self,
    Bool.false_eq_true, if_false]

/-- The ALU and the unit part leave the stack and the address. -/
theorem issue_keeps (w : BitVec 160) (x : MicroCtx) :
    (issue w (aluStep w x)).stack = x.stack ∧ (issue w (aluStep w x)).next = x.next := by
  unfold issue
  split <;> exact ⟨rfl, rfl⟩

section
variable {s : State} {sq : Fin 32} {cx : Fin 64} {w : BitVec 160} {x : MicroCtx} {c : Cmd} {form : Nat}

/-- A sequential word or a branch (R422). -/
theorem microword_goes (h : Executes s.dev (64 * sq.val + cx.val) x c w form) (hf : form ≤ 2) (hw : mwCond w ≤ 5) :
    Gives (.microword sq cx w) s (goTo (64 * sq.val + cx.val) c (issue w (aluStep w x))
      (if (form == 1 && (condOf w (issue w (aluStep w x)) s.dev).1) || (form == 2 && !(condOf w (issue w (aluStep w x)) s.dev).1)
        then mwNext w else (issue w (aluStep w x)).next + 1) s.dev) := by
  have hform : mwForm w = form := h.2.2.1
  have hin : form ∈ [0, 1, 2] := by
    simp only [List.mem_cons, List.not_mem_nil, or_false]
    omega
  obtain ⟨b, hb⟩ : ∃ b, condOf w (issue w (aluStep w x)) s.dev = (b, s.dev) := ⟨_, condOf_manual hw _ _⟩
  refine next_dev_congr ((microRun_of_executes h hin _).trans ?_)
  simp only [hb, hform]

end

/-- An END form of a module job that met no DMA error (R436). -/
theorem endJob_module {k : Nat} {c : Cmd} {x : MicroCtx} {ok : Bool} {d : Dev} (ho : c.op = .moduleOp) (he : c.dmaErr = none) :
    endJob k c x ok d = if ok then okOuts (d.job c.id).holding c.id (setCtx k { x with ended := some ok } d)
      else failWith .invariantFail c.id (setCtx k { x with ended := some ok } d) := by
  simp only [endJob, ho, he, bne_self_eq_false, Bool.false_eq_true, if_false]
  rfl

/-! POLICY_LOAD (R452). -/

section
variable {s : State} {k : Nat} {c : Cmd}

/-- An image that a check refuses. -/
theorem policyLoad_refused (ha : AtStep s k .policyLoad c) (hh : s.dev.cmds.any (fun e => e.stage == .hooked) = false) {st : Status}
    (hst : polRefused s.dev (inp s.mem s.dev c 0) (inp s.mem s.dev c 1) = some st) : Ends (.policyLoad k) s k st := by
  show execPolicyLoad k s = _
  simp only [execPolicyLoad, onBoth, ha.1, hh, hst, Option.isSome_some, Bool.or_true, Bool.false_eq_true, if_false, if_true, runCmd_atStep ha,
    Option.getD_some]

/-- An image that passes them. -/
theorem policyLoad_takes (ha : AtStep s k .policyLoad c) (hh : s.dev.cmds.any (fun e => e.stage == .hooked) = false)
    (hp : polRefused s.dev (inp s.mem s.dev c 0) (inp s.mem s.dev c 1) = none) :
    GivesBoth (.policyLoad k) s (failWith .ok k (modLinen (fun l => { l with
        policy := if field (inp s.mem s.dev c 0) 4 4 = 0 then none else some (polModule (inp s.mem s.dev c 0)), hookFaults := 0 }) s.dev),
      { s.mem with
        dram := memClear s.mem.dram 0x6000 0x2000
        iram := putWords s.mem.iram 0xE000 (seg (inp s.mem s.dev c 0) 64 (2 * field (inp s.mem s.dev c 0) 4 4)) }) := by
  obtain ⟨hc, hop, hcan, hdma, htag, _⟩ := id ha
  have hgood : (c.op == .policyLoad && canRun s.mem s.dev c && c.dmaErr.isNone && !inputTagFail s.dev c) = true := by
    rw [hop, hcan, hdma, htag]
    rfl
  show execPolicyLoad k s = _
  simp only [execPolicyLoad, onBoth, hc, hh, hp, hgood, Option.isSome_none, Bool.not_true, Bool.or_self, Bool.false_eq_true, if_false,
    runCmd_atStep ha]

end

/-- Settles O53. -/
theorem microcodeImagesAndWords : Obligations.MicrocodeImagesAndWords := by
  unfold Obligations.MicrocodeImagesAndWords input
  refine ⟨fun s id c => ⟨fun ha => ⟨fun st hst => ?_, fun hp hk => ?_, fun hp hk => ?_⟩, fun ha => ⟨fun st hst => ?_, fun hp => ?_⟩,
      fun ha hh => ⟨fun st hst => ?_, fun hp mem hmem => ?_⟩, fun ext hbad => ?_, fun hfl => ?_,
      fun hr hal hfl k hk i up hi hup rev hrev n hn => ⟨fun hu => ?_, fun hu => ?_⟩, fun hal hlc k svn hfl i hi => ?_, fun hal hlc hfl hfu => ?_,
      fun hr hal k hk => ?_, ?_⟩,
    fun s sq cx w x c k hk => ⟨fun h hw => ?_, fun h hw => ?_, fun h hw => ?_, fun h hs => ?_, fun h hs => ?_, fun h hs => ?_, fun a st h hs => ?_,
      fun h => ?_, fun h ho he => ?_, fun h ho he => ?_, fun hx => ?_, fun id e j he hj entry hm ho hr hout hst => ?_,
      fun id e he ho hr hout hend => ?_, fun a hlt hm => ?_, fun a e he hlt => ?_, fun a hge hm => ?_⟩⟩
  · refine (execOp_atStep ha).trans ?_
    simp only [hst]
  · refine (execOp_atStep ha).trans ?_
    simp only [hp, hk, Bool.not_false, if_true]
  · refine (execOp_atStep ha).trans ?_
    simp only [hp, hk, Bool.not_true, Bool.false_eq_true, if_false]
  · refine (execOp_atStep ha).trans ?_
    simp only [hst]
  · refine (execOp_atStep ha).trans ?_
    simp only [hp]
  · exact policyLoad_refused ha (by simpa using hh) hst
  · subst hmem
    exact policyLoad_takes ha (by simpa using hh) hp
  · refine next_dev_congr (if_pos ?_)
    rcases hbad with h | h <;> simp [h]
  · exact next_dev_congr (if_pos (by simp [hfl]))
  · subst hi hn hrev
    refine next_dev_congr ((if_neg (by simp [hr, hal, hfl])).trans ?_)
    simp only [hk, switchVendor, ← hup, hu, Bool.false_eq_true, if_false]
    rfl
  · subst hi hn hrev
    refine next_dev_congr ((if_neg (by simp [hr, hal, hfl])).trans ?_)
    simp only [hk, switchVendor, ← hup, hu, if_true]
    rfl
  · subst hi
    refine next_dev_congr ((if_neg (by simp [hal])).trans ?_)
    simp only [hlc, hfl]
    rfl
  · refine next_dev_congr ((if_neg (by simp [hal])).trans ?_)
    simp only [hlc, hfl, hfu]
  · refine next_dev_congr ((if_neg (by simp [hr, hal])).trans ?_)
    simp only [hk]
    rfl
  · refine next_dev_congr ?_
    simp only [Bool.or_eq_true]
  · subst hk
    exact microword_goes h (by decide) hw
  · subst hk
    simpa using microword_goes h (by decide) hw
  · subst hk
    have hgo := microword_goes h (by decide) hw
    cases hb : (condOf w (issue w (aluStep w x)) s.dev).1 <;> simpa [hb] using hgo
  · subst hk
    refine next_dev_congr ((microRun_of_executes h (by decide) _).trans ((if_neg ?_).trans ?_))
    · rw [(issue_keeps w x).1]
      omega
    · rw [(issue_keeps w x).1, (issue_keeps w x).2]
  · subst hk
    exact next_dev_congr ((microRun_of_executes h (by decide) _).trans (if_pos ((issue_keeps w x).1.symm ▸ hs)))
  · subst hk
    refine next_dev_congr ((microRun_of_executes h (by decide) _).trans ?_)
    rw [(issue_keeps w x).1, hs]
    rfl
  · subst hk
    refine next_dev_congr ((microRun_of_executes h (by decide) _).trans ?_)
    rw [(issue_keeps w x).1, hs]
  · subst hk
    exact next_dev_congr (microRun_of_executes h (by decide) _)
  · subst hk
    refine next_dev_congr ((microRun_of_executes h (by decide) _).trans ?_)
    exact endJob_module ho he
  · subst hk
    refine next_dev_congr ((microRun_of_executes h (by decide) _).trans ?_)
    exact endJob_module ho he
  · subst hk
    refine next_dev_congr ?_
    simp only [hx]
  · refine next_dev_congr ?_
    simp [he, hj, hm, ho, hr, hout, hst]
  · refine next_dev_congr ?_
    simp [he, ho, hr, hout, hend]
  · simp only [goTo, redirect, hm, List.find?_nil, Option.map_none, Option.getD_none]
    exact if_neg (by omega)
  · simp only [goTo, redirect, he, Option.map_some, Option.getD_some]
    exact if_neg (by omega)
  · simp only [goTo, redirect, hm, List.find?_nil, Option.map_none, Option.getD_none]
    exact if_pos hge

end Sys2Proof.Machine
end

section
/-!
SUPPORT. The raw primitives of module jobs (R210, R211 [06]; R283, R284 [09]; R423, R437 [15]).
-/
namespace Sys2Proof.Machine

@[simp] theorem length_fit (n : Nat) (b : Bytes) : (fit n b).length = n := by
  simp only [fit, zeros, List.length_append, List.length_take, List.length_replicate]
  omega

theorem cdiv_mono {a b : Nat} (h : a ≤ b) (n : Nat) : cdiv a n ≤ cdiv b n := Nat.div_le_div_right (by omega)

/-- The first bytes of a longer fit. -/
theorem take_fit {n k : Nat} (h : n ≤ k) (b : Bytes) : (fit k b).take n = fit n b := by
  simp only [fit, zeros, List.take_append, List.take_take, List.take_replicate, List.length_take]
  congr 2 <;> omega

/-! A primitive of a job that may use its unit (R438). -/

section
variable {s : State} {id : Nat} {c : Cmd} {k : UnitClass} {f : Cmd → JobMem → Dev → Option (JobMem × Dev)}

theorem primitive_some (h : Acts s.dev id c k) {j : JobMem} {d : Dev} (hf : f c (s.dev.job id) s.dev = some (j, d)) :
    primitive k id f s = .next { s with dev := setJob id j d } := by
  obtain ⟨hc, hrun, hunit, halive, hstart⟩ := h
  simp only [primitive, onDev_eq, hc, hrun, hunit, halive, hstart, hf, bne_self_eq_false, Bool.not_true, Bool.or_self, Bool.false_eq_true, if_false]

theorem primitive_none (h : Acts s.dev id c k) (hf : f c (s.dev.job id) s.dev = none) :
    primitive k id f s = .next { s with dev := jobFault id s.dev } := by
  obtain ⟨hc, hrun, hunit, halive, hstart⟩ := h
  simp only [primitive, onDev_eq, hc, hrun, hunit, halive, hstart, hf, bne_self_eq_false, Bool.not_true, Bool.or_self, Bool.false_eq_true, if_false]

end

/-! A DMA primitive of a job that holds an engine (R423, R437 [15]). -/

section
variable {s : State} {id : Nat} {c : Cmd} {f : Memory → Cmd → JobMem → Dev → Option (JobMem × Dev)}
  (hc : findCmd s.dev id = some c) (hrun : c.stage = .running) (hunits : c.units ≠ []) (halive : s.dev.alive = true)
  (hstart : notStarted s.dev c = false)
include hc hrun hunits halive hstart

theorem dmaPrim_some {j : JobMem} {d : Dev} (hf : f s.mem c (s.dev.job id) s.dev = some (j, d)) :
    dmaPrim id f s = .next { s with dev := setJob id j d } := by
  have hunit : c.units.isEmpty = false := by simpa using hunits
  simp only [dmaPrim, onDevM_eq, hc, hrun, hunit, halive, hstart, hf, bne_self_eq_false, Bool.not_true, Bool.or_self, Bool.false_eq_true, if_false]

theorem dmaPrim_none (hf : f s.mem c (s.dev.job id) s.dev = none) : dmaPrim id f s = .next { s with dev := jobFault id s.dev } := by
  have hunit : c.units.isEmpty = false := by simpa using hunits
  simp only [dmaPrim, onDevM_eq, hc, hrun, hunit, halive, hstart, hf, bne_self_eq_false, Bool.not_true, Bool.or_self, Bool.false_eq_true, if_false]

end

/-! Shares (R182 [06]). -/

/-- Three shares at order 2: two drawn, and what is left. -/
theorem sharesOf_two (b : Bytes) (d : Dev) :
    sharesOf b 2 d = ([(draw b.length d).1, (draw b.length (draw b.length d).2).1,
      xorB (xorB b (draw b.length d).1) (draw b.length (draw b.length d).2).1], (draw b.length (draw b.length d).2).2) := by
  have hlen : (xorB b (draw b.length d).1).length = b.length := by
    simp only [xorB, List.length_zipWith, draw, length_freeBytes, Nat.min_self]
  simp only [sharesOf, xorShares, hlen]
  rfl

/-! The slots of a Damask core. -/

/-- A run of entries of a table put one by one. -/
theorem tget_foldl_tset {α : Type} (d : α) (g : Nat → α) (m : TMap α) (a n i : Nat) :
    tget d ((List.range n).foldl (fun t x => tset t (a + x) (g x)) m) i = if a ≤ i ∧ i < a + n then g (i - a) else tget d m i := by
  induction n with
  | zero => exact (if_neg (by omega)).symm
  | succ n ih =>
    rw [List.range_succ, List.foldl_append, List.foldl_cons, List.foldl_nil]
    by_cases hi : i = a + n
    · rw [hi, tget_tset_same, if_pos (by omega), Nat.add_sub_cancel_left]
    · rw [tget_tset_other _ _ _ _ _ hi, ih]
      exact ite_congr (propext (by omega)) (fun _ => rfl) (fun _ => rfl)

/-- A job's memory after a slot is written (R210). -/
def putSlot (a : Nat) (b : Bytes) (j : JobMem) : JobMem := { j with slots := tset j.slots a (fit 1024 (seg b 0 1024)) }

/-- What a job's slot holds. -/
def slotOf (j : JobMem) (a : Nat) : Bytes := fit 1024 (tget [] j.slots a)

theorem getSlots_one (j : JobMem) (a : Fin 64) : getSlots j a 1 = some (slotOf j a) :=
  (if_pos (by omega)).trans (congrArg some (List.append_nil _))

theorem putSlots_one (a : Fin 64) {b : Bytes} (hb : b.length = 1024) (j : JobMem) : putSlots a b j = some (putSlot a b j) := by
  simp only [putSlots, hb]
  exact if_pos (by simp only [cdiv]; omega)

/-- Only the slots are written. -/
theorem putSlots_keeps {a : Nat} {b : Bytes} {j k : JobMem} (h : putSlots a b j = some k) : ∃ t, k = { j with slots := t } := by
  simp only [putSlots] at h
  split at h
  · exact ⟨_, (Option.some.inj h).symm⟩
  · exact absurd h (by simp)

theorem length_packCoefs (m : Modulus) (l : List Nat) : (packCoefs m l).length = coefBytes m * l.length := by
  induction l with
  | nil => rfl
  | cons x l ih =>
    rw [packCoefs, List.flatMap_cons, List.length_append, length_leBytes, ← packCoefs, ih, List.length_cons, Nat.mul_succ, Nat.add_comm]

/-- Coefficient by coefficient, two slots give one. -/
theorem length_packCoefs_zipWith (m : Modulus) (f : Nat → Nat → Nat) {x y : Bytes} (hx : x.length = 1024) (hy : y.length = 1024) :
    (packCoefs m (List.zipWith f (coefs m x) (coefs m y))).length = 1024 := by
  simp only [length_packCoefs, coefs, List.length_zipWith, List.length_map, List.length_range, hx, hy, Nat.min_self]
  cases m <;> rfl

@[simp] theorem length_slotOf (j : JobMem) (a : Nat) : (slotOf j a).length = 1024 := length_fit _ _

/-- A transform of a polynomial of one slot. -/
theorem nttOp_one {s : State} {id : Nat} {c : Cmd} (h : Acts s.dev id c .lattice) {m : Modulus} {n : Nat} (hn : slotsFor m n = 1) (inv : Nat)
    {a : Fin 64} : nttOp inv id a m n s = .next { s with
      dev := setJob id (putSlot a (std .ntt 1024 [inv, modQ m, n] [slotOf (s.dev.job id) a]) (s.dev.job id)) s.dev } := by
  refine primitive_some h ?_
  simp only [hn, getSlots_one, Option.bind_eq_bind, Option.bind_some, Option.pure_def, length_slotOf]
  rw [putSlots_one]
  · rfl
  · exact length_fit _ _

/-- What the slots hold after bytes are put. -/
theorem tget_putSlots {a : Nat} {b : Bytes} {j k : JobMem} (h : putSlots a b j = some k) (i : Nat) :
    tget [] k.slots i = if a ≤ i ∧ i < a + cdiv b.length 1024 then fit 1024 (seg b (1024 * (i - a)) 1024) else tget [] j.slots i := by
  simp only [putSlots] at h
  split at h
  · rw [← Option.some.inj h]
    exact tget_foldl_tset [] (fun x => fit 1024 (seg b (1024 * x) 1024)) j.slots a _ i
  · exact absurd h (by simp)

theorem putSlots_none (a : Nat) (b : Bytes) (j : JobMem) : putSlots a b j = none ↔ 64 < a + cdiv b.length 1024 := by
  simp only [putSlots]
  split <;> simp <;> omega

/-- The rate that a Keccak unit keeps as its 201st byte. -/
theorem rate_of_drop {k : Bytes} {rate : Nat} (hr : rate ≤ 200) (h : k.drop 200 = leBytes 1 rate) : field k 200 1 = rate := by
  simp only [field, seg, h, leBytes, List.take, leNat, BitVec.toNat_ofNat]
  omega

/-- Settles O54. -/
theorem primitives : Obligations.Primitives := by
  unfold Obligations.Primitives
  intro s id c
  refine ⟨fun h a b e m n hn r => ⟨fun hr => ?_, fun sub hr => ?_⟩, fun h a e m n eta x hn => ⟨?_, ?_, ?_, ?_⟩,
    fun h unit a rate count h1 h2 h3 h4 => ⟨fun st hst => ?_, fun r hr k hk hrate => ?_⟩, fun a b k hk => ⟨?_, ?_, fun i => ?_⟩, fun a b => ?_,
    fun h a count k hk => ?_, fun h a count hover => ?_, fun h k a hk => ?_, fun h k a e hk g hg m hm => ?_,
        fun b => ⟨?_, fun r hr => ⟨?_, fun q hq => ?_⟩⟩,
    fun h n a b e ha hb he u v hu hv => ⟨?_, ?_, fun g hg => ?_, ?_, fun hbit => ?_, fun hbit => ?_, fun hw hodd => ⟨?_, ?_⟩, fun hw hz => ⟨?_, ?_⟩,
      fun k ent i v hk hcomp hwords => ?_⟩, fun h n e he => ⟨?_, ?_, ?_, fun b => ⟨?_, ?_, ?_, ?_⟩⟩,
    fun hc hrun hunits halive hstart i x len => ⟨fun hi => ?_, fun hd hi hl hspace => ⟨fun b hout hdma hin => ?_, fun hout b hb => ?_⟩⟩⟩
  · subst hr
    show execPmul id a b e m n s = _
    refine primitive_some h ?_
    simp only [hn, getSlots_one, Option.bind_eq_bind, Option.bind_some, Option.pure_def, length_slotOf]
    rw [putSlots_one]
    · rfl
    · split
      · exact length_fit _ _
      · exact length_packCoefs_zipWith m _ (length_slotOf _ _) (length_slotOf _ _)
  · subst hr
    show execPaddPsub id sub a b e m n s = _
    refine primitive_some h ?_
    simp only [hn, getSlots_one, Option.bind_eq_bind, Option.bind_some, Option.pure_def]
    rw [putSlots_one]
    · rfl
    · exact length_packCoefs_zipWith m _ (length_slotOf _ _) (length_slotOf _ _)
  · exact nttOp_one h hn 0
  · exact nttOp_one h hn 1
  · show execSampleUniform id x e m s = _
    refine primitive_some h ?_
    simp only [Option.bind_eq_bind, Option.pure_def]
    rw [putSlots_one]
    · rfl
    · exact length_fit _ _
  · show execSampleCbd id eta a e m s = _
    refine primitive_some h ?_
    simp only [getSlots_one, Option.bind_eq_bind, Option.bind_some, Option.pure_def]
    rw [putSlots_one]
    · rfl
    · exact length_fit _ _
  · subst hst
    show execKeccakAbsorb id unit rate a count s = _
    refine primitive_some h ?_
    have hslots : cdiv count 1024 = 1 := by simp only [cdiv]; omega
    have hrate : min 200 (max 1 rate) = rate := by omega
    simp only [hslots, hrate, getSlots_one, Option.bind_eq_bind, Option.bind_some, Option.pure_def]
    rfl
  · subst hr
    show execKeccakSqueeze id unit a count s = _
    refine primitive_some h ?_
    have hfield := rate_of_drop h2 hrate
    have hmax : max 1 rate = rate := by omega
    simp only [hfield, hmax, take_fit (show 200 ≤ 201 by decide), hk, hrate, Option.bind_eq_bind, Option.bind_some, Option.pure_def]
  · obtain ⟨slots, rfl⟩ := putSlots_keeps hk
    rfl
  · obtain ⟨slots, rfl⟩ := putSlots_keeps hk
    rfl
  · exact tget_putSlots hk i
  · exact putSlots_none a b _
  · show execDamaskZero id a count s = _
    refine primitive_some h ?_
    simp only [hk, Option.bind_eq_bind, Option.bind_some, Option.pure_def]
  · show execDamaskZero id a count s = _
    refine primitive_none h ?_
    have hnone := (putSlots_none a (zeros (1024 * count)) (s.dev.job id)).mpr (by simp only [zeros, List.length_replicate, cdiv]; omega)
    simp only [hnone, Option.bind_eq_bind, Option.bind_none]
  · show execKeyShares id k a s = _
    refine primitive_none h ?_
    simp only [hk, Option.bind_eq_bind, Option.bind_none]
  · subst hg
    show execKeyShares id k a s = _
    refine primitive_some h ?_
    simp only [hk, hm, Option.bind_eq_bind, Option.bind_some, Option.pure_def]
  · exact if_pos rfl
  · subst hr
    rfl
  · subst hr hq
    exact sharesOf_two b s.dev
  · subst hu
    show execSetModulus id a n s = _
    exact primitive_some h (if_pos ha)
  · subst hu hv
    show execMac id a b n s = _
    exact primitive_some h (if_pos (by simp only [ha, hb, Bool.and_self]))
  · subst hg
    show execSergeRandom id e n s = _
    exact primitive_some h (if_pos he)
  · show execSergeZero id e n s = _
    exact primitive_some h (if_pos he)
  · subst hu hv
    show execCswap id a b n s = _
    refine primitive_some h ((if_pos (by simp only [ha, hb, Bool.and_self])).trans ?_)
    simp only [hbit, if_true]
  · show execCswap id a b n s = _
    refine primitive_some h ((if_pos (by simp only [ha, hb, Bool.and_self])).trans ?_)
    simp only [hbit]
    rfl
  · subst hw hu hv
    show montOp id a b e s = _
    refine primitive_some h ((if_pos hodd).trans (if_pos ?_))
    simp only [ha, hb, he, Bool.and_self]
  · subst hw hu
    show montOp id a a e s = _
    refine primitive_some h ((if_pos hodd).trans (if_pos ?_))
    simp only [ha, he, Bool.and_self]
  · subst hw hu hv
    show execAddModSubMod id false a b e s = _
    refine primitive_some h ((if_neg hz).trans (if_pos ?_))
    simp only [ha, hb, he, Bool.and_self]
  · subst hw hu hv
    show execAddModSubMod id true a b e s = _
    refine primitive_some h ((if_neg hz).trans (if_pos ?_))
    simp only [ha, hb, he, Bool.and_self]
  · subst hwords
    show execKeyOperand id k i e s = _
    refine primitive_some h ?_
    simp only [hk, hcomp, he, Option.bind_eq_bind, Option.bind_some, if_true]
  · show execSergeZero id e n s = _
    exact primitive_none h (if_neg (by simp [he]))
  · show execSetModulus id e n s = _
    exact primitive_none h (if_neg (by simp [he]))
  · show execSergeRandom id e n s = _
    exact primitive_none h (if_neg (by simp [he]))
  · show execMac id e b n s = _
    exact primitive_none h (if_neg (by simp [he]))
  · show execMac id b e n s = _
    exact primitive_none h (if_neg (by simp [he]))
  · show execCswap id e b n s = _
    exact primitive_none h (if_neg (by simp [he]))
  · show execCswap id b e n s = _
    exact primitive_none h (if_neg (by simp [he]))
  · show execDmaReadDescriptor id i x len s = _
    exact dmaPrim_none hc hrun hunits halive hstart (if_pos (by simp [hi]))
  · show execDmaReadDescriptor id i x len s = _
    refine dmaPrim_some hc hrun hunits halive hstart ((if_neg ?_).trans ?_)
    · simp [hout]
      omega
    · simp only [hdma, hin, putMem, hd, Bool.false_eq_true, if_false]
      have hfits : x + cdiv (b.take len).length 8 ≤ operandSpace c :=
        Nat.le_trans (Nat.add_le_add_left (cdiv_mono (List.length_take_le _ _) 8) x) hspace
      simp only [if_pos hfits, Option.map_some]
  · subst hb
    show execDmaWriteHolding id i x len s = _
    refine dmaPrim_some hc hrun hunits halive hstart ((if_neg ?_).trans ?_)
    · simp [hout]
      omega
    · simp only [getMem, hd, hspace, Bool.false_eq_true, if_false, if_true, Option.map_some]

end Sys2Proof.Machine
end

section
/-!
SUPPORT. The DMA engine's manager channels, scratch banks, zeroisation, power domains (R460 to R480 [17], R488 [18]).
-/
namespace Sys2Proof.Machine

/-- What reads of a memory give after a range was zeroed. -/
theorem memGet_memClear {k : Nat} {m : List (Nat × BitVec k)} (h : memWf m = true) (lo n a : Nat) :
    memGet (memClear m lo n) a = if lo ≤ a ∧ a < lo + n then 0 else memGet m a := by
  induction m with
  | nil => exact (ite_self _).symm
  | cons e m ih =>
    obtain ⟨b, v⟩ := e
    have htail := ih (memWf_tail h)
    by_cases hb : lo ≤ b ∧ b < lo + n
    · have hgone : memClear ((b, v) :: m) lo n = memClear m lo n := by simp [memClear, hb]
      rw [hgone, htail]
      by_cases ha : lo ≤ a ∧ a < lo + n
      · rw [if_pos ha, if_pos ha]
      · rw [if_neg ha, if_neg ha, memGet]
        have hne : a ≠ b := fun hab => ha (hab ▸ hb)
        rw [if_neg hne]
        split
        · next hlt => exact memGet_below h (Nat.le_of_lt hlt)
        · rfl
    · have hstays : memClear ((b, v) :: m) lo n = (b, v) :: memClear m lo n := by
        exact List.filter_cons_of_pos (by simp only [Bool.not_eq_true', Bool.and_eq_false_iff, decide_eq_false_iff_not]; omega)
      rw [hstays, memGet, memGet, htail]
      by_cases hab : a = b
      · rw [if_pos hab, if_pos hab, if_neg (hab ▸ hb)]
      · rw [if_neg hab, if_neg hab]
        split <;> simp

/-! A manager channel (R461 to R470). -/

/-- A change of a channel is judged by what it makes of that channel. -/
theorem modChan_congr {c : Nat} {d : Dev} {f g : Channel → Channel} (h : f (d.chan c) = g (d.chan c)) : modChan c f d = modChan c g d := by
  unfold modChan
  rw [h]

@[simp] theorem chan_modChan (c : Nat) (f : Channel → Channel) (d : Dev) : (modChan c f d).chan c = f (d.chan c) := tget_tset_same _ _ _ _

/-- A channel started (R469). -/
def started (c : Nat) (d : Dev) : Dev :=
  modChan c (fun h => { h with st := .running, cur := h.head, desc := [], staged := [], stagedOther := [], mismatch := false }) d

theorem chanGo_starts {c : Nat} {d : Dev} (hc : 56 ≤ c) (hr : d.reachable = true) (hs : (d.chan c).st = .idle)
    (hp : d.prot.pendingFc.getLsbD (272 + c) = false) : chanGo c d = started c d :=
  if_pos (by simp [hc, hr, hs, hp])

/-- A channel just started runs while DMA is not held. -/
theorem chanRuns_started {c : Nat} (hc : 56 ≤ c) (d : Dev) : chanRuns (started c d) c = !d.dmaHeld := by
  have hst : ((started c d).chan c).st = .running := by rw [started, chan_modChan]
  have hheld : (started c d).dmaHeld = d.dmaHeld := rfl
  simp only [chanRuns, hst, hheld, hc, decide_true, beq_self_eq_true, Bool.true_and]

theorem fit_self {n : Nat} {b : Bytes} (h : b.length = n) : fit n b = b := by
  subst h
  simp [fit, zeros]

/-- A descriptor that R462 refuses halts the channel with ERR 3. -/
theorem chanTake_bad {c : Nat} {b : Bytes} (hl : b.length = 32) (hb : descError b = true) (d : Dev) :
    chanTake c (.data b) d = raisePf0 (440 + c) (modChan c (fun x => { x with st := .halted, err := 3 }) d) := by
  simp only [chanTake, fit_self hl, hb, if_true, chanHalt]
  exact congrArg (raisePf0 (440 + c)) (modChan_congr rfl)

/-- Any other is taken. -/
theorem chanTake_good {c : Nat} {b : Bytes} (hl : b.length = 32) (hb : descError b = false) (d : Dev) :
    chanTake c (.data b) d = modChan c (fun x => { x with
      desc := b, staged := [], stagedOther := [], count := if dOp b = 1 then 0 else dCount b }) d := by
  simp only [chanTake, fit_self hl, hb, Bool.false_eq_true, if_false]

/-- Host memory is open to every channel (R463). -/
@[simp] theorem accessErr_host (d : Dev) (c a : Nat) : accessErr d c 0 a = 0 := rfl

@[simp] theorem length_fillBytes (k a n : Nat) : (fillBytes k a n).length = n := by
  simp only [fillBytes, List.length_map, List.length_range]

/-- The fill of a descriptor into host memory, all of it written (R464). -/
theorem chanFinish_fill {c : Nat} {next : Option DmaRead} {n : Nat} {d : Dev} {m : Memory} {x : Bytes} (hspace : dDstSpace (d.chan c).desc = 0)
    (hx : x.length = dCount (d.chan c).desc) (hpos : 0 < dCount (d.chan c).desc) :
    chanFinish c x 0 .ok n next (d, m) = (chanNext c next (emit (.hostWrite none (dDst (d.chan c).desc) x) d), m) := by
  have hall : seg x 0 (dCount (d.chan c).desc) = x := by simp [seg, ← hx]
  have hne : x.isEmpty = false := by
    cases x with
    | nil => exact absurd hx (by simpa using Nat.ne_of_lt hpos)
    | cons b x => rfl
  simp only [chanFinish, if_true, Nat.sub_zero, hall, putAt, hne, Bool.false_eq_true, if_false, hspace, Nat.add_zero]

/-! The first difference of two ranges (R464). -/

theorem firstDiff_none {x y : Bytes} (h : x.length = y.length) : firstDiff x y = none ↔ x = y := by
  induction x generalizing y with
  | nil => cases y <;> simp_all [firstDiff]
  | cons a x ih =>
    cases y with
    | nil => exact absurd h (by simp)
    | cons b y =>
      have htail := ih (y := y) (by simpa using h)
      by_cases hab : a = b
      · simp [firstDiff, hab, htail]
      · simp [firstDiff, hab]

theorem firstDiff_some {x y : Bytes} (h : x.length = y.length) {i : Nat} (hi : firstDiff x y = some i) :
    x[i]? ≠ y[i]? ∧ ∀ j, j < i → x[j]? = y[j]? := by
  induction x generalizing y i with
  | nil => cases y <;> simp [firstDiff] at hi
  | cons a x ih =>
    cases y with
    | nil => exact absurd h (by simp)
    | cons b y =>
      by_cases hab : a = b
      · simp only [firstDiff, hab, if_true, Option.map_eq_some_iff] at hi
        obtain ⟨k, hk, rfl⟩ := hi
        obtain ⟨hne, hbefore⟩ := ih (by simpa using h) hk
        refine ⟨by simpa using hne, fun j hj => ?_⟩
        cases j with
        | zero => simp [hab]
        | succ j => simpa using hbefore j (by omega)
      · simp only [firstDiff, hab, if_false, Option.some.injEq] at hi
        subst hi
        exact ⟨by simpa using hab, fun j hj => absurd hj (by omega)⟩

/-- Settles O55. -/
theorem dmaMemoriesDomains : Obligations.DmaMemoriesDomains := by
  unfold Obligations.DmaMemoriesDomains
  refine ⟨fun s c b => ⟨fun hno r => ?_, fun hc hr hi hp e he => ⟨fun hh r => ?_, fun hh hl => ⟨fun hb => ?_, fun hb => ?_⟩⟩, fun hno => ?_,
      fun hc hr hs => ?_, fun hc hr hs => ?_, fun hno wr n next => ?_, fun hr hd hop hsp wr next hwr hpos => ?_, fun k a n i hi => ?_,
      fun hr hd hop hs hd' hl1 hl2 wr n next => ?_, fun x y hxy => ⟨firstDiff_none hxy, fun i hi => firstDiff_some hxy hi⟩, fun hr hd => ?_,
      fun id i q hh hq hu ho he hn hout hlen hsp hin => ⟨?_, fun a late => ?_⟩⟩,
    fun s b v dom port => ⟨fun hno => ?_, fun hr h1 h2 hn => ⟨fun hw => ?_, fun h0 hw => ?_⟩, fun hw he => ?_, fun hinv lo n a => ⟨?_, ?_⟩,
        fun hno => ?_,
      fun hp z k hk hz e he f hf => ?_, fun z hz => ?_, fun k hk hp hst hoff hout => ?_, fun hno => ?_, fun hw => ?_, fun hw => ?_,
          fun hp hst hb hdown hoff ht => ?_⟩⟩
  · refine next_dev_congr ?_
    rcases hno with h | ⟨hi, h⟩
    · exact if_pos (by simpa using h)
    · have hgo : chanGo c s.dev = s.dev := if_neg (by
        rcases h with h | h | h
        · simp [Nat.not_le.mpr h]
        · simp [h]
        · simp [h])
      have hstopped : chanRuns s.dev c = false := by simp [chanRuns, hi]
      simp only [hi, hgo, hstopped]
      rfl
  · subst he
    refine next_dev_congr ?_
    simp only [hi, chanGo_starts hc hr hi hp, chanRuns_started hc, hh]
    rfl
  · subst he
    refine next_dev_congr ?_
    simp only [hi, chanGo_starts hc hr hi hp, chanRuns_started hc, hh, chanTake_bad hl hb]
    rfl
  · subst he
    refine next_dev_congr ?_
    simp only [hi, chanGo_starts hc hr hi hp, chanRuns_started hc, hh, chanTake_good hl hb]
    rfl
  · refine next_dev_congr (if_pos ?_)
    rcases hno with h | h <;> simp [h]
  · refine next_dev_congr ((if_neg (by simp [hr, hc])).trans (modChan_congr ?_))
    simp only [hs]
  · refine next_dev_congr ((if_neg (by simp [hr, hc])).trans (modChan_congr ?_))
    simp only [hs]
  · show execDmaDescComplete c wr n next s = _
    simp only [execDmaDescComplete, onBoth_eq, hno, Bool.not_false, if_true]
  · subst hwr
    show execDmaDescComplete c .ok 0 next s = _
    have hne : (s.dev.chan c).desc.isEmpty = false := by simpa using hd
    simp only [execDmaDescComplete, onBoth_eq, hr, hne, hop, hsp, accessErr_host, chanFinish_fill hsp (length_fillBytes _ _ _) hpos,
      Bool.not_true, bne_self_eq_false, Bool.false_eq_true, if_false, if_true]
  · simp [fillBytes, hi]
  · show execDmaDescComplete c wr n next s = _
    have hne : (s.dev.chan c).desc.isEmpty = false := by simpa using hd
    have hnot : ¬(2 : Nat) = 1 := by decide
    simp only [execDmaDescComplete, onBoth_eq, hr, hne, hop, hs, hd', hl1, hl2, accessErr_host, chanSource, chanOther, hnot,
      Bool.not_true, bne_self_eq_false, beq_self_eq_true, Bool.false_and, Bool.false_eq_true, if_false, if_true]
  · show execDmaReadCompletion (.chan c true) (.data b) s = _
    have hne : (s.dev.chan c).desc.isEmpty = false := by simpa using hd
    simp only [execDmaReadCompletion, onBoth_eq, hr, hne, chanStage, Bool.not_true, Bool.or_self, Bool.false_eq_true, if_false, if_true]
  · show execDmaReadCompletion (.cmd id i) (.data b) s = _
    simp [execDmaReadCompletion, cmdRead, hh, hq, hu, ho, he, Nat.not_le.mpr hn, hout, hlen, hsp, hin]
  · show execDmaReadCompletion (.cmd id i) (.error a late) s = _
    simp [execDmaReadCompletion, cmdRead, hh, hq, hu, ho, he, Nat.not_le.mpr hn, hout, hlen, hsp, hin]
  · refine next_dev_congr (if_pos ?_)
    rcases hno with h | h | h | h <;> simp [h]
  · refine next_dev_congr ((if_neg (by simp [hr]; omega)).trans (if_pos ?_))
    rcases hw with h | h
    · simp [h]
    · exact Bool.or_eq_true_iff.mpr (.inr h)
  · refine next_dev_congr ((if_neg (by simp [hr]; omega)).trans (if_neg ?_))
    have hbit : bit v.toNat 16 = false := hw
    simp [hbit, h0]
  · show execScrWipeDone b s = _
    simp only [execScrWipeDone, onBoth_eq, hw, he, decide_true, Bool.and_self, if_true]
  · exact memGet_memClear (Memory.wf_scr hinv) lo n a
  · exact memGet_memClear (Memory.wf_hbm hinv) lo n a
  · show execScrWipeDone b s = _
    have hearly : ((s.dev.bank b).wiping && decide ((s.dev.bank b).wipeEnd ≤ s.dev.clk)) = false := by
      rcases hno with h | h <;> simp [h]
    simp only [execScrWipeDone, onBoth_eq, hearly, Bool.false_eq_true, if_false]
  · subst hk he hf
    show execHbmZeroiseDone z s = _
    simp only [execHbmZeroiseDone, onBoth_eq, hz, hp]
    cases z <;> rfl
  · show execHbmZeroiseDone z s = _
    simp only [execHbmZeroiseDone, onBoth_eq, hz]
    rfl
  · refine next_dev_congr ?_
    simp only [hk]
    refine if_pos ?_
    rcases hout with h | ⟨h1, h2, h3⟩
    · simp [hp, hst, h]
      simpa using hoff
    · simp [hp, hst, h1, h2, h3]
      simpa using hoff
  · refine next_dev_congr ?_
    simp only [hno]
  · refine next_dev_congr (if_pos ?_)
    simpa using hw
  · refine next_dev_congr (if_neg ?_)
    simp only [List.any_eq_true, Bool.and_eq_true, beq_iff_eq, decide_eq_true_eq]
    exact fun ⟨t, ht, hdom, hdue⟩ => Nat.not_le.mpr (hw t ht hdom) hdue
  · exact next_dev_congr (if_pos (by simp [hp, hst, hb, hdown, ht]; simpa using hoff))

end Sys2Proof.Machine
end

section
/-!
SUPPORT. Exceptions of the Linen supervisor (R449, R450 [16]).
-/
namespace Sys2Proof.Machine

/-! Taking an exception. -/

/-- A push into local RAM. -/
theorem pushKsp_local {d : Dev} {m : Memory} (v : Word16) (hlo : 1 ≤ d.linen.ksp.toNat) (hhi : d.linen.ksp.toNat ≤ 0x8000) :
    pushKsp v (true, d, m) = (true, modLinen (fun l => { l with ksp := l.ksp - 1 }) d,
      { m with dram := memPut m.dram (d.linen.ksp.toNat - 1) v }) := by
  have haddr : (d.linen.ksp - 1).toNat = d.linen.ksp.toNat - 1 := by bv_omega
  simp only [pushKsp, haddr, Bool.not_true, Bool.false_or, decide_eq_true_eq]
  exact if_neg (by omega)

/-- Data RAM with the three words of an entry entryFrame below `k`. -/
def entryFrame (m : List (Nat × Word16)) (k : Nat) (pc sr repc : Word16) : List (Nat × Word16) :=
  memPut (memPut (memPut m (k - 1) repc) (k - 2) sr) (k - 3) pc

/-- Linen after an entry (R450). -/
def entered (m : Memory) (v kind prio : Nat) (sr repc : Word16) (l : Linen) : Linen :=
  { l with
    ksp := l.ksp - 3, sr := entrySr kind sr, pc := instrRead m ((l.vbr &&& 0xFF80) + BitVec.ofNat 16 v).toNat, repc := repc, rep := none,
    resume := false, waiting := false, nest := prio :: l.nest }

/-- An entry whose frame lies in local RAM. -/
theorem takeException_local {d : Dev} {m : Memory} (v kind prio : Nat) (pc sr repc : Word16) (hlo : 3 ≤ d.linen.ksp.toNat)
    (hhi : d.linen.ksp.toNat ≤ 0x8000) : takeException v kind prio pc sr repc d m =
      (modLinen (entered m v kind prio sr repc) d, { m with dram := entryFrame m.dram d.linen.ksp.toNat pc sr repc }) := by
  have h1 : (d.linen.ksp - 1).toNat = d.linen.ksp.toNat - 1 := by bv_omega
  have h2 : (d.linen.ksp - 1 - 1).toNat = d.linen.ksp.toNat - 2 := by bv_omega
  have h3 : d.linen.ksp - 1 - 1 - 1 = d.linen.ksp - 3 := by bv_omega
  rw [takeException, pushKsp_local repc (by omega) hhi, pushKsp_local sr, pushKsp_local pc]
  · simp only [modLinen, h1, h2, Bool.not_true, Bool.false_eq_true, if_false, entryFrame, Nat.sub_sub, entered, h3]
    rfl
  · simp only [modLinen, h2]
    omega
  · simp only [modLinen, h2]
    omega
  · simp only [modLinen, h1]
    omega
  · simp only [modLinen, h1]
    omega

section
variable {m : List (Nat × Word16)} {k : Nat} {pc sr repc : Word16}

theorem memGet_entryFrame (hm : memWf m = true) (hk : 3 ≤ k) :
    memGet (entryFrame m k pc sr repc) (k - 1) = repc ∧ memGet (entryFrame m k pc sr repc) (k - 2) = sr ∧
      memGet (entryFrame m k pc sr repc) (k - 3) = pc := by
  have h1 := memPut_wf m (k - 1) repc hm
  have h2 := memPut_wf _ (k - 2) sr h1
  refine ⟨?_, ?_, memGet_memPut_same _ _ _ h2⟩
  · rw [entryFrame, memGet_memPut_other _ _ _ _ h2 (by omega), memGet_memPut_other _ _ _ _ h1 (by omega), memGet_memPut_same _ _ _ hm]
  · rw [entryFrame, memGet_memPut_other _ _ _ _ h2 (by omega), memGet_memPut_same _ _ _ h1]

/-- Every other word is as before. -/
theorem memGet_entryFrame_other (hm : memWf m = true) (hk : 3 ≤ k) {a : Nat} (ha : a < k - 3 ∨ k ≤ a) :
    memGet (entryFrame m k pc sr repc) a = memGet m a := by
  have h1 := memPut_wf m (k - 1) repc hm
  have h2 := memPut_wf _ (k - 2) sr h1
  rw [entryFrame, memGet_memPut_other _ _ _ _ h2 (by omega), memGet_memPut_other _ _ _ _ h1 (by omega), memGet_memPut_other _ _ _ _ hm (by omega)]

end

/-- MODE and the enables that an entry leaves (R450). -/
theorem entrySr_bits {kind : Nat} (hk : kind ≤ 2) (sr : Word16) :
    (entrySr kind sr).getLsbD 15 = false ∧ (entrySr kind sr).getLsbD 12 = (sr.getLsbD 12 && kind == 0) ∧
      (entrySr kind sr).getLsbD 13 = (sr.getLsbD 13 && decide (kind ≤ 1)) := by
  obtain rfl | rfl | rfl : kind = 0 ∨ kind = 1 ∨ kind = 2 := by omega
  all_goals simp [entrySr]

end Sys2Proof.Machine
end

section
/-!
SUPPORT. Interrupts, timers, the watchdog and the digest unit (R449 to R458 [16]).
-/
namespace Sys2Proof.Machine

/-! EXCEPTION_ENTRY. -/

section
variable {v : Nat} {d : Dev} {m : Memory}

/-- An interrupt that is next, between instructions or between iterations of a REPI (R448 to R450). -/
theorem interruptEntry_next (h : nextVec d.linen = some v) {pc sr repc : Word16}
    (hs : (d.linen.rep = none ∧ pc = d.linen.pc ∧ sr = d.linen.sr ∧ repc = d.linen.repc) ∨
      (∃ p left, d.linen.rep = some (p, false, left) ∧ pc = BitVec.ofNat 16 p ∧ sr = d.linen.sr ||| 0x0100 ∧ repc = BitVec.ofNat 16 left)) :
    interruptEntry v d m = takeException v (if (v = 64 || highVec d.linen v) then 2 else 1)
      (if v = 64 then 2 else if (v = 64 || highVec d.linen v) then 1 else 0) pc sr repc
      (modLinen (fun l => if v = 64 then { l with nmiPend := false } else { l with ipend := l.ipend &&& ~~~(1#64 <<< v) }) d) m := by
  rcases hs with ⟨hrep, rfl, rfl, rfl⟩ | ⟨p, left, hrep, rfl, rfl, rfl⟩ <;>
    simp only [interruptEntry, savedAt, hrep, h, bne_self_eq_false, Bool.or_self, Bool.false_eq_true, if_false]

theorem interruptEntry_not_next (h : nextVec d.linen ≠ some v) : interruptEntry v d m = (d, m) := by
  have hne : (nextVec d.linen != some v) = true := by simpa using h
  simp only [interruptEntry, hne, Bool.true_or, if_true]

/-- A synchronous exception outside a hook and outside a repetition. -/
theorem syncEntry_plain {pc : Word16} (hrep : d.linen.rep = none) (hh : d.linen.policyMode = false ∨ d.linen.hook = none) :
    syncEntry v pc d m = takeException v 0 3 pc d.linen.sr d.linen.repc d m := by
  have hnot : (d.linen.policyMode && d.linen.hook.isSome) = false := by
    rcases hh with h | h <;> simp [h]
  simp only [syncEntry, savedAt, hrep, hnot, Bool.not_false, if_true]

end

/-- The synchronous vectors that the row takes, outside a hook and outside a repetition. -/
theorem exceptionEntry_sync {s : State} {v : Fin 65} (hp : s.dev.powered = true) (hh : s.dev.linen.halted = false) (hw : s.dev.linen.waiting = false)
    (hrep : s.dev.linen.rep = none) (hhook : s.dev.linen.policyMode = false ∨ s.dev.linen.hook = none)
    (hv : v.val ≤ 3 ∨ (48 ≤ v.val ∧ v.val ≤ 63) ∨ (v.val = 4 ∧ s.dev.linen.policyMode = true ∧ s.dev.linen.pc.toNat < 0xE000)) :
    GivesBoth (.exceptionEntry v) s (takeException v 0 3 (if 48 ≤ v.val then s.dev.linen.pc + 1 else s.dev.linen.pc) s.dev.linen.sr s.dev.linen.repc
      s.dev s.mem) := by
  have hnot : ((decide (16 ≤ v.val) && decide (v.val ≤ 26)) || decide (v.val = 64)) = false := by simp; omega
  have hraised : (decide (5 ≤ v.val) && decide (v.val < 48)) = false := by simp; omega
  have hfetch : (decide (v.val = 4) && !(s.dev.linen.policyMode && decide (s.dev.linen.pc.toNat < 0xE000))) = false := by
    rcases hv with h | h | ⟨_, hpol, hpc⟩
    · simp; omega
    · simp; omega
    · simp [hpol, hpc]
  show execExceptionEntry v s = _
  simp only [execExceptionEntry, onBoth_eq, hp, hh, hw, hnot, hraised, hfetch, syncEntry_plain hrep hhook, Bool.not_true, Bool.or_self,
      Bool.false_eq_true,
    if_false]

/-! The rows of the digest unit. -/

section
variable {s : State} {act : Dev → SduAct} {w : Word16} {d : Dev}

theorem sduRow_write (hr : linenRuns s.dev = true) (h : act s.dev = .done w d) : sduRow act none s = .next { s with dev := d } := by
  simp only [sduRow, onDev_eq, hr, h, Bool.not_true, Bool.false_eq_true, if_false]

theorem sduRow_read (hr : linenRuns s.dev = true) {rd : Nat} (h : act s.dev = .done w d) :
    sduRow act (some rd) s = .next { s with dev := svSet rd w d } := by
  simp only [sduRow, onDev_eq, hr, h, Bool.not_true, Bool.false_eq_true, if_false]

/-- A stalled access changes nothing (R456). -/
theorem sduRow_stall {rd : Option Nat} (h : act s.dev = .stall) : sduRow act rd s = .next s := by
  simp only [sduRow, onDev_eq, h]
  split <;> rfl

end

theorem sduMine_of_owner {d : Dev} (h : d.linen.sdu.owner = d.linen.taskId.toNat % 8) : sduMine d = true := by
  simpa [sduMine, taskOf] using h

theorem sduMine_of_other {d : Dev} (h : d.linen.sdu.owner ≠ d.linen.taskId.toNat % 8) : sduMine d = false := by
  simpa [sduMine, taskOf] using h

/-! START (R455). -/

/-- The unit with the fields of a write to SDU_CTRL. -/
def ctrlTaken (v : Word16) (d : Dev) : Dev :=
  modSdu (fun u => { u with alg := bits v.toNat 15 12, dest := bits v.toNat 10 9, compat := if u.opened then u.compat else v.getLsbD 11 }) d

theorem or_one_of_bit {v : Word16} (h : v.getLsbD 0 = true) : v ||| 1 = v := by
  ext i hi
  cases i with
  | zero => simpa using h
  | succ i => simp

theorem sduCtrlWrite_start {v : Word16} {d : Dev} (h : v.getLsbD 0 = true)
    (hown : d.linen.sdu.owner = 15 ∨ d.linen.sdu.owner = d.linen.taskId.toNat % 8) : sduCtrlWrite v d = sduOpen (ctrlTaken v d) := by
  have hmay : (!sduMine d && !(v.getLsbD 0 && d.linen.sdu.owner == 15)) = false := by
    rcases hown with ho | ho
    · rw [h, ho]
      simp
    · rw [sduMine_of_owner ho]
      rfl
  exact (if_neg (by rw [hmay]; exact Bool.false_ne_true)).trans (if_pos h)

theorem sduCtrlWrite_other {v : Word16} {d : Dev} (hfree : d.linen.sdu.owner ≠ 15)
    (hother : d.linen.sdu.owner ≠ d.linen.taskId.toNat % 8) : sduCtrlWrite v d = d := by
  refine if_pos ?_
  rw [sduMine_of_other hother]
  simp [hfree]

/-- What is wrong with a selection (R455). -/
def badSelection (d : Dev) : Prop :=
  d.linen.sdu.alg = 0 ∨ 8 < d.linen.sdu.alg ∨ d.linen.sdu.dest = 3 ∨ d.linen.sdu.outLen = 0 ∨ 64 < d.linen.sdu.outLen.toNat ∨
    (d.linen.sdu.dest = 2 ∧ d.linen.policyMode = true)

theorem sduOpen_bad {d : Dev} (h : badSelection d) : sduOpen d = sduSeq d := by
  refine if_pos ?_
  simpa [badSelection, or_assoc] using h

/-- A message opened, with the key that a keyed algorithm takes. -/
theorem sduOpen_good {d : Dev} (h : ¬badSelection d) : sduOpen d =
    if decide (6 ≤ d.linen.sdu.alg) && (sduKey d d.linen.sdu.keySel.toNat).isNone then modSdu (fun u => { u with errKey := true }) d
    else modSdu (fun u => { u with
      cur := { alg := d.linen.sdu.alg,
               key := if decide (6 ≤ d.linen.sdu.alg) then (sduKey d d.linen.sdu.keySel.toNat).getD [] else [],
               slen := d.linen.sdu.slen.toNat, outLen := d.linen.sdu.outLen.toNat, dest := d.linen.sdu.dest }
      owner := if u.owner = 15 then taskOf d else u.owner
      opened := true, finished := false, valid := false, buffered := 0, msg := [], last := none, result := [], readPos := 0 }) d := by
  refine (if_neg ?_).trans rfl
  simpa [badSelection, or_assoc] using h

/-- A result whose destination is DOUT (R455). -/
theorem sduPlace_dout {d : Dev} (h : d.linen.sdu.cur.dest = 0) (r : Bytes) : sduPlace r d = modSdu (fun u => { u with result := r }) d :=
  (if_neg (by rw [h]; decide)).trans (if_neg (by rw [h]; decide))

/-- Settles O56. -/
theorem linenExceptionsAndDigests : Obligations.LinenExceptionsAndDigests := by
  unfold Obligations.LinenExceptionsAndDigests
  refine ⟨fun s v => ⟨fun hinv kind prio pc sr repc hlo hhi hk => ?_, fun hp hh hn pc sr repc hs => ⟨fun h1 h2 => ?_, fun h64 => ?_⟩,
      fun h1 h2 hn => ?_,
      fun hp hh hw hrep hhook => ⟨fun h3 => ?_, fun h48 h63 => ?_, fun h4 hpol hpc => ?_⟩, fun hbad => ?_, fun hp ht => ?_, fun hp ht => ?_,
      fun hr hpol w => ?_, fun hp hst hhalf ht => ?_, fun ht => ⟨?_, ?_⟩, fun hp hst hhalt ht => ?_, fun hp => ?_, fun id due hh ht => ?_,
      fun id due hh ht hp r hr => ?_⟩,
    fun s v rd hr => ⟨fun hstart hown alg dest halg hdest e he bad hbad => ⟨fun hb => ?_, fun hb hk hkey => ?_, fun hb key hkey => ?_⟩,
      fun hfree hother => ?_, fun hown => ⟨fun ho hf hl => ?_, fun ho hf hc => ?_, fun ho hv => ?_, fun ho h1 h2 => ?_, fun hbad => ?_,
          fun hv hpos => ?_,
        fun hv hc => ?_, fun hv => ?_⟩, fun hother => ⟨?_, ?_⟩, fun hk hb => ?_, fun hk hb hpos => ?_,
            fun hk hown ho hb hpos => ⟨fun hlen => ?_, fun hlen hnone => ?_⟩,
      fun hp hbuf => ?_, fun hp hbuf hf hv hdest => ?_⟩⟩
  · have hdram := Memory.wf_dram hinv
    obtain ⟨hrepc, hsr, hpc⟩ := memGet_entryFrame (pc := pc) (sr := sr) (repc := repc) hdram hlo
    obtain ⟨h15, h12, h13⟩ := entrySr_bits hk sr
    simp only [takeException_local v kind prio pc sr repc hlo hhi]
    exact ⟨rfl, hrepc, hsr, hpc, rfl, h15, h12, h13, rfl, rfl, rfl, rfl, rfl, rfl, rfl, rfl, rfl, rfl, rfl,
      fun a ha => memGet_entryFrame_other hdram hlo ha⟩
  · have hne : (v.val = 64) = False := by simp; omega
    have hin : ((decide (16 ≤ v.val) && decide (v.val ≤ 26)) || decide (v.val = 64)) = true := by simp; omega
    show execExceptionEntry v s = _
    simp only [execExceptionEntry, onBoth_eq, hp, hh, hin, interruptEntry_next hn hs, Bool.not_true, Bool.or_self, Bool.false_eq_true,
        if_false, if_true]
    simp only [hne, decide_false, Bool.false_or, if_false]
  · show execExceptionEntry v s = _
    rw [h64] at hn
    simp only [execExceptionEntry, onBoth_eq, hp, hh, h64, interruptEntry_next hn hs, Bool.not_true, Bool.or_self, Bool.false_eq_true, if_false]
    rfl
  · have hin : ((decide (16 ≤ v.val) && decide (v.val ≤ 26)) || decide (v.val = 64)) = true := by simp; omega
    show execExceptionEntry v s = _
    simp only [execExceptionEntry, onBoth_eq, hin, interruptEntry_not_next hn, if_true]
    split <;> rfl
  · exact (exceptionEntry_sync hp hh hw hrep hhook (.inl h3)).trans (by rw [if_neg (by omega)])
  · exact (exceptionEntry_sync hp hh hw hrep hhook (.inr (.inl ⟨h48, h63⟩))).trans (by rw [if_pos h48])
  · exact (exceptionEntry_sync hp hh hw hrep hhook (.inr (.inr ⟨h4, hpol, hpc⟩))).trans (by rw [if_neg (by omega)])
  · have hnot : ((decide (16 ≤ v.val) && decide (v.val ≤ 26)) || decide (v.val = 64)) = false := by simp; omega
    have hnever : (decide (5 ≤ v.val) && decide (v.val < 48)) = true := by simp; omega
    show execExceptionEntry v s = _
    simp only [execExceptionEntry, onBoth_eq, hnot, hnever, Bool.or_true, Bool.false_eq_true, if_false, if_true, ite_self]
  · exact next_dev_congr ((if_neg (by simp [hp])).trans ((if_pos rfl).trans (if_pos ht)))
  · exact next_dev_congr ((if_neg (by simp [hp])).trans ((if_neg (by decide)).trans (if_pos ht)))
  · exact next_dev_congr (if_pos (by simp [hr, hpol]))
  · exact next_dev_congr (if_pos (by simp [hp, hst, hhalf, ht]))
  · exact next_dev_congr (if_neg (by simp; intros; omega))
  · exact next_dev_congr (if_neg (by simp; intros; omega))
  · exact next_dev_congr (if_pos (by simp [hp, hst, hhalt, ht]))
  · exact next_dev_congr (if_pos hp)
  · show execHookTimeout id s = _
    simp only [execHookTimeout, onBoth_eq, hh, decide_eq_false (Nat.not_le.mpr ht), Bool.not_false, Bool.or_true, Bool.true_or, if_true]
  · subst hr
    show execHookTimeout id s = _
    simp only [execHookTimeout, onBoth_eq, hh, decide_eq_true ht, hp, bne_self_eq_false, Bool.not_true, Bool.or_self, Bool.false_eq_true, if_false]
    rfl
  · subst he halg hdest hbad
    show execSduStart v s = _
    refine sduRow_write (w := 0) hr ?_
    simp only [or_one_of_bit hstart, sduWrite, sduCtrlWrite_start hstart hown]
    exact congrArg (SduAct.done 0) (sduOpen_bad hb)
  · subst he halg hdest hbad
    show execSduStart v s = _
    refine sduRow_write (w := 0) hr ?_
    simp only [or_one_of_bit hstart, sduWrite, sduCtrlWrite_start hstart hown]
    refine congrArg (SduAct.done 0) ((sduOpen_good (d := ctrlTaken v s.dev) hb).trans (if_pos ?_))
    exact Bool.and_eq_true_iff.mpr ⟨decide_eq_true hk, Option.isNone_iff_eq_none.mpr hkey⟩
  · subst he halg hdest hbad
    show execSduStart v s = _
    refine sduRow_write (w := 0) hr ?_
    simp only [or_one_of_bit hstart, sduWrite, sduCtrlWrite_start hstart hown]
    refine congrArg (SduAct.done 0) ((sduOpen_good (d := ctrlTaken v s.dev) hb).trans ?_)
    rcases hkey with ⟨hplain, rfl⟩ | ⟨hkeyed, hheld⟩
    · have hno : decide (6 ≤ (ctrlTaken v s.dev).linen.sdu.alg) = false := decide_eq_false (Nat.not_le.mpr (Nat.lt_succ_of_le hplain))
      simp only [hno, Bool.false_and, Bool.false_eq_true, if_false]
      rfl
    · have hyes : decide (6 ≤ (ctrlTaken v s.dev).linen.sdu.alg) = true := decide_eq_true hkeyed
      have hkey : sduKey (ctrlTaken v s.dev) (ctrlTaken v s.dev).linen.sdu.keySel.toNat = some key := hheld
      simp only [hyes, hkey, Option.isNone_some, Option.getD_some, Bool.and_false, Bool.false_eq_true, if_false, if_true]
      rfl
  · show execSduStart v s = _
    refine sduRow_write (w := 0) hr ?_
    simp only [sduWrite, sduCtrlWrite_other hfree hother]
  · show execDin v s = _
    refine sduRow_write (w := 0) hr ?_
    simp only [sduWrite, sduDin, sduMine_of_owner hown, ho, hf, hl, Bool.not_true, Bool.false_eq_true, if_false, if_true, sduTake,
      List.take_of_length_le (Nat.le_of_eq (length_leBytes 2 v.toNat))]
    rfl
  · refine sduRow_stall ?_
    simp only [sduWrite, sduDin, sduMine_of_owner hown, ho, hf, hc, Bool.not_true, Bool.false_eq_true, if_false, if_true]
  · subst hv
    show execLast 0 s = _
    refine sduRow_write (w := 0) hr ?_
    simp only [sduWrite, sduLast, sduMine_of_owner hown, ho]
    rfl
  · show execLast v s = _
    refine sduRow_write (w := 0) hr ?_
    have h0 : ¬v = 0 := by bv_omega
    simp only [sduWrite, sduLast, sduMine_of_owner hown, ho, decide_eq_false (Nat.not_lt.mpr h2), h0, Bool.not_true, Bool.or_self, Bool.false_eq_true,
      if_false]
    rfl
  · show execLast v s = _
    refine sduRow_write (w := 0) hr ?_
    have hbad' : (!s.dev.linen.sdu.opened || decide (2 < v.toNat)) = true := by simpa using hbad
    simp only [sduWrite, sduLast, sduMine_of_owner hown, hbad', Bool.not_true, Bool.false_eq_true, if_false, if_true]
    rfl
  · refine sduRow_read hr ?_
    simp only [sduRead, sduDout, sduMine_of_owner hown, hv, Nat.not_le.mpr hpos, Bool.not_true, Bool.false_eq_true, if_false]
    rfl
  · refine sduRow_stall ?_
    simp only [sduRead, sduDout, sduMine_of_owner hown, hv, hc, Bool.not_true, Bool.not_false, Bool.false_eq_true, if_false, if_true]
  · show execSduOwnerWrite v s = _
    refine sduRow_write (w := 0) hr ?_
    simp only [sduWrite, sduOwner, hv, sduMine_of_owner hown, Bool.true_or, if_true]
    rfl
  · show execDin v s = _
    refine sduRow_write (w := 0) (d := s.dev) hr ?_
    simp only [sduWrite, sduDin, sduMine_of_other hother, Bool.not_false, if_true]
  · show execLast v s = _
    refine sduRow_write (w := 0) (d := s.dev) hr ?_
    simp only [sduWrite, sduLast, sduMine_of_other hother, Bool.not_false, if_true]
  · refine sduRow_stall ?_
    simp only [sduRead, ctxRead, hk, hb, Bool.false_eq_true, if_false, if_true]
  · refine sduRow_read hr ?_
    have hne : (s.dev.linen.sdu.ctxPos != 0) = true := by simpa using hpos
    simp only [sduRead, ctxRead, hk, hb, hne, Bool.false_eq_true, if_false, if_true]
    rfl
  · show execCtxRestore v s = _
    refine sduRow_write (w := 0) hr ?_
    have hkeep : (s.dev.linen.sdu.owner != 15 && s.dev.linen.sdu.owner != 0) = false := by rcases hown with h | h <;> simp [h]
    have hshort : (s.dev.linen.sdu.ctxIn ++ [v]).length < ctxWords := by simpa [ctxWords] using hlen
    simp only [sduWrite, ctxWrite, hk, hkeep, ho, hb, hpos, hshort, bne_self_eq_false, Bool.or_self, Bool.false_eq_true, if_false, if_true]
    rfl
  · show execCtxRestore v s = _
    refine sduRow_write (w := 0) hr ?_
    have hkeep : (s.dev.linen.sdu.owner != 15 && s.dev.linen.sdu.owner != 0) = false := by rcases hown with h | h <;> simp [h]
    have hlast : ¬(s.dev.linen.sdu.ctxIn ++ [v]).length < ctxWords := by simpa [ctxWords] using hlen
    have hsealed : s.dev.linen.sduCtxs.find? (fun e => e.1 == s.dev.linen.sdu.ctxIn ++ [v]) = none := by
      simpa [List.find?_eq_none] using hnone
    simp only [sduWrite, ctxWrite, hk, hkeep, ho, hb, hpos, hlast, hsealed, bne_self_eq_false, Bool.or_self, Bool.false_eq_true, if_false]
    rfl
  · exact next_dev_congr ((if_pos hp).trans (if_pos hbuf))
  · refine next_dev_congr ((if_pos hp).trans ((if_neg (by omega)).trans ((if_pos (by simp [hf, hv])).trans (congrArg (linenPend 18) ?_))))
    exact sduPlace_dout (by exact hdest) _

end Sys2Proof.Machine
end

section
/-!
SUPPORT. Moves, loads, stores, ports, the flow of control and the repetitions of the SV16 (R444 to R448 [16]).
-/
namespace Sys2Proof.Machine

/-! What a step of Linen leaves. -/

section
variable {s : State} {words : Nat} {kernel : Bool} {rk : Repeat} {f : Dev → Memory → SvEnd}

/-- A fetch that is not outside the policy region (R449). -/
theorem fetched {l : Linen} (h : l.policyMode = true → 0xE000 ≤ l.pc.toNat) : (l.policyMode && decide (l.pc.toNat < 0xE000)) = false := by
  cases hp : l.policyMode with
  | false => rfl
  | true => exact decide_eq_false (Nat.not_lt.mpr (h hp))

section
variable (hex : Executing s) (hk : (kernel && s.dev.linen.policyMode) = false)
include hex hk

/-- An instruction outside a repetition that is done. -/
theorem svStep_done {d : Dev} {m : Memory} {j : Option Word16} (hf : f s.dev s.mem = .done d m j) :
    svStep words kernel rk f s = .next { s with dev := modLinen (advance words j) d, mem := m } := by
  obtain ⟨hrun, hnone, hpol⟩ := hex
  simp only [svStep, onBoth_eq, hrun, hnone, fetched hpol, hk, hf, Bool.not_true, Bool.false_eq_true, if_false]

/-- One that raises a synchronous exception. -/
theorem svStep_trap {v : Nat} (hf : f s.dev s.mem = .trap v) : svStep words kernel rk f s = .next { s with
    dev := (syncEntry v s.dev.linen.pc s.dev s.mem).1, mem := (syncEntry v s.dev.linen.pc s.dev s.mem).2 } := by
  obtain ⟨hrun, hnone, hpol⟩ := hex
  simp only [svStep, onBoth_eq, hrun, hnone, fetched hpol, hk, hf, Bool.not_true, Bool.false_eq_true, if_false]

/-- A system call. -/
theorem svStep_sys {v : Nat} (hf : f s.dev s.mem = .sys v) : svStep words kernel rk f s = .next { s with
    dev := (syncEntry v (s.dev.linen.pc + BitVec.ofNat 16 words) s.dev s.mem).1,
    mem := (syncEntry v (s.dev.linen.pc + BitVec.ofNat 16 words) s.dev s.mem).2 } := by
  obtain ⟨hrun, hnone, hpol⟩ := hex
  simp only [svStep, onBoth_eq, hrun, hnone, fetched hpol, hk, hf, Bool.not_true, Bool.false_eq_true, if_false]

end

/-- A privileged instruction in policy mode (R445). -/
theorem svStep_privileged (hex : Executing s) (hp : s.dev.linen.policyMode = true) : svStep words true rk f s = .next { s with
    dev := (syncEntry 1 s.dev.linen.pc s.dev s.mem).1, mem := (syncEntry 1 s.dev.linen.pc s.dev s.mem).2 } := by
  obtain ⟨hrun, hnone, hpol⟩ := hex
  have hfetch : decide (s.dev.linen.pc.toNat < 0xE000) = false := decide_eq_false (Nat.not_lt.mpr (hpol hp))
  simp only [svStep, onBoth_eq, hrun, hnone, hfetch, hp, Bool.and_self, Bool.and_false, Bool.not_true, Bool.false_eq_true, if_false, if_true]

/-- A barred instruction under REPI or REPN raises vector 0 at the address of that one (R448). -/
theorem svStep_barred {p left : Nat} {isN : Bool} (hr : linenRuns s.dev = true)
    (hpol : s.dev.linen.policyMode = true → 0xE000 ≤ s.dev.linen.pc.toNat) (hrep : s.dev.linen.rep = some (p, isN, left))
    (hbar : (rk == .never || (isN && rk == .io)) = true) : svStep words kernel rk f s = .next { s with
      dev := (syncEntry 0 (BitVec.ofNat 16 p) (modLinen (fun l => { l with rep := none }) s.dev) s.mem).1,
      mem := (syncEntry 0 (BitVec.ofNat 16 p) (modLinen (fun l => { l with rep := none }) s.dev) s.mem).2 } := by
  simp only [svStep, onBoth_eq, hr, hrep, fetched hpol, hbar, Bool.not_true, Bool.false_eq_true, if_false, if_true]

/-- NOP under REPI or REPN: a count of 0 skips it, else one iteration of it is done (R448). -/
theorem nop_repeated {p left : Nat} {isN : Bool} (hr : linenRuns s.dev = true)
    (hpol : s.dev.linen.policyMode = true → 0xE000 ≤ s.dev.linen.pc.toNat) (hrep : s.dev.linen.rep = some (p, isN, left)) :
    execSvNop s = .next { s with dev := modLinen (advance 1 none) s.dev } := by
  have hfree : (Repeat.any == Repeat.never || (isN && Repeat.any == Repeat.io)) = false := by cases isN <;> rfl
  simp only [execSvNop, svStep, onBoth_eq, hr, hrep, fetched hpol, hfree, goOn, Bool.false_and, Bool.not_true, Bool.false_eq_true, if_false]
  split <;> rfl

end

section
variable {s : State} {words : Nat} {kernel : Bool} {rk : Repeat} {f : Dev → Memory → SvEnd} {d : Dev} {m : Memory}

/-- A done instruction that leaves the repetition goes on to the next one. -/
theorem svStep_goesOn (hex : Executing s) (hk : (kernel && s.dev.linen.policyMode) = false) (hf : f s.dev s.mem = goOn d m)
    (hrep : d.linen.rep = s.dev.linen.rep) : svStep words kernel rk f s = .next { s with
      dev := modLinen (fun l => { l with pc := l.pc + BitVec.ofNat 16 words }) d, mem := m } := by
  have hnone := hex.2.1
  have next : advance words none d.linen = { d.linen with pc := d.linen.pc + BitVec.ofNat 16 words } := by
    simp only [advance, hrep, hnone]
  rw [svStep_done hex hk hf]
  simp only [modLinen, next]

/-- A jump goes to its target. -/
theorem svStep_goesTo {a : Word16} (hex : Executing s) (hk : (kernel && s.dev.linen.policyMode) = false)
    (hf : f s.dev s.mem = .done d m (some a)) : svStep words kernel rk f s = .next { s with
      dev := modLinen (fun l => { l with pc := a }) d, mem := m } :=
  svStep_done hex hk hf

end

/-! What the accesses of an instruction leave. -/

/-- A read of data space leaves Linen. -/
theorem dataRead_linen {d e : Dev} {m : Memory} {a : Nat} {v : Word16} (h : dataRead d m a = some (v, e)) : e.linen = d.linen := by
  dsimp only [dataRead] at h
  repeat' split at h
  all_goals cases h
  all_goals rfl

/-- Index registers step without a repetition changing. -/
@[simp] theorem eaStep_rep (ea : SvEa) (d : Dev) : (eaStep ea d).linen.rep = d.linen.rep := by
  cases ea with
  | postInc x => exact Sv16.setReg_rep _ _ _
  | preDec x => exact Sv16.setReg_rep _ _ _
  | ind x => rfl
  | disp x k => rfl
  | abs a => rfl

@[simp] theorem svSet_rep (r : Nat) (v : Word16) (d : Dev) : (svSet r v d).linen.rep = d.linen.rep := Sv16.setReg_rep _ _ _

theorem sduOpen_rep (d : Dev) : (sduOpen d).linen.rep = d.linen.rep := by
  dsimp only [sduOpen]
  repeat' split
  all_goals rfl

theorem sduCtrlWrite_rep (v : Word16) (d : Dev) : (sduCtrlWrite v d).linen.rep = d.linen.rep := by
  dsimp only [sduCtrlWrite]
  split
  · rfl
  · split
    · exact sduOpen_rep _
    · rfl

theorem sduLast_rep (v : Word16) (d : Dev) : (sduLast v d).linen.rep = d.linen.rep := by
  dsimp only [sduLast]
  repeat' split
  all_goals rfl

theorem sduOwner_rep (v : Word16) (d : Dev) : (sduOwner v d).linen.rep = d.linen.rep := by
  dsimp only [sduOwner]
  repeat' split
  all_goals rfl

theorem ctxWrite_rep (v : Word16) (d : Dev) : (ctxWrite v d).linen.rep = d.linen.rep := by
  dsimp only [ctxWrite]
  repeat' split
  all_goals rfl

theorem sduDin_rep {v w : Word16} {d e : Dev} (h : sduDin v d = .done w e) : e.linen.rep = d.linen.rep := by
  dsimp only [sduDin] at h
  repeat' split at h
  all_goals cases h
  all_goals rfl

theorem sduDout_rep {w : Word16} {d e : Dev} (h : sduDout d = .done w e) : e.linen.rep = d.linen.rep := by
  dsimp only [sduDout] at h
  repeat' split at h
  all_goals cases h
  all_goals rfl

theorem ctxRead_rep {w : Word16} {d e : Dev} (h : ctxRead d = .done w e) : e.linen.rep = d.linen.rep := by
  dsimp only [ctxRead] at h
  repeat' split at h
  all_goals cases h
  all_goals rfl

theorem sduRead_rep {p : Nat} {w : Word16} {d e : Dev} (h : sduRead p d = .done w e) : e.linen.rep = d.linen.rep := by
  unfold sduRead at h
  split at h
  case h_9 => exact sduDout_rep h
  case h_10 => exact ctxRead_rep h
  all_goals cases h; rfl

/-- A register of the unit that only its owner writes. -/
theorem ownWrite_rep (f : Sdu → Sdu) (d : Dev) : (if sduMine d then modSdu f d else d).linen.rep = d.linen.rep := by
  split <;> rfl

theorem sduWrite_rep {p : Nat} {v w : Word16} {d e : Dev} (h : sduWrite p v d = .done w e) : e.linen.rep = d.linen.rep := by
  unfold sduWrite at h
  dsimp only at h
  split at h
  case h_1 => cases h; exact sduCtrlWrite_rep _ _
  case h_3 => exact sduDin_rep h
  case h_4 => cases h; exact sduLast_rep _ _
  case h_10 => cases h; exact sduOwner_rep _ _
  case h_11 => cases h; exact ctxWrite_rep _ _
  case h_2 => cases h; rfl
  case h_12 => cases h; rfl
  all_goals cases h; exact ownWrite_rep _ _

theorem portRead_rep {p : Nat} {w : Word16} {d e : Dev} (h : portRead p d = .done w e) : e.linen.rep = d.linen.rep := by
  dsimp only [portRead] at h
  split at h
  · cases h
  · split at h
    · cases hs : sduRead (p - 256) d with
      | done v f =>
        rw [hs] at h
        cases h
        exact sduRead_rep hs
      | stall =>
        rw [hs] at h
        cases h
    · split at h
      all_goals cases h
      all_goals rfl

theorem portWrite_rep {p : Nat} {v w : Word16} {d e : Dev} (h : portWrite p v d = .done w e) : e.linen.rep = d.linen.rep := by
  dsimp only [portWrite] at h
  split at h
  · cases h
  · split at h
    · cases hs : sduWrite (p - 256) v d with
      | done v f =>
        rw [hs] at h
        cases h
        exact sduWrite_rep hs
      | stall =>
        rw [hs] at h
        cases h
    · split at h
      all_goals cases h
      all_goals rfl

/-- A closed port faults. -/
theorem port_closed {p : Nat} {d : Dev} (h : portOpen d p = false) (v : Word16) : portRead p d = .fault ∧ portWrite p v d = .fault := by
  simp only [portRead, portWrite, h, Bool.not_false, if_true, and_self]

end Sys2Proof.Machine
end

section
/-!
SUPPORT. The instructions that move data and change the flow (R444 to R448 [16]).
-/
namespace Sys2Proof.Machine

/-! The stack of the mode in force (R443). -/

section
variable {d : Dev} {m : Memory}

theorem pushSp_of_writable (h : dataWritable d (d.linen.sp - 1).toNat = true) {v : Word16} :
    pushSp v d m = some (svSet 8 (d.linen.sp - 1) d, { m with dram := memPut m.dram (d.linen.sp - 1).toNat v }) := by
  simp only [pushSp, dataWrite_of_writable h]

theorem pushSp_of_not_writable (h : dataWritable d (d.linen.sp - 1).toNat = false) {v : Word16} : pushSp v d m = none := by
  simp only [pushSp, dataWrite_of_not_writable h]

theorem popSp_of_read {v : Word16} {e : Dev} (h : dataRead d m d.linen.sp.toNat = some (v, e)) :
    popSp d m = some (v, svSet 8 (e.linen.sp + 1) e) := by
  simp only [popSp, h]

end

/-- The device with the kernel's stack pointer at an address. -/
def kspAt (a : Word16) (d : Dev) : Dev := modLinen (fun l => { l with ksp := a }) d

/-- A pop from kernel RAM in kernel mode. -/
theorem popSp_kernel {d : Dev} {m : Memory} (hp : d.linen.policyMode = false) (ha : d.linen.ksp.toNat < 0x6000) :
    popSp d m = some (memGet m.dram d.linen.ksp.toNat, kspAt (d.linen.ksp + 1) d) := by
  have hsp : d.linen.sp = d.linen.ksp := if_neg (Bool.eq_false_iff.mp hp)
  have hread : dataRead d m d.linen.sp.toNat = some (memGet m.dram d.linen.ksp.toNat, d) := by
    simp only [dataRead, hsp, ha, hp, Bool.false_eq_true, if_true, if_false]
  have hset : svSet 8 (d.linen.sp + 1) d = kspAt (d.linen.ksp + 1) d := by
    simp only [svSet, kspAt, modLinen, Linen.setReg, hsp, hp, Bool.false_eq_true, if_false, Nat.lt_irrefl, if_true]
  rw [popSp_of_read hread, hset]

/-- The low half of an accumulator replaced (R446). -/
theorem low_replaced (a : Word32) (y : Word16) : (a &&& (0xFFFF0000 : BitVec 32)) ||| y.setWidth 32 = (a >>> 16).setWidth 16 ++ y := by
  have hmask : ∀ i : Fin 32, (0xFFFF0000 : BitVec 32).getLsbD i = decide (16 ≤ i.val) := by decide
  generalize (0xFFFF0000 : BitVec 32) = mask at hmask
  apply BitVec.eq_of_getLsbD_eq
  intro i hi
  rw [BitVec.getLsbD_or, BitVec.getLsbD_and, hmask ⟨i, hi⟩, BitVec.getLsbD_append]
  by_cases h : i < 16
  · simp [h, hi, Nat.not_le.mpr h]
  · simp [h, hi, Nat.not_lt.mp h]
    omega

/-- The high half of an accumulator replaced (R446). -/
theorem high_replaced (a : Word32) (y : Word16) : (a &&& (0x0000FFFF : BitVec 32)) ||| (y.setWidth 32 <<< 16) = y ++ a.setWidth 16 := by
  have hmask : ∀ i : Fin 32, (0x0000FFFF : BitVec 32).getLsbD i = decide (i.val < 16) := by decide
  generalize (0x0000FFFF : BitVec 32) = mask at hmask
  apply BitVec.eq_of_getLsbD_eq
  intro i hi
  rw [BitVec.getLsbD_or, BitVec.getLsbD_and, hmask ⟨i, hi⟩, BitVec.getLsbD_append]
  by_cases h : i < 16
  · simp [h, hi]
  · simp [h, hi]

theorem svAcc_rep (ac : Bool) (v : Word32) (d : Dev) : (svAcc ac v d).linen.rep = d.linen.rep := by
  cases ac <;> rfl

/-! Division (R446). -/

theorem divide_zero (signed : Bool) (x : Word16) : divide signed x 0 = (0xFFFF, x, { z := false, n := true, c := false, v := true }, true) :=
  if_pos rfl

theorem divide_min : divide true 0x8000 0xFFFF = (0x8000, 0, { z := false, n := true, c := false, v := true }, false) := by decide

theorem divide_unsigned {x y : Word16} (hy : y ≠ 0) :
    divide false x y = (x / y, x % y, { z := x / y == 0, n := (x / y).msb, c := false, v := false }, false) := by
  have hq : BitVec.ofNat 16 (x.toNat / y.toNat) = x / y := BitVec.udiv_def.symm
  have hr : BitVec.ofNat 16 (x.toNat % y.toNat) = x % y := BitVec.umod_def.symm
  simp only [divide, hy, if_false, Bool.false_and, Bool.false_eq_true, hq, hr]

theorem divide_signed {x y : Word16} (hy : y ≠ 0) (hno : x ≠ 0x8000 ∨ y ≠ 0xFFFF) :
    divide true x y = (BitVec.ofInt 16 (x.toInt.tdiv y.toInt), BitVec.ofInt 16 (x.toInt.tmod y.toInt),
      { z := BitVec.ofInt 16 (x.toInt.tdiv y.toInt) == 0, n := (BitVec.ofInt 16 (x.toInt.tdiv y.toInt)).msb, c := false, v := false }, false) := by
  have hmin : (true && x == 0x8000 && y == 0xFFFF) = false := by
    rcases hno with h | h
    · rw [beq_eq_false_iff_ne.mpr h]
      rfl
    · rw [beq_eq_false_iff_ne.mpr h, Bool.and_false]
  simp only [divide, hy, hmin, if_false, Bool.false_eq_true, if_true]

section
variable {s : State} {signed : Bool} {rd rs : Fin 16} (hex : Executing s) (hlt : rd.val < 8) (heven : rd.val % 2 = 0) {q r : Word16} {f : Flags}
include hex hlt heven

/-- A division leaves its quotient, its remainder and its flags. -/
theorem svDiv_plain (h : divide signed (svReg s.dev rd) (svReg s.dev rs) = (q, r, f, false)) :
    svDiv signed rd rs s = .next { s with
      dev := (modLinen (fun l => { l with pc := l.pc + BitVec.ofNat 16 1 }) (svSet (rd.val + 1) r (svSet rd q (svFlags f s.dev)))) } := by
  refine svStep_goesOn hex rfl ((if_neg (by simp; omega)).trans ?_) ?_
  · simp only [h]
    rfl
  · simp only [svSet_rep]
    rfl

/-- A division by 0 also sets DZ. -/
theorem svDiv_dz (h : divide signed (svReg s.dev rd) (svReg s.dev rs) = (q, r, f, true)) :
    svDiv signed rd rs s = .next { s with
      dev := (modLinen (fun l => { l with pc := l.pc + BitVec.ofNat 16 1 })
        (svSet (rd.val + 1) r (svSet rd q (modLinen (fun l => { l with sr := l.sr ||| 0x0010 }) (svFlags f s.dev))))) } := by
  refine svStep_goesOn hex rfl ((if_neg (by simp; omega)).trans ?_) ?_
  · simp only [h, if_true]
  · simp only [svSet_rep]
    rfl

end

/-- A system call of a running hook (R453, R454). -/
theorem syncEntry_hooked {v : Nat} {pc : Word16} {d : Dev} {m : Memory} (hrep : d.linen.rep = none) (hp : d.linen.policyMode = true)
    (hh : d.linen.hook.isSome = true) : syncEntry v pc d m =
      if v = 48 then hookEnd (tget 0 d.linen.v 0 == 0) d.linen.ksp (takeException v 0 3 pc d.linen.sr d.linen.repc d m).1
        (takeException v 0 3 pc d.linen.sr d.linen.repc d m).2
      else hookFault d.linen.ksp (takeException v 0 3 pc d.linen.sr d.linen.repc d m).1 (takeException v 0 3 pc d.linen.sr d.linen.repc d m).2 := by
  simp only [syncEntry, savedAt, hrep, hp, hh, Bool.and_self, Bool.not_true, Bool.false_eq_true, if_false]

/-- Settles O59. -/
theorem movesAndControlFlow : Obligations.MovesAndControlFlow := by
  unfold Obligations.MovesAndControlFlow
  refine ⟨fun s rd rs imm ea port ac hex => ⟨?_, ?_, ?_, fun hea => ⟨?_, ?_⟩, fun hea hr => ?_, fun hea hw => ?_, fun v e hea hr => ?_,
      fun hea hw => ?_,
      fun hw => ?_, fun v e hr => ?_, fun hw => ?_, fun hp => ⟨?_, ?_⟩, fun v e hp hr => ?_, fun v e hp hw => ?_, fun hp ho => ⟨?_, ?_⟩,
          fun h8 => ?_, fun hpol => ?_,
      fun hpol h8 hx => ?_, fun hpol h8 hx => ?_, fun v e w f hd hs hr hw => ?_, fun v e hd hs hr hw => ?_, fun hbad => ⟨?_, ?_⟩,
      fun hlt heven => ⟨fun hy e he => ⟨?_, ?_⟩, fun hx hy => ?_, fun hy q r hq hr => ?_, fun hy hno q r hq hr => ?_⟩, ?_, ?_, ?_, ?_, ?_,
          ?_, fun hpol => ?_,
      fun hpol => ?_, ?_⟩,
    fun s rs cc t disp tgt k => ⟨fun hex => ⟨fun hc => ?_, fun hc => ?_, fun ht => ?_, fun ht => ⟨?_, ?_⟩, fun ht hw => ?_, fun v e hr => ?_,
      fun hpol => ⟨?_, ?_, ?_, ?_⟩, fun hpol => ⟨?_, ?_, ?_⟩, fun hpol hksp => ?_, fun hres => ?_, fun hres => ?_, ?_, fun hno => ?_,
      fun hpol hh e he => ⟨fun ht => ?_, fun ht => ?_⟩⟩, fun hr hpol p isN left hrep =>
          ⟨fun hl => ?_, fun hl => ?_, fun hl => ?_, fun r hr' => ⟨?_, fun hN rd port => ?_⟩⟩,
      fun hh => ?_⟩⟩
  · show execSvNop s = _
    exact svStep_goesOn hex rfl rfl rfl
  · show execSvMov rd rs s = _
    exact svStep_goesOn hex rfl rfl (svSet_rep _ _ _)
  · show execSvLdi rd imm s = _
    exact svStep_goesOn hex rfl rfl (svSet_rep _ _ _)
  · show execSvLd rd ea s = _
    exact svStep_trap hex rfl (if_pos (by simp [hea]))
  · show execSvSt ea rs s = _
    exact svStep_trap hex rfl (if_pos (by simp [hea]))
  · show execSvLd rd ea s = _
    refine svStep_trap hex rfl ((if_neg (by simp [hea])).trans ?_)
    simp only [hr]
  · show execSvSt ea rs s = _
    refine svStep_trap hex rfl ((if_neg (by simp [hea])).trans ?_)
    simp only [dataWrite_of_not_writable hw]
  · show execSvLd rd ea s = _
    refine svStep_goesOn hex rfl ((if_neg (by simp [hea])).trans ?_) ?_
    · simp only [hr]
    · simp [dataRead_linen hr]
  · show execSvSt ea rs s = _
    refine svStep_goesOn hex rfl ((if_neg (by simp [hea])).trans ?_) (eaStep_rep _ _)
    simp only [dataWrite_of_writable hw]
  · show execSvPush rs s = _
    refine svStep_goesOn hex rfl ?_ (svSet_rep _ _ _)
    simp only [pushSp_of_writable hw]
  · show execSvPop rd s = _
    refine svStep_goesOn hex rfl ?_ ?_
    · simp only [popSp_of_read hr]
    · simp [dataRead_linen hr]
  · show execSvPush rs s = _
    refine svStep_trap hex rfl ?_
    simp only [pushSp_of_not_writable hw]
  · show execSvIn rd port s = _
    exact svStep_trap hex rfl (if_pos (by simp [hp]))
  · show execSvOut port rs s = _
    exact svStep_trap hex rfl (if_pos (by simp [hp]))
  · show execSvIn rd port s = _
    refine svStep_goesOn hex rfl ((if_neg (by simp [hp])).trans ?_) ((svSet_rep _ _ _).trans (portRead_rep hr))
    simp only [hr]
  · show execSvOut port rs s = _
    refine svStep_goesOn hex rfl ((if_neg (by simp [hp])).trans ?_) (portWrite_rep hw)
    simp only [hw]
  · show execSvIn rd port s = _
    refine svStep_trap hex rfl ((if_neg (by simp [hp])).trans ?_)
    simp only [(port_closed ho 0).1]
  · show execSvOut port rs s = _
    refine svStep_trap hex rfl ((if_neg (by simp [hp])).trans ?_)
    simp only [(port_closed ho _).2]
  · show execSvLdp rd rs s = _
    exact svStep_goesOn hex rfl (if_neg (by simp [isIndex, h8])) (svSet_rep _ _ _)
  · show execSvStp rd rs s = _
    exact svStep_privileged hex hpol
  · show execSvStp rd rs s = _
    exact svStep_trap hex (by exact hpol) ((if_neg (by simp [isIndex, h8])).trans (if_pos hx))
  · show execSvStp rd rs s = _
    exact svStep_goesOn hex (by exact hpol) ((if_neg (by simp [isIndex, h8])).trans (if_neg (Nat.not_lt.mpr hx))) rfl
  · show execSvOutm rd rs s = _
    refine svStep_goesOn hex rfl ((if_neg (by simp [isIndex, hd, hs])).trans ?_) ?_
    · simp only [hr, hw]
    · rw [svSet_rep, portWrite_rep hw, dataRead_linen hr]
  · show execSvInm rd rs s = _
    refine svStep_goesOn hex rfl ((if_neg (by simp [isIndex, hd, hs])).trans ?_) ((svSet_rep _ _ _).trans (portRead_rep hr))
    simp only [hr, dataWrite_of_writable hw]
  · show svDiv true rd rs s = _
    exact svStep_trap hex rfl (if_pos (by simpa using hbad))
  · show svDiv false rd rs s = _
    exact svStep_trap hex rfl (if_pos (by simpa using hbad))
  · subst he
    show svDiv true rd rs s = _
    exact svDiv_dz hex hlt heven (by rw [hy, divide_zero])
  · subst he
    show svDiv false rd rs s = _
    exact svDiv_dz hex hlt heven (by rw [hy, divide_zero])
  · show svDiv true rd rs s = _
    exact svDiv_plain hex hlt heven (by rw [hx, hy, divide_min])
  · subst hq hr
    show svDiv false rd rs s = _
    exact svDiv_plain hex hlt heven (divide_unsigned hy)
  · subst hq hr
    show svDiv true rd rs s = _
    exact svDiv_plain hex hlt heven (divide_signed hy hno)
  · show execSvMovl rd ac s = _
    exact svStep_goesOn hex rfl rfl (svSet_rep _ _ _)
  · show execSvMovh rd ac s = _
    exact svStep_goesOn hex rfl rfl (svSet_rep _ _ _)
  · show execSvMvtl ac rs s = _
    refine svStep_goesOn hex rfl ?_ (svAcc_rep _ _ _)
    simp only [low_replaced]
  · show execSvMvth ac rs s = _
    refine svStep_goesOn hex rfl ?_ (svAcc_rep _ _ _)
    exact congrArg (fun a => goOn (svAcc ac a s.dev) s.mem) (high_replaced _ _)
  · show execSvClra ac s = _
    exact svStep_goesOn hex rfl rfl (svAcc_rep _ _ _)
  · show execSvMfsr rd s = _
    exact svStep_goesOn hex rfl rfl (svSet_rep _ _ _)
  · show execSvMtsr rs s = _
    refine svStep_goesOn hex rfl ?_ rfl
    simp only [modLinen, hpol, Bool.false_eq_true, if_false, srMask]
  · show execSvMtsr rs s = _
    refine svStep_goesOn hex rfl ?_ rfl
    simp only [modLinen, hpol, if_true]
  · show execSvClrdz s = _
    exact svStep_goesOn hex rfl rfl rfl
  · show execSvBcc cc disp s = _
    refine svStep_goesTo hex rfl ?_
    simp only [hc, if_true]
  · show execSvBcc cc disp s = _
    refine svStep_goesOn hex rfl ?_ rfl
    simp only [hc]
    rfl
  · show execSvJmp tgt s = _
    exact svStep_goesTo hex rfl (if_pos ht)
  · show execSvJmp tgt s = _
    exact svStep_trap hex rfl (if_neg (by simp [ht]))
  · show execSvCall tgt s = _
    exact svStep_trap hex rfl (if_pos (by simp [ht]))
  · show execSvCall tgt s = _
    refine svStep_goesTo hex rfl ((if_neg (by simp [ht])).trans ?_)
    simp only [pushSp_of_writable hw]
  · show execSvRet s = _
    refine svStep_goesTo hex rfl ?_
    simp only [popSp_of_read hr]
  · show execSvReti s = _
    exact svStep_privileged hex hpol
  · show execSvEi s = _
    exact svStep_privileged hex hpol
  · show execSvDi s = _
    exact svStep_privileged hex hpol
  · show execSvWait s = _
    exact svStep_privileged hex hpol
  · show execSvEi s = _
    exact svStep_goesOn hex (by exact hpol) rfl rfl
  · show execSvDi s = _
    exact svStep_goesOn hex (by exact hpol) rfl rfl
  · show execSvWait s = _
    exact svStep_goesOn hex (by exact hpol) rfl rfl
  · show execSvReti s = _
    refine svStep_goesTo hex (by exact hpol) ?_
    have h1 : (s.dev.linen.ksp + 1).toNat = s.dev.linen.ksp.toNat + 1 := by bv_omega
    have h2 : (s.dev.linen.ksp + 1 + 1).toNat = s.dev.linen.ksp.toNat + 2 := by bv_omega
    have h3 : s.dev.linen.ksp + 1 + 1 + 1 = s.dev.linen.ksp + 3 := by bv_omega
    have hpop1 : popSp s.dev s.mem = some (memGet s.mem.dram s.dev.linen.ksp.toNat, kspAt (s.dev.linen.ksp + 1) s.dev) :=
      popSp_kernel hpol (by omega)
    have hpop2 : popSp (kspAt (s.dev.linen.ksp + 1) s.dev) s.mem = some (memGet s.mem.dram (s.dev.linen.ksp.toNat + 1),
        kspAt (s.dev.linen.ksp + 1 + 1) s.dev) := h1 ▸ popSp_kernel (d := kspAt (s.dev.linen.ksp + 1) s.dev) hpol (Nat.lt_of_le_of_lt (Nat.le_of_eq h1) (by omega))
    have hpop3 : popSp (kspAt (s.dev.linen.ksp + 1 + 1) s.dev) s.mem = some (memGet s.mem.dram (s.dev.linen.ksp.toNat + 2),
        kspAt (s.dev.linen.ksp + 3) s.dev) :=
      h2 ▸ h3 ▸ popSp_kernel (d := kspAt (s.dev.linen.ksp + 1 + 1) s.dev) hpol (Nat.lt_of_le_of_lt (Nat.le_of_eq h2) (by omega))
    simp only [hpop1, hpop2, hpop3]
    rfl
  · show execSvRepi rs s = _
    refine svStep_goesTo hex rfl ?_
    simp only [hres, if_true, modLinen]
  · show execSvRepi rs s = _
    refine svStep_goesTo hex rfl ?_
    simp only [hres, Bool.false_eq_true, if_false, modLinen]
  · show execSvRepn k s = _
    exact svStep_goesTo hex rfl rfl
  · show execSvSys t s = _
    exact (svStep_sys hex rfl rfl).trans (by rw [syncEntry_plain hex.2.1 hno]; rfl)
  · subst he
    show execSvSys t s = _
    refine (svStep_sys hex rfl rfl).trans ?_
    rw [syncEntry_hooked hex.2.1 hpol hh, if_pos (by omega)]
    rfl
  · subst he
    show execSvSys t s = _
    refine (svStep_sys hex rfl rfl).trans ?_
    rw [syncEntry_hooked hex.2.1 hpol hh, if_neg (by omega)]
    rfl
  · subst hl
    refine (nop_repeated hr hpol hrep).trans (next_dev_congr ?_)
    simp only [modLinen, advance, hrep]
    rfl
  · subst hl
    refine (nop_repeated hr hpol hrep).trans (next_dev_congr ?_)
    simp only [modLinen, advance, hrep]
    rfl
  · refine (nop_repeated hr hpol hrep).trans (next_dev_congr ?_)
    simp only [modLinen, advance, hrep, Nat.not_le.mpr hl, if_false]
  · show execSvBcc cc disp s = _
    subst hr'
    exact svStep_barred hr hpol hrep rfl
  · show execSvIn rd port s = _
    subst hr' hN
    exact svStep_barred hr hpol hrep rfl
  · have hstands : linenRuns s.dev = false := by simp [linenRuns, hh]
    show execSvNop s = _
    simp only [execSvNop, svStep, onBoth_eq, hstands, Bool.not_false, if_true]

end Sys2Proof.Machine
end
